-- ==== Sys2Proof/Word.lean ====
section
/-! DEFINITION. The word types of the Camnus T64 and the plain data that commands and state are made of:
bytes, device and die names, message paths, exact numbers. No behaviour is defined here. -/

namespace Sys2Proof

/-- One byte (R9: multi-byte values are little-endian everywhere). -/
abbrev Byte := BitVec 8
/-- A byte string, lowest address first. -/
abbrev Bytes := List Byte

/-- A die of the module (R13): Trify T0–T31, Drift D0–D15, Fixer F0–F15. -/
inductive Die where
  | t (n : Fin 32)
  | d (n : Fin 16)
  | f (n : Fin 16)
deriving DecidableEq, Repr

/-- The die's place in the order T0–T31, D0–D15, F0–F15 (R379): the key under which per-die state is kept. -/
def Die.ix : Die → Nat
  | .t n => n.val
  | .d n => 32 + n.val
  | .f n => 48 + n.val

/-- DIE_KIND of R19 (1 Trify, 2 Drift, 3 Fixer). -/
def Die.kind : Die → Nat
  | .t _ => 1
  | .d _ => 2
  | .f _ => 3

/-- DIE_NUM of R19. -/
def Die.num : Die → Nat
  | .t n => n.val
  | .d n => n.val
  | .f n => n.val

/-- The die at place `i` of the order of `Die.ix`; places past 63 name F15. -/
def Die.ofIx (i : Nat) : Die :=
  if h : i < 32 then .t ⟨i, h⟩
  else if h : i - 32 < 16 then .d ⟨i - 32, h⟩
  else if h : i - 48 < 16 then .f ⟨i - 48, h⟩
  else .f 15

/-- The per-die object base B of R37. -/
def Die.base : Die → Nat
  | .t n => 0xA000 + 0x100 * n.val
  | .d n => 0xC000 + 0x80 * n.val
  | .f n => 0xC800 + 0x80 * n.val

/-- How a dictionary request reaches the pithead (R46): the BAR0 mailbox, or the Iltur bus from a source
address and port (the key of R58). -/
inductive Path where
  | mailbox
  | iltur (addr : Nat) (port : Nat)
deriving DecidableEq, Repr

/-- The authentication trailer of R433: COUNTER and the first 24 bytes of the MAC. -/
structure Trailer where
  counter : BitVec 64
  mac     : Bytes
deriving DecidableEq, Repr

/-- A request message (R50) as received: every header field but SERVICE, which the command's own row gives;
the payload; the trailer when one is present; the CRC word received (Iltur only) and the datagram's size in
bytes. -/
structure Msg where
  path      : Path
  magic     : BitVec 8
  version   : BitVec 8
  response  : Bool
  reservedA : BitVec 7
  index     : BitVec 16
  sub       : BitVec 8
  last      : Bool
  pendingFlag : Bool
  session   : Bool
  reservedB : BitVec 4
  requestId : BitVec 16
  offset    : BitVec 32
  abort     : BitVec 32
  tick      : BitVec 32
  length    : BitVec 16
  payload   : Bytes
  trailer   : Option Trailer
  crc       : BitVec 32
  /-- the DESCRIBE flag, where the command's own row does not give it -/
  describe  : Bool
  /-- the environment shows that an internal fault meets the request's service (R65, R66); no bit of the message -/
  fault     : Bool
deriving DecidableEq, Repr

/-- A decoded number: NaN, an infinity, or a finite value ± m × 2^e that keeps the sign of zero. -/
inductive Fx where
  | nan
  | inf (neg : Bool)
  | fin (neg : Bool) (m : Nat) (e : Int)
deriving DecidableEq, Repr

/-- An exact dyadic number m × 2^e; the normal form has m odd, or m = 0 and e = 0. -/
structure Dy where
  m : Int
  e : Int
deriving DecidableEq, Repr

/-- Zero. -/
def Dy.zero : Dy := ⟨0, 0⟩

/-- What a memory controller reports with a read (R270, R271): clean, corrected, or uncorrectable. -/
inductive Ecc where
  | clean
  | corrected
  | uncorrectable
deriving DecidableEq, Repr

/-- A clock domain that switches (R371). -/
inductive ClockDomain where
  | array
  | fabric
  | core
  | timebase
deriving DecidableEq, Repr

/-- A Drift message (R345), its fields as received. TYPE is the command's own row. -/
structure DriftMsg where
  dest      : BitVec 12
  src       : BitVec 12
  label     : BitVec 11
  countM1   : BitVec 3
  kind      : BitVec 2
  address   : BitVec 52
  requestId : BitVec 32
  muster    : BitVec 12
  round     : BitVec 16
deriving DecidableEq, Repr

/-- A frame slot as received (R344): its label, its index, and the 144 bytes it carries. -/
structure FrameSlot where
  label : BitVec 11
  index : BitVec 3
  bytes : Bytes
deriving DecidableEq, Repr

/-- A received Drift frame (R344) after lane alignment: whether every codeword decoded and CHECK was correct,
the header fields, and the slots that are not empty. -/
structure Frame where
  decoded   : Bool
  checkOk   : Bool
  linkGen   : BitVec 4
  seq       : BitVec 16
  ackSeq    : BitVec 16
  swapReq   : Bool
  swapLane  : Fin 8
  nak       : Bool
  idle      : Bool
  creditReq : BitVec 12
  creditRsp : BitVec 12
  slots     : List FrameSlot
deriving DecidableEq, Repr

/-- What one logical lane delivered for a frame (R340–R342): a codeword that its decoder corrected, control word and 640 frame
bytes; one that it could not; or the samples of the inner frame that the codeword stands in, in thousandths of half the level
spacing, and its place there. -/
inductive LaneRx where
  | word (control : BitVec 20) (data : Bytes)
  | lost
  | samples (xs : List Int) (index : Fin 8)
deriving DecidableEq, Repr

/-- A frame as a port receives it: from its lanes, or read from them already. -/
inductive FrameRx where
  | lanes (l : List LaneRx)
  | aligned (f : Frame)
deriving DecidableEq, Repr

/-- One touched slot of a rider (R193): pod-wide AMAX as F32 bits, and the four sums. -/
structure RiderSlot where
  slot    : Nat
  amax    : BitVec 32
  values  : Nat
  nonzero : Nat
  overs   : Nat
  under   : Nat
deriving DecidableEq, Repr

/-- One steered layer and direction of a rider (R193): the F64 sums and the two flags. -/
structure RiderLayer where
  layer     : Nat
  backward  : Bool
  err2      : BitVec 64
  x2        : BitVec 64
  bracket   : Bool
  escalated : Bool
deriving DecidableEq, Repr

/-- The combined statistics of a step-muster round (R193). -/
structure Rider where
  flags  : BitVec 32
  slots  : List RiderSlot
  layers : List RiderLayer
deriving DecidableEq, Repr

/-- A line of memory: of an HBM3E stack, of a Fixer die's LPDDR5X, by frame and line (R261), or of a physical shaft's stope (R275). -/
inductive LineAt where
  | hbm (stack : Fin 64) (frame : Fin 15360) (line : Fin 16384)
  | lpddr (fixer : Fin 16) (frame : Fin 212992) (line : Fin 16384)
  | stope (die : Fin 32) (phys : Fin 18) (line : Fin 49152)
deriving DecidableEq, Repr

/-- A bit error that a line's next read meets (R270, R274, R277): stored bits gone wrong, or a link error; whether the code corrects
it. -/
structure Upset where
  line : LineAt
  uncorrectable : Bool
deriving DecidableEq, Repr

/-- A bit error that an access to a Trify die's bin meets (R277, R278), at an offset of the bin. -/
structure BinUpset where
  die : Fin 32
  offset : Fin 0x2000000
  uncorrectable : Bool
deriving DecidableEq, Repr

/-- What the environment shows the module at a boundary: the measurements and elapsed facts that no dictionary
write and no other command carries. -/
structure TickEnv where
  /-- dies that did not post the heartbeat of the tick that ends (R76) -/
  silent      : List Die
  /-- average input power of the tick, W as F32 bits (R381) -/
  inputPower  : BitVec 32
  /-- average input voltage of the tick, V as F32 bits -/
  inputVolts  : BitVec 32
  /-- measured power of the tick at each die, W as F32 bits (R390) -/
  measured    : List (Die × BitVec 32)
  /-- measured energy and estimated energy of the tick for each Trify die, F32 bits (R390) -/
  energy      : List (Fin 32 × BitVec 32 × BitVec 32)
  /-- measured mean activity of the tick, in units of 2^-20 of peak, for each Trify die (R387) -/
  activity    : List (Fin 32 × Nat)
  /-- the cycle counts that the frequency counters latch: die, domain row of R371, kHz (R379) -/
  freq        : List (Die × Fin 8 × Nat)
  /-- the offset of the recovered reference in the last window of the tick, a signed number of ppm (R374) -/
  refPpm      : BitVec 32
  /-- a die whose check finds its local oscillator missing or beyond ±2,000 ppm (R372) -/
  oscFail     : Option Die
  /-- hottest sensor of each die, F32 °C bits (R395) -/
  hottest     : List (Die × BitVec 32)
  /-- single sensor readings: die, object (0x22, 0x23 or 0x24), sensor, raw value -/
  sensors     : List (Die × Fin 3 × Nat × BitVec 32)
  /-- coolant inlet and outlet, F32 °C bits -/
  coolant     : BitVec 32 × BitVec 32
  /-- milliseconds that the silence timer gained during the tick (R59) -/
  silenceMs   : Nat
  /-- dies whose read-back of a wipe at this boundary finds a bit set (R279) -/
  wipeFail    : List Die
  /-- clients whose previous publish has not been sent yet (R55) -/
  unsent      : List Path
  /-- bit errors that arise in memory lines (R270, R274, R277) -/
  upsets      : List Upset
  /-- bit errors that accesses to bins meet (R277, R278) -/
  binUpsets   : List BinUpset
deriving DecidableEq, Repr

/-- What the canary ran in a slot or in idle time (R318), with what it found. -/
inductive CanaryWork where
  /-- a segment of a physical shaft's pass (of no shaft on a Drift or Fixer die), and whether it ended a passing pass -/
  | segment (shaft : Option (Fin 18)) (passEnded : Bool)
  /-- a test vector of a unit failed: UNIT_CLASS and index (R21), test group (R317), VECTOR_ID -/
  | vectorFail (cls : Nat) (index : Nat) (group : Nat) (vectorId : BitVec 32)
  /-- lines scrubbed in a tier unit: corrected, the frames that showed an uncorrectable error with the line, and
  whether a full scrub of all units has completed -/
  | scrub (lpddr : Bool) (unit : Nat) (corrected : Nat) (ue : List (Nat × Nat)) (fullPass : Bool)
  /-- a background-test region (R281): `none` the bin, else the physical shaft; the region; whether it failed -/
  | bgTest (shaft : Option (Fin 18)) (region : Nat) (failed : Bool)
  /-- a lane margin window (R355): port of the die, physical lane, ratio, uncorrectable codewords, lost lock -/
  | margin (port : Fin 4) (lane : Fin 9) (ratio : BitVec 32) (uncorr : Nat) (noLock : Bool)
deriving DecidableEq, Repr

/-- One image copy as the ROM finds it in a NOR device (R407, R425). -/
structure ImageCopy where
  version     : BitVec 32
  secVersion  : Nat
  flagTest    : Bool
  /-- FLAGS bit 1: a policy image (R209) -/
  flagPolicy  : Bool
  sigOk       : Bool
  digestOk    : Bool
  /-- the manifest's parts: core kind and SHA-512 digest -/
  parts       : List (Nat × Bytes)
deriving DecidableEq, Repr

/-- A sideband or management input pin that the environment drives (R461). -/
inductive InPin where
  | sb0
  | sb2
  | sb9
  | sb10
  | sb11
deriving DecidableEq, Repr

end Sys2Proof
end

