-- ==== Sys2Proof/Syntax.lean ====
section
/-! DEFINITION. The commands of the block: ONE inductive, one constructor per row of spec/opcode_table.json, in the
table's order. A row that is a write of one dictionary object carries the request message that brings it; a row
that is an operation of an engine names the queue and the slot index of its command; a row that is an event
carries what the environment shows. -/

namespace Sys2Proof

/-- What a check of a muster's round finds: whether a module that takes part has been declared lost (R92). -/
structure MusterCheck where
  muster : Fin 4096
  lost   : Bool
deriving DecidableEq, Repr

/-- Where an array finds a parity error (R143): 0 a weight slot, 1 the accumulator store, 2 the nugget lane; and whether it finds it
during a stop bath (R136). -/
structure ArrayHit where
  what   : Fin 3
  inBath : Bool
deriving DecidableEq, Repr

/-- What a log-mode command's array finds: a parity error in a bank, by row group and bank (R220), or one of any array (R139). -/
inductive LogHit where
  | bank (rowGroup : Fin 4) (bank : Fin 2)
  | array (hit : ArrayHit)
deriving DecidableEq, Repr

/-- Cycles for which a log-mode command's feeds stalled: on nuggets (R112), and on banks (R219). -/
structure LogStall where
  nugget : Nat
  bank   : Nat
deriving DecidableEq, Repr

/-- A reply to a stream's read over a link: the tag and its reuse count, as REQUEST_ID has them (R345), and the plate. -/
structure RemReply where
  tag   : BitVec 16
  reuse : BitVec 4
  bytes : Bytes
deriving DecidableEq, Repr

/-- A command or event of the block (95_what_each_step_holds.md: each is whole and indivisible). -/
inductive Instr where
  -- the dictionary and the mailbox (chapter 02)
  | read (m : Msg)
  | describe (m : Msg)
  | write (m : Msg)
  | readBlock (m : Msg)
  | writeBlock (m : Msg)
  | subscribe (m : Msg)
  | badService (code : BitVec 8) (m : Msg)
  | snapshotLapse (p : Path) (index : BitVec 16) (sub : BitVec 8)
  | blockAbandoned (index : BitVec 16) (sub : BitVec 8)
  | keptResponseExpiry (p : Path) (id : BitVec 16)
  | mbDoorbell (service : BitVec 8) (m : Msg)
  | mbResponse
  | pitheadHandover
  -- the tick (chapter 03)
  | tickBoundary (env : TickEnv)
  | tickEdge (sinceBoundary : Nat) (offset : Int)
  | tickMarker (port : Fin 64) (lane : Fin 8) (sinceBoundary : Nat) (arrivalPs : Int) (control : BitVec 20)
  | edgeMissed
  -- queues, commands and musters (chapter 03)
  | queueEnable (m : Msg) (q : Fin 128)
  | queueDisable (m : Msg) (q : Fin 128)
  | queueHaltRequest (m : Msg) (q : Fin 128)
  | tailWrite (m : Msg) (mirror : Option (Nat × Nat)) (q : Fin 128) (value : BitVec 32)
  | descriptorFetch (q : Fin 128)
  | admitCommand (q : Fin 128) (now : Nat)
  | gatherDeadline (die : Fin 32) (shaft : Fin 16) (engine : Fin 2)
  | commandComplete (q : Fin 128) (slot : BitVec 32) (now : Nat)
  | musterTimeout (muster : MusterCheck)
  | windowEndSuspend (q : Fin 128) (slot : BitVec 32) (consumed : Nat)
  | nop (q : Fin 128) (slot : BitVec 32)
  -- the arrays (chapters 04 and 07)
  | arrayProduct (q : Fin 128) (slot : BitVec 32) (stall : Nat) (parity : Option ArrayHit)
  | arrayDifference (q : Fin 128) (slot : BitVec 32) (stall : Nat) (parity : Option ArrayHit)
  | arrayAbsDifference (q : Fin 128) (slot : BitVec 32) (stall : Nat) (parity : Option ArrayHit)
  | arraySquaredDifference (q : Fin 128) (slot : BitVec 32) (stall : Nat) (parity : Option ArrayHit)
  | arrayLogMode (q : Fin 128) (slot : BitVec 32) (stall : LogStall) (bankParity : Option LogHit)
  | arrayReduceMin (q : Fin 128) (slot : BitVec 32) (stall : Nat) (parity : Option ArrayHit)
  | arrayReduceMax (q : Fin 128) (slot : BitVec 32) (stall : Nat) (parity : Option ArrayHit)
  | arrayPaired (q : Fin 128) (slot : BitVec 32) (stall : Nat) (parity : Option ArrayHit)
  | arrayFp32Accurate (q : Fin 128) (slot : BitVec 32) (stall : Nat) (parity : Option ArrayHit)
  | arrayFp64 (q : Fin 128) (slot : BitVec 32) (stall : Nat) (parity : Option ArrayHit)
  | passSplit (q : Fin 128) (slot : BitVec 32)
  | nuggetPoolSwap (die : Fin 32) (shaft : Fin 16) (engine : Fin 2) (sub : Fin 16) (need : Nat)
  -- the vector unit (chapter 04)
  | vAdd (q : Fin 128) (slot : BitVec 32)
  | vMul (q : Fin 128) (slot : BitVec 32)
  | vAxpby (q : Fin 128) (slot : BitVec 32)
  | vExp (q : Fin 128) (slot : BitVec 32)
  | vRecip (q : Fin 128) (slot : BitVec 32)
  | vRsqrt (q : Fin 128) (slot : BitVec 32)
  | vSigmoid (q : Fin 128) (slot : BitVec 32)
  | vRowSum (q : Fin 128) (slot : BitVec 32)
  | vRowMax (q : Fin 128) (slot : BitVec 32)
  | vSoftmax (q : Fin 128) (slot : BitVec 32)
  | vRmsnorm (q : Fin 128) (slot : BitVec 32)
  | vLayernorm (q : Fin 128) (slot : BitVec 32)
  | vTopkMax (q : Fin 128) (slot : BitVec 32)
  | vTopkMin (q : Fin 128) (slot : BitVec 32)
  | vConvert (q : Fin 128) (slot : BitVec 32)
  -- the stream engine (chapter 08)
  | copy (q : Fin 128) (slot : BitVec 32)
  | arm (q : Fin 128) (slot : BitVec 32)
  | dump (q : Fin 128) (slot : BitVec 32)
  | shadowTakeEffect (ctx : BitVec 18)
  | plateReadReply (ctx : BitVec 18) (addr : BitVec 52) (ecc : Ecc) (remote : Option RemReply)
  | writeAck (ctx : BitVec 18) (addr : BitVec 52) (faulted : Bool)
  -- memory (chapter 09)
  | pageIn (addr : BitVec 52)
  | pageInDone (addr : BitVec 52) (readError : Bool)
  | resume (m : Msg) (value : BitVec 32)
  | streamResume (q : Fin 128) (slot : BitVec 32)
  | streamHaltStale (ctx : BitVec 18)
  | remoteTimeout (ctx : BitVec 18)
  | deadlockDetect (die : Fin 32) (shaft : Fin 16) (blocked : List (Fin 128 × BitVec 32))
  | mapBatch (m : Msg) (pairs : List (BitVec 64 × BitVec 64))
  | pageDrainDone (addr : BitVec 52) (bad : Option (BitVec 30))
  | lookupAddr (m : Msg) (addr : BitVec 64)
  | hostApertureRead (offset : Nat) (len : Nat)
  | hostApertureWrite (offset : Nat) (data : Bytes)
  | retentionWake (die : Fin 32) (shaft : Option (Fin 18))
  -- the canary and the defect list (chapters 11 and 01)
  | canarySegment (die : Die) (work : CanaryWork)
  | canaryLate (die : Fin 32) (phys : Fin 18)
  | defectListAppend
  -- jobs and steps (chapters 01 and 06)
  | startJob (m : Msg)
  | endJob (m : Msg)
  | injectReplay (m : Msg)
  | heldStepWrite (m : Msg) (value : BitVec 64)
  -- the Fixer dies (chapters 10 and 11)
  | update (q : Fin 128) (slot : BitVec 32)
  | verdict (q : Fin 128) (slot : BitVec 32)
  | freeze (m : Msg) (value : BitVec 32)
  | probeStep (m : Msg) (value : BitVec 32)
  | checkpointSave (q : Fin 128) (slot : BitVec 32) (acked : Bool)
  | ckptTimeout (f : Fin 16)
  | restoreGroup (q : Fin 128) (slot : BitVec 32) (peer : List (Nat × Byte))
  | restoreModule (q : Fin 128) (slot : BitVec 32) (peer : List (Nat × Byte))
  | contactSheet (q : Fin 128) (slot : BitVec 32) (peer : List (Nat × Byte))
  | fenceDie (m : Msg) (die : Die)
  | readmitDie (m : Msg) (die : Die)
  | fixerFirmwareSwitch (f : Fin 16)
  -- Drift links (chapter 12)
  | frameReceive (port : Fin 64) (frame : FrameRx)
  | replayTimeout (port : Fin 64)
  | plateGapTimeout (port : Fin 64)
  | linkSilence (port : Fin 64)
  | retrain (port : Fin 64) (replays : Bool) (attempts : Nat) (ok : Bool)
  | readReq (port : Fin 64) (msg : DriftMsg)
  | data (port : Fin 64) (msg : DriftMsg) (plates : List (Fin 8 × Bytes)) (rider : Option Rider)
  | ack (msg : DriftMsg)
  | refuse (msg : DriftMsg)
  | musterPart (msg : DriftMsg) (now : Nat)
  | musterRelease (msg : DriftMsg)
  | swapReq (port : Fin 64) (lane : Fin 8)
  | laneSwap (m : Msg) (value : BitVec 16)
  | requalify (m : Msg) (port : BitVec 8)
  | qualification (port : Fin 64) (failing : List (Fin 9)) (ratios : List (BitVec 32)) (peer : BitVec 12 × Fin 64)
  -- the host port (chapter 12)
  | hostReset (surprise : Bool)
  | powerStateChange (d3hot : Bool)
  | doeDiscovery (request : Bytes)
  | getVersion (request : Bytes)
  | getCapabilities (request : Bytes)
  | negotiateAlgorithms (request : Bytes) (pss4096 : Bool) (hash512 : Bool)
  | getDigests (request : Bytes)
  | getCertificate (request : Bytes) (offset : Nat) (len : Nat)
  | challenge (request : Bytes)
  | getMeasurements (request : Bytes)
  | hostReadTimeout (addr : BitVec 52)
  -- clocks (chapter 13)
  | clockSelectRecovered (m : Msg) (steady : Bool)
  | referenceLoss (cause : Fin 3) (ppm : BitVec 32)
  | domainSwitch (die : Die) (dom : ClockDomain)
  -- power and temperature (chapter 14)
  | undervoltageHalving (mv : Nat)
  | undervoltageClear (mv : Nat)
  | overvoltageAlert (mv : Nat)
  | overvoltageClear (mv : Nat)
  | emergencyStop (cause : Fin 7) (mv : Nat)
  | estopRequest (m : Msg) (mv : Nat)
  | estopRestart (m : Msg)
  | capSafe
  | capExceeded (excessW : Nat)
  | gatingLoop (die : Fin 32) (activity : Nat) (measuredW : BitVec 32) (wantsRise : Bool) (now : Nat)
  | estimatorDistrusted (die : Fin 32) (errorTenths : Nat)
  | estimatorTrusted (die : Fin 32)
  | powerStageSilent (die : Fin 32)
  | thermalStepUp (die : Die) (tenths : Int) (stackTenths : Int)
  | thermalStepDown (die : Fin 32) (tenths : Int) (stackTenths : Int)
  | junctionLimit (die : Die) (tenths : Int)
  | sensorImplausible (die : Die) (voltage : Bool) (sensor : Fin 24)
  | coolantInlet (tenths : Int)
  -- bring-up (chapter 15)
  | auxPowerGood (elapsedMs : Nat)
  | strapLatch (straps : BitVec 12)
  | resetRelease (heldMs : Nat)
  | resetAssert
  | romSelfCheck (d0 : Bool) (d8 : Bool) (elapsedMs : Nat)
  | imageSelect (copies : List ImageCopy) (elapsedMs : Nat)
  | powerWave (railFail : List Die) (channelFail : List (Fin 16 × Fin 16)) (stackFail : List (Fin 64)) (elapsedMs : Nat)
  | inrush
  | firmwareBroadcast (failTwice : List (Die × Bool)) (elapsedMs : Nat)
  | startupTest (failed : List (BitVec 32 × Nat)) (elapsedMs : Nat)
  | defectUnion (elapsedMs : Nat)
  | clockSetup (oscFail : Option Die) (elapsedMs : Nat)
  | portTraining (cable : List (Fin 64)) (peers : List (Fin 64)) (elapsedMs : Nat)
  | peerTrainingTimeout (port : Fin 64)
  | hostLinkTraining (link : Option (Fin 7 × Fin 32 × Bool)) (elapsedMs : Nat)
  | bringupTimeout
  | bootRestart (m : Msg)
  -- security (chapter 16)
  | lcRequest (m : Msg) (value : BitVec 8)
  | identityGenerate (m : Msg) (value : BitVec 8)
  | floorAdvance (m : Msg) (value : BitVec 8)
  | updateOpen (m : Msg)
  | imageChunk (m : Msg)
  | updateCommit (m : Msg) (staged : ImageCopy)
  | updateAbandon (m : Msg)
  | attestNonce (m : Msg)
  | challengeRead (m : Msg)
  | sessionOpen (m : Msg)
  | sessionClose (m : Msg) (value : BitVec 8)
  | sessionTimeout (p : Path)
  | tamperTrip (source : Fin 5) (die : Die) (wipeFail : List Die)
  -- observation (chapter 17)
  | sampleRead (m : Msg) (die : Fin 32)
  | traceArm (m : Msg)
  | traceStop (m : Msg)
  | triggerNow (m : Msg)
  | traceFreeze (die : Fin 32)
  | fullExposureArm (m : Msg) (value : BitVec 8)
  | breakpointHit (die : Fin 32) (core : Fin 76) (index : Fin 8)
  | breakResume (m : Msg) (die : Fin 32)
  | singleStep (m : Msg) (die : Fin 32)
  -- connectors, and what is left of power, links and the Iltur segment
  | locate (m : Msg) (value : BitVec 8)
  | powerRemoved
  | junctionLimitClear (die : Die) (tenths : Int)
  | peerAppears (port : Fin 64)
  | hostLinkUp (rate : Fin 7) (width : Fin 32) (flit : Bool)
  | bar2Resize (log2GiB : Fin 11)
  | neighbourSolicitation (target : BitVec 128) (request : Bytes)
  | echoRequest (request : Bytes)
  | sbInputLevelChange (pin : InPin) (level : Bool)
deriving DecidableEq, Repr

end Sys2Proof
end

