-- ==== Sys2Proof/WellFormed.lean ====
section
/-! DEFINITION. WellFormed: what a command term must satisfy to be one the environment can send. The machine does not
rely on it: exec is total on every term. -/

namespace Sys2Proof

/-- The 24 bytes of a trailer's MAC (R433). -/
def Trailer.wf (t : Trailer) : Bool := decide (t.mac.length = 24)

/-- A message's trailer, when present, has a whole MAC. -/
def Msg.wf (m : Msg) : Bool := match m.trailer with
  | none => true
  | some t => t.wf

/-- The message is a write or read of the object a row is about, with the row's value as its payload. -/
def Msg.says (m : Msg) (index sub : Nat) (payload : Bytes) : Bool :=
  m.wf && decide (m.index.toNat = index) && decide (m.sub.toNat = sub) && decide (m.payload = payload)

/-- The message names the object of a row. -/
def Msg.at (m : Msg) (index sub : Nat) : Bool :=
  m.wf && decide (m.index.toNat = index) && decide (m.sub.toNat = sub)

/-- The little-endian bytes of a value (R9). -/
def valueBytes {w : Nat} (n : Nat) (v : BitVec w) : Bytes := (List.range n).map fun i => (v >>> (8 * i)).setWidth 8

/-- The value of FENCE_REQUEST that names a die (R338): kind, number and the request bit. -/
def fenceValue (d : Die) (fence : Bool) : BitVec 16 :=
  BitVec.ofNat 16 (d.kind * 8192 + d.num * 256 + if fence then 1 else 0)

/-- A frame slot carries 144 bytes (R344). -/
def Frame.wf (f : Frame) : Bool := f.slots.all fun s => decide (s.bytes.length = 144)

/-- A codeword carries 640 bytes of frame (R342), an inner frame has 85 blocks of 257 symbols (R340). -/
def LaneRx.wf : LaneRx → Bool
  | .word _ data => decide (data.length = 640)
  | .lost => true
  | .samples xs _ => decide (xs.length = 85 * 257)

/-- A frame as received. -/
def FrameRx.wf : FrameRx → Bool
  | .lanes l => l.all LaneRx.wf
  | .aligned f => f.wf

/-- Which terms are well formed. -/
def Instr.wf : Instr → Bool
  | .read m => m.wf && !m.describe
  | .describe m => m.wf && m.describe
  | .write m => m.wf
  | .readBlock m => m.wf
  | .writeBlock m => m.wf
  | .subscribe m => m.wf
  | .badService c m => m.wf && decide (c = 0 ∨ 6 ≤ c.toNat)
  | .mbDoorbell _ m => m.wf && decide (m.path = .mailbox)
  | .queueEnable m q => m.says (0x4080 + q.val) 6 [1]
  | .queueDisable m q => m.says (0x4080 + q.val) 6 [0]
  | .queueHaltRequest m q => m.says (0x4080 + q.val) 6 [2]
  | .tailWrite m mirror q v => mirror.isSome || m.says (0x4080 + q.val) 7 (valueBytes 4 v)
  | .plateReadReply _ _ _ r => match r with
    | none => true
    | some r => decide (r.bytes.length = 144)
  | .resume m v => m.says 0x4110 1 (valueBytes 4 v)
  | .mapBatch m pairs =>
    m.says 0x4410 1 (pairs.flatMap fun p => valueBytes 8 p.1 ++ valueBytes 8 p.2) && decide (pairs.length ≤ 64)
  | .lookupAddr m a => m.says 0x4410 2 (valueBytes 8 a)
  | .hostApertureRead _ len => decide (1 ≤ len ∧ len ≤ 4096)
  | .hostApertureWrite _ bs => decide (1 ≤ bs.length ∧ bs.length ≤ 512)
  | .startJob m => m.says 0x7002 1 [1]
  | .endJob m => m.says 0x7002 1 [0]
  | .injectReplay m => m.says 0x3100 0x0D [1]
  | .heldStepWrite m v => m.says 0x3150 5 (valueBytes 8 v)
  | .freeze m v => m.says 0x6000 2 (valueBytes 4 v)
  | .probeStep m v => m.says 0x6020 2 (valueBytes 4 v)
  | .fenceDie m d => m.says 0x7110 1 (valueBytes 2 (fenceValue d true))
  | .readmitDie m d => m.says 0x7110 1 (valueBytes 2 (fenceValue d false))
  | .frameReceive _ f => f.wf
  | .data _ _ plates _ => plates.all fun p => decide (p.2.length = 144)
  | .laneSwap m v => m.says 0x5130 2 (valueBytes 2 v)
  | .requalify m p => m.says 0x5130 1 [p]
  | .clockSelectRecovered m _ => m.says 0x5800 3 [1]
  | .emergencyStop c _ => decide (c ≠ 0)
  | .estopRequest m _ => m.says 0x2010 5 [1]
  | .estopRestart m => m.says 0x2010 3 [1]
  | .bootRestart m => m.says 0x1200 0x0A [1]
  | .imageSelect copies _ => decide (copies.length = 4)
  | .lcRequest m v => m.says 0x8000 2 [v]
  | .identityGenerate m v => m.says 0x8000 3 [v]
  | .floorAdvance m v => m.says 0x8300 2 [v]
  | .updateOpen m => m.says 0x8200 1 [1]
  | .imageChunk m => m.at 0x8200 2
  | .updateCommit m _ => m.says 0x8200 1 [2]
  | .updateAbandon m => m.says 0x8200 1 [3]
  | .attestNonce m => m.at 0x8400 3
  | .challengeRead m => m.at 0x8100 1
  | .sessionOpen m => m.at 0x8100 2
  | .sessionClose m v => m.says 0x8100 6 [v]
  | .tamperTrip src _ _ => decide (src ≠ 0)
  | .sampleRead m d => m.at (0xA000 + 0x100 * d.val + 0x82) 2
  | .traceArm m => m.says 0x9110 6 [1]
  | .traceStop m => m.says 0x9110 6 [0]
  | .triggerNow m => m.says 0x9110 7 [1]
  | .fullExposureArm m v => m.says 0x9200 1 [v]
  | .breakResume m d => m.says (0xA000 + 0x100 * d.val + 0x84) 3 [1]
  | .singleStep m d => m.says (0xA000 + 0x100 * d.val + 0x84) 3 [2]
  | .locate m v => m.says 0x1300 2 [v]
  | _ => true

/-- The request message that brings a command, where one does; a TAIL write through the mirror needs none (R367). -/
def Instr.request : Instr → Option Msg
  | .read m => some m
  | .describe m => some m
  | .write m => some m
  | .readBlock m => some m
  | .writeBlock m => some m
  | .subscribe m => some m
  | .badService _ m => some m
  | .mbDoorbell _ m => some m
  | .queueEnable m _ => some m
  | .queueDisable m _ => some m
  | .queueHaltRequest m _ => some m
  | .tailWrite m mirror _ _ => if mirror.isSome then none else some m
  | .resume m _ => some m
  | .mapBatch m _ => some m
  | .lookupAddr m _ => some m
  | .startJob m => some m
  | .endJob m => some m
  | .injectReplay m => some m
  | .heldStepWrite m _ => some m
  | .freeze m _ => some m
  | .probeStep m _ => some m
  | .fenceDie m _ => some m
  | .readmitDie m _ => some m
  | .laneSwap m _ => some m
  | .requalify m _ => some m
  | .clockSelectRecovered m _ => some m
  | .estopRequest m _ => some m
  | .estopRestart m => some m
  | .bootRestart m => some m
  | .lcRequest m _ => some m
  | .identityGenerate m _ => some m
  | .floorAdvance m _ => some m
  | .updateOpen m => some m
  | .imageChunk m => some m
  | .updateCommit m _ => some m
  | .updateAbandon m => some m
  | .attestNonce m => some m
  | .challengeRead m => some m
  | .sessionOpen m => some m
  | .sessionClose m _ => some m
  | .sampleRead m _ => some m
  | .traceArm m => some m
  | .traceStop m => some m
  | .triggerNow m => some m
  | .fullExposureArm m _ => some m
  | .breakResume m _ => some m
  | .singleStep m _ => some m
  | .locate m _ => some m
  | _ => none

end Sys2Proof
end

