-- ==== Sys2Proof/Decode.lean ====
section
/-! DEFINITION. Decode. The block has no instruction decoder of a processor's kind: spec/opcode_table.json gives no row
any bits, so no word spells a command. (The command descriptor of R80 is a record in memory: Machine/Operands.lean.) -/

namespace Sys2Proof

/-- The command that a word spells by the table's bits: none, since the table gives no row bits. -/
def decodeTableWord (nbits w : Nat) : Option Instr :=
  match nbits, w with
  | _, _ => none

end Sys2Proof
end

