-- ==== Sys2Proof/Machine/State.lean ====
section
/-! DEFINITION. State: everything the spec gives the module, as plain data, and State.reset.

Every scalar dictionary object has its one home in `regs` (key: index × 256 + subindex; an unlisted object reads
its default, Machine/Objects.lean). Every DOMAIN table that is stored as bytes has its home in `dom`. What the
manual names and no object shows has a field of its own below. -/

namespace Sys2Proof.Machine

/-- The reasons a machine of this model stops with a fault. There is none: the module reports every trouble in its
state and its events and goes on (R271, R383, R418), so no command faults. Safe. -/
inductive Fault where
deriving DecidableEq, Repr

/-- The reasons a command is refused by the model itself. -/
inductive Refusal where
  /-- An arm of exec that has no meaning yet. Safe: nothing can be proved of the command. -/
  | notModelled (mnemonic : String)
  /-- Raised by a voltage command above the absolute maximum rating, where the manual "gives no behaviour" (R381,
  R466). Safe: the run ends. -/
  | beyondRatings
deriving DecidableEq, Repr

/-- An event record (R64). -/
structure Event where
  code  : Nat
  sev   : Nat
  unit  : BitVec 32
  op    : BitVec 16
  layer : BitVec 16
  tick  : BitVec 64
  seq   : BitVec 32
  arg0  : BitVec 32
  arg1  : BitVec 32
deriving DecidableEq, Repr

/-- A response as the pithead forms it (R50). -/
structure Resp where
  abort   : Nat
  tick    : BitVec 32
  pending : Bool
  last    : Bool
  payload : Bytes
deriving DecidableEq, Repr

/-- What the module sends out, oldest first in `State.out`. -/
inductive Out where
  /-- an Iltur response (R50), with the MAC and counter when it was sent in a session (R433), and all its bytes -/
  | response (p : Path) (service : BitVec 8) (id : BitVec 16) (r : Resp) (trailer : Option Trailer) (wire : Bytes)
  /-- one PUBLISH (R55) -/
  | publish (p : Path) (tick : Nat) (payload : Bytes) (wire : Bytes)
  /-- an MSI-X vector signalled (R368) -/
  | msix (vector : Nat)
  /-- a Drift message (TYPE of R345) with the plates of its transfer, sent through a port -/
  | drift (port : Nat) (type : Nat) (msg : DriftMsg) (plates : List Bytes) (rider : Option Rider)
  /-- a header sent with NAK and its ACK_SEQ (R348) -/
  | nak (port : Nat) (ackSeq : BitVec 16)
  /-- frames replayed from a sequence number on (R349) -/
  | replay (port : Nat) (fromSeq : BitVec 16)
  /-- SWAP_REQ and SWAP_LANE asked of the peer (R356) -/
  | swapReq (port : Nat) (lane : Nat)
  /-- bytes written to host memory (R335) -/
  | hostWrite (addr : Nat) (data : Bytes)
  /-- an aperture read's completion: the data, or Completer Abort (R268); none: Unsupported Request (R366) -/
  | aperture (data : Option Bytes) (unsupported : Bool)
  /-- an answer of the DOE mailbox or of the Iltur segment's ICMPv6 (R369, R49) -/
  | protocol (which : Nat) (answer : Bytes)
  /-- a 1 µs pulse on SB0 (R74, R404) -/
  | sb0Pulse
  /-- on every lane of a port the codeword that starts first at or after a tick edge, marked with TICK, and by lane its
  TICK_OFFSET (R342, R361) -/
  | marker (port : Nat) (offsets : List (BitVec 6))
deriving DecidableEq, Repr

/-- A kept response (R58). -/
structure Kept where
  id      : BitVec 16
  service : BitVec 8
  /-- the DESCRIBE flag of the request -/
  describe : Bool
  msg     : Msg
  resp    : Resp
  /-- the trailer that the response was sent with (R433) -/
  trailer : Option Trailer
deriving DecidableEq, Repr

/-- A block-read snapshot (R51). -/
structure Snapshot where
  path    : Path
  key     : Nat
  content : Bytes
deriving DecidableEq, Repr

/-- A staged block write (R52). -/
structure Staged where
  path    : Path
  key     : Nat
  content : Bytes
deriving DecidableEq, Repr

/-- A subscription (R53). -/
structure Sub where
  path    : Path
  period  : Nat
  keys    : List Nat
deriving DecidableEq, Repr

/-- An accepted RWT write that waits for the boundary (R45). -/
structure PendWrite where
  key      : Nat
  value    : Bytes
  viaIltur : Bool
deriving DecidableEq, Repr

/-- The pithead's dictionary service (chapter 02). -/
structure DictSt where
  /-- kept responses per client, the client heard last first (R58) -/
  kept      : List (Path × List Kept)
  snaps     : List Snapshot
  staged    : List Staged
  /-- block writes discarded for silence, whose later chunks are refused (R52) -/
  abandoned : List (Path × Nat)
  subs      : List Sub
  rwt       : List PendWrite
  /-- MB_STATUS and the mailbox areas (R61) -/
  mbBusy    : Bool
  mbDone    : Bool
  mbOverrun : Bool
  mbLastId  : BitVec 16
  /-- MB_REQUEST and MB_RESPONSE: the areas' bytes from offset 0, the zeros at their ends left out -/
  mbRequest : Bytes
  mbArea    : Bytes
  /-- the response of the request in progress, and its header and payload -/
  mbServed  : Option (Resp × Bytes)
  pubStart  : Nat
  pubData   : Bytes
  pubEnd    : Nat
  /-- the pithead role is moving (R60) -/
  handover  : Bool
deriving DecidableEq, Repr

/-- The tick generator and the heartbeat check (R68–R76). -/
structure TickSt where
  /-- while acquiring: boundaries made since b0 (R72) -/
  acquiring  : Option Nat
  /-- expected edges missed in a row (R73) -/
  missRun    : Nat
  /-- phase correction applied to the next boundary, ns (R71) -/
  correction : Int
  /-- length in ns of the tick in which the acquisition boundary is placed (R72) -/
  placed     : Option Nat
  /-- the last measured period, ns (R73) -/
  measured   : Nat
  /-- ns since the boundary that opened this tick, as last shown by a command -/
  now        : Nat
  /-- heartbeats missing in a row, per die (R76) -/
  missing    : List (Nat × Nat)
  /-- dies declared lost, to be fenced at the next boundary (R76) -/
  lost       : List Die
deriving DecidableEq, Repr

/-- Per-queue state that no object shows (R79, R198): completion count, the first index fetched of each step. -/
structure QueueSt where
  count  : Nat
  starts : List (Nat × Nat)
deriving DecidableEq, Repr

/-- A command's phase between fetch and completion (R78, R83, R85, R245). -/
inductive Phase where
  | fetched
  | gathered
  | admitted
  | suspended
  | halted
  | done
deriving DecidableEq, Repr

/-- The sums and counts of R180 for one statistics layer and role, or of one command's contribution to it. -/
structure Stat where
  err2      : Dy
  x2        : Dy
  values    : Nat
  amax      : Dy
  amaxInf   : Bool
  blocks    : Nat
  blank     : Nat
  overBlk   : Nat
  under     : Nat
  overs     : Nat
  nuggets   : Nat
  nugOver   : Nat
  nonfinite : Nat
  nonzero   : Nat
deriving DecidableEq, Repr

/-- A contribution that a command posts at its completion (R181): layer, role, exposure slot when the format is
exposed, the sums. -/
structure Post where
  layer : Nat
  role  : Nat
  slot  : Option Nat
  stat  : Stat
deriving DecidableEq, Repr

/-- A command in flight. -/
structure Cmd where
  q        : Nat
  slot     : Nat
  desc     : BitVec 1024
  phase    : Phase
  /-- its work row has run (its outputs stand in memory) -/
  worked   : Bool
  /-- units finished at its last stop: passes, bands or row steps (R246), and the accumulator entries saved there (R138) -/
  made     : Nat
  saved    : List (Nat × Fx × Fx)
  /-- the passes of its gathered batch are counted (R108, R113), and EPOCH_MISMATCH was raised for it (R190) -/
  shared   : Bool
  epochTold : Bool
  status   : Nat
  consumed : Nat
  overruns : Nat
  /-- consecutive ticks in which it overran, and whether OVERRUN_PERSISTENT was raised (R85) -/
  overRun  : Nat
  overTold : Bool
  /-- counted as waiting for room (R83) -/
  waited   : Bool
  /-- QUEUE_STEP_BEHIND was raised for it (R197) -/
  behind   : Bool
  /-- the tick and ns at which it was admitted, restored or resumed, and its place among its engine's commands (R83) -/
  since    : Nat × Nat
  turn     : Nat
  /-- generation bound per context (R234) -/
  bound    : List (Nat × Nat)
  /-- exposure epoch and ordinal at first admission (R171, R197) -/
  epoch    : Nat
  ordinal  : Nat
  /-- exposure code at first admission, by context (R171) -/
  expo     : List (Nat × Nat)
  /-- contributions held apart until completion (R181) -/
  posts    : List Post
  /-- causes the command posts (R194) -/
  causes   : Nat
  /-- plates it wrote that are not yet acknowledged (R240) -/
  unacked  : Nat
  /-- first tick in which it stood halted, and whether STREAM_HALT_STALE was raised (R250) -/
  haltTick : Option Nat
  staleTold : Bool
  passes   : Nat
  /-- draws its conversions took, by writing context, added to INDEX at completion (R169) -/
  draws    : List (Nat × Nat)
  /-- the bracket test of its completion has run (R202) -/
  bracketed : Bool
  /-- ΣΔ² and Σw² per layer of an UPDATE (R314) -/
  ratios   : List (Nat × Dy × Dy)
  /-- the bracket variant that runs in its place (R204) -/
  variant  : Option (BitVec 1024)
  /-- the commands a DEADLOCK halt waits for: queue, slot index (R256) -/
  waitsFor : List (Nat × Nat)
  /-- the tick in which it was fetched (R199) -/
  fetchTick : Nat
  /-- the first member of its gathered batch: queue, slot index, descriptor (R88, R442) -/
  batch    : Option (Nat × Nat × BitVec 1024)
deriving DecidableEq, Repr

/-- STATE of a stream context (R229). -/
inductive CtxState where
  | empty
  | idle
  | running
  | suspended
  | halted
deriving DecidableEq, Repr

/-- Halt causes (R245). -/
inductive Cause where
  | memory
  | link
  | translation
  | drawsExhausted
  | deadlock
  | breakpoint
deriving DecidableEq, Repr

/-- A stream context (R229): its descriptor part [363:0], its draw fields [511:428], and what the engine keeps. -/
structure Ctx where
  desc     : BitVec 364
  draw     : BitVec 84
  gen      : BitVec 8
  doneGen  : BitVec 8
  /-- a re-armed descriptor and, with LOAD_COUNTER, its draw fields (R233) -/
  shadow   : Option (BitVec 364 × Option (BitVec 84))
  state    : CtxState
  causes   : List Cause
  position : Nat
  /-- plates written to the module's own memory that are not acknowledged (R240, R241) -/
  tags     : Nat
  /-- tags reserved at admission (R254) -/
  reserved : Nat
  /-- the page on which it waits (R250) -/
  faultPage : Option Nat
  /-- what it held at the boundary at which the attempt began (R235) -/
  saved    : BitVec 364 × Option (BitVec 364 × Option (BitVec 84)) × Bool
  /-- plates received from a remote module for the bound command: device address, 144 bytes (R239) -/
  got      : List (Nat × Bytes)
deriving DecidableEq, Repr

/-- A muster's round in progress (R90–R93). -/
structure Muster where
  round    : Nat
  count    : Nat
  held     : List Nat
  partDone : Bool
  /-- module IDs whose parts the root has received (R91) -/
  parts    : List Nat
  /-- complete, at ns since the boundary of its tick (R93) -/
  complete : Option Nat
  /-- the root's release has arrived (R91) -/
  released : Bool
  firstTick : Option Nat
  timedOut : Bool
  broken   : Bool
deriving DecidableEq, Repr

/-- The verdict fixed at a release, waiting for the next boundary (R196). -/
structure Verdict where
  /-- 1 PASS, 2 REPLAY, 3 ABANDON (R211) -/
  kind   : Nat
  step   : Nat
  causes : Nat
  codes  : List (Nat × Nat)
  rungs  : List (Nat × Bool × Nat)
  /-- steering counters after the release: layer, backward, HIGH, QUIET (R209) -/
  counters : List (Nat × Bool × Nat × Nat)
deriving DecidableEq, Repr

/-- The step in progress: statistics, causes, rider and verdict (chapter 06). -/
structure StepSt where
  stats     : List (Nat × Stat)
  slots     : List (Nat × Stat)
  causes    : Nat
  /-- bracket and escalation flags posted to the round: layer, backward, bracket, escalated (R193) -/
  flags     : List (Nat × Bool × Bool × Bool)
  /-- this module's frozen rider part (R193) -/
  part      : Option Rider
  /-- parts of other modules, by module ID, at the root (R193) -/
  others    : List (Nat × Rider)
  /-- the combined rider as the root returned it -/
  combined  : Option Rider
  verdict   : Option Verdict
  /-- verdict that took effect at this boundary, with its step (R199) -/
  inEffect  : Option (Nat × Nat)
  /-- tick of the boundary at which the attempt in progress began, and of the job's first attempt (R323) -/
  attemptTick : Nat
  firstTick   : Nat
  /-- ticks at which the attempts of steps began: step, tick (R323) -/
  history     : List (Nat × Nat)
  /-- SUSPECT_COMMITTED forces ABANDON (R323) -/
  forceAbandon : Bool
  /-- ΣΔ² and Σw² per layer posted to the attempt in progress (R314) -/
  ratios      : List (Nat × Dy × Dy)
  /-- command work was admitted in this job (R333) -/
  worked      : Bool
  /-- attempts discarded in this job: each advances the GENERATION of every context (R235) -/
  rewinds     : Nat
  /-- the module section taken by a RESTORE_MODULE for the next boundary: its bytes that are not zero, by offset
  (R334) -/
  restore     : Option (List (Nat × Byte))
  /-- the copies of the module section that PASSes left, by the parity of the step: step, EPOCH, and what the three
  tables listed (R329) -/
  sections    : List (Nat × Nat × Nat × List (Nat × Byte))
deriving DecidableEq, Repr

/-- A physical array (chapters 04 and 07), as it stands between two passes: the group accumulators, the nugget queue and the
tray are empty there (R138). -/
structure ArraySt where
  /-- the setting last run (R133) -/
  setting  : Option Nat
  /-- the front and back weight slots, by sub-array, row and column (R95) -/
  front    : List (Nat × Fx)
  back     : List (Nat × Fx)
  /-- the stationary-nugget registers (R112) -/
  nugFront : List (Nat × Fx)
  nugBack  : List (Nat × Fx)
  /-- the accumulator store, by output element: sum and error, or value and index (R102); the save area in the stope (R138) -/
  store    : List (Nat × Fx × Fx)
  save     : List (Nat × Fx × Fx)
  /-- log mode's banks, by sub-array and row group: whether the second is in use, and both (R219) -/
  banks    : List (Nat × Bool × BitVec 264 × BitVec 264)
deriving DecidableEq, Repr

/-- A batch that is being gathered (R88): the tick in which its first command was held, whether a command that does not
fit in its rows has closed it (R108), its members' queues and slot indices in the order held. -/
structure Gather where
  tick    : Nat
  closed  : Bool
  members : List (Nat × Nat)
deriving DecidableEq, Repr

/-- What a remote tag is held for (R241): a context's plate at an address, read or written; whether a reply is still wanted; the
port its transfer went to, which it keeps (R358). -/
structure TagUse where
  ctx   : Nat
  addr  : Nat
  write : Bool
  want  : Bool
  port  : Option Nat
deriving DecidableEq, Repr

/-- A remote tag (R241, R251): its reuse count, and what it is held for. -/
structure RTag where
  reuse : BitVec 4
  use   : Option TagUse
deriving DecidableEq, Repr

/-- One array or other engine of a logical shaft: the scheduler's visit order (R83), the stationary-nugget pool (R112), the
batches being gathered (R88); of the stream engine, the remote tags, by number, and the plates that wait for one (R241). -/
structure EngineSt where
  /-- the queue admitted first at the previous visit, and of the visit in progress: its tick, ns and first queue -/
  lastQ    : Nat
  visit    : Option (Nat × Nat × Nat)
  held     : List (Nat × Nat)
  waiting  : List (Nat × Nat)
  gather   : List Gather
  rtags    : List (Nat × RTag)
  unsent   : List (Nat × Nat × Bytes)
  /-- the tick and ns at which a command last left it or stopped (R83) -/
  freed    : Nat × Nat
deriving DecidableEq, Repr

/-- A page-in in progress (R265): page address, tier, unit and frame chosen, and the Trify die whose bin stages it (R278). -/
structure PageIn where
  page  : Nat
  tier  : Nat
  unit  : Nat
  frame : Nat
  die   : Nat
deriving DecidableEq, Repr

/-- A page being moved or made absent (R266). -/
structure Drain where
  page  : Nat
  old   : BitVec 64
  new   : BitVec 64
deriving DecidableEq, Repr

/-- Translation, frames and stored errors (chapter 09). -/
structure PageSt where
  /-- 2 MiB entries by page number, 1 GiB entries by page number (R262) -/
  small    : List (Nat × BitVec 64)
  large    : List (Nat × BitVec 64)
  ins      : List PageIn
  drains   : List Drain
  /-- lines holding a stored uncorrectable error: key of their first byte (R271, R272) -/
  ue       : List Nat
  /-- bit errors that reads have still to meet, by key of the line's first byte, and whether each is uncorrectable: stored bits gone
  wrong, and the next link error of an LPDDR5X line (R270–R272, R274, R277) -/
  flaws    : List (Nat × Bool)
  /-- stope regions that the canary is to test next: die, physical shaft, region (R277) -/
  retest   : List (Nat × Nat × Nat)
  /-- pages for which no frame was found, with the die that wants each: tried again at each boundary (R265) -/
  full     : List (Nat × Nat)
  /-- counted uncorrectable errors per frame, by frame key (R272) -/
  ueCount  : List (Nat × Nat)
  retired  : List Nat
  /-- pages that could not be copied out (R266) -/
  dead     : List Nat
  /-- pages that raised APERTURE_FAULT in this tick (R268) -/
  apFaults : List Nat
  /-- stopes and bins in retention: die, unit (18: the bin) (R280) -/
  retained : List (Nat × Nat)
  /-- shafts that did anything in the tick (R280) -/
  busy     : List (Nat × Nat)
  /-- swap frames of doubled logical shafts (R325): die × 16 + logical shaft, unit and frame of each -/
  swaps    : List (Nat × List (Nat × Nat))
  /-- stopes that began undefined (R324), by the store that holds each: a serial number of the model's own for what is in it, and
  the lines written since (log 87) -/
  wild     : List (Nat × Nat × List Nat)
deriving DecidableEq, Repr

/-- A copy of the field defect list in a NOR device (R25). -/
structure ListCopy where
  magic      : BitVec 32
  generation : Nat
  entries    : List (BitVec 128)
  digestOk   : Bool
deriving DecidableEq, Repr

/-- Numbering, failures and the defect list (chapter 01). -/
structure NumSt where
  copies    : ListCopy × ListCopy
  counter   : Nat
  /-- units that failed the start-up test, with the group that failed first (R410) -/
  startFail : List (BitVec 32 × Nat)
  /-- list entries waiting to be appended (R28) -/
  append    : List (BitVec 128)
  /-- shaft failures to be retired at the next boundary: die, physical shaft (R33) -/
  fails     : List (Nat × Nat)
  /-- dies to be fenced at the next boundary, and whether as lost (R336) -/
  fences    : List (Die × Bool)
  readmits  : List Die
  /-- readmitted dies that wait for the next job start (R36) -/
  nextJob   : List Die
  fenced    : List Die
  /-- units that failed in service: unit identifiers (R16–R18) -/
  unitFails : List (BitVec 32)
  /-- Drift dies whose reduction store failed while an entry was enabled: the job ends at the next boundary (R365) -/
  storeLost : List Nat
  /-- logical shaft count of each Trify die at job start (R33) -/
  jobShafts : List (Nat × Nat)
  /-- good shafts of each Trify die at job start; a die fenced then has none (R36) -/
  jobGoods  : List (Nat × Nat)
  /-- shape at the last boundary, to see whether it changed (R471) -/
  changed   : Bool
deriving DecidableEq, Repr

/-- A held row of a LAYOUT 1 group (R307): the bits of its new weights, and the plates of its moments by device
address; its narrow copy's format. -/
structure HeldRow where
  group   : Nat
  row     : Nat
  weights : List (BitVec 32)
  plates  : List (Nat × Bytes)
  fmt     : Nat
deriving DecidableEq, Repr

/-- A SAVE in progress (R329, R330): its slot and step, its command, and the enabled groups' table entries as it bound
them at its admission. -/
structure Save where
  slot  : Nat
  step  : Nat
  q     : Nat
  qslot : Nat
  bound : List (Nat × BitVec 1024)
deriving DecidableEq, Repr

/-- A Fixer die (chapters 10 and 11). -/
structure FixSt where
  /-- groups with an UPDATE admitted in the attempt (R295) -/
  admitted : List Nat
  /-- groups whose UPDATE has completed: group, copy format used, step (R308) -/
  applied  : List (Nat × Nat × Nat)
  holds    : List HeldRow
  freezes  : List (Nat × Bool)
  save     : Option Save
  /-- step that each of the two slots holds complete (R330) -/
  slots    : Option Nat × Option Nat
  sequence : Nat
  /-- groups whose change bit of a slot is clear: group, slot (R330) -/
  clean    : List (Nat × Nat)
  /-- rows of LAYOUT 1 groups whose change bit is clear: group, row, slot -/
  cleanRows : List (Nat × Nat × Nat)
  /-- a switch to a new verified image waits (R338) -/
  newImage : Option ImageCopy
deriving DecidableEq, Repr

/-- A Drift port (chapter 12). -/
structure PortSt where
  linkGen   : BitVec 4
  rxNext    : BitVec 16
  txNext    : BitVec 16
  /-- sequenced frames not acknowledged (R349) -/
  unacked   : Nat
  ackSeq    : BitVec 16
  discarding : Bool
  creditReq : Nat
  creditRsp : Nat
  /-- open incoming transfers: label, message, plates received by position (R346) -/
  opens     : List (Nat × DriftMsg × List (Nat × Bytes))
  /-- labels in use on transmissions: sequence of the frame that carries the last plate × 2,048 + label -/
  labels    : List Nat
  replayRun : Nat
  trained   : Bool
  /-- the spare is marked failed (R355) -/
  spareBad  : Bool
  cable     : Bool
deriving DecidableEq, Repr

/-- A line of the reduction store (R362, R363). -/
structure RedLine where
  acc    : List Int
  inv    : List Bool
  cnt    : Nat
  rounds : Nat
deriving DecidableEq, Repr

/-- The host port (R366–R370). -/
structure HostSt where
  d3hot    : Bool
  /-- BAR2 size is 2^n GiB (R367) -/
  bar2     : Nat
  /-- BAR2 was resized and APERTURE_BASE not written since (R367) -/
  resized  : Bool
  /-- MSI-X vectors masked (R370), and pending bits -/
  masked   : Bool
  pendingBits : List Nat
  /-- SPDM negotiation done (R369) -/
  negotiated : Bool
  /-- D0 was fenced, and no step 10 has run since (R17) -/
  lost     : Bool
deriving DecidableEq, Repr

/-- Clocks (chapter 13). -/
structure ClkSt where
  /-- domains that have still to switch: die place, domain (R375) -/
  waiting   : List (Nat × ClockDomain)
  /-- the switch in progress goes to the recovered reference -/
  toRecovered : Bool
  /-- domains that run from the recovered reference -/
  onRecovered : List (Nat × ClockDomain)
  /-- phase count added at TIMEBASE switches (R375) -/
  phaseAdds : Nat
  /-- the run configuration and the counters have been set (R413) -/
  running   : Bool
deriving DecidableEq, Repr

/-- Power and temperature (chapter 14). -/
structure PwrSt where
  /-- undervoltage cleared, cap restored at the next boundary (R381) -/
  uvCleared : Bool
  /-- a write of RACK_CAP_W over Iltur waits (R385) -/
  rackWrite : Bool
  safeDue   : Bool
  overRun   : Nat
  excess    : BitVec 32
  /-- power of everything but Trify dies in the last tick, F32 bits (R388) -/
  rest      : BitVec 32
  /-- CAP_EXCEEDED told, CAP_SHORT told in this job -/
  exceededTold : Bool
  shortTold : Bool
  /-- phase of each Trify die in this tick: its key, and the predicted cycles of the command that gave it (R387) -/
  phase     : List (Nat × Nat × Nat)
  /-- the effective cap that the last division shared out (R384, R388) -/
  capAt     : Nat
  /-- consecutive ticks of large and of small error per die (R391) -/
  large     : List (Nat × Nat)
  small     : List (Nat × Nat)
  /-- consecutive ticks below the leaving value (R396) -/
  below     : List (Nat × Nat)
  /-- dies at the junction limit (R396) -/
  junction  : List Nat
  coolant   : Bool
  /-- issue fraction allowed by the fast loop per die, in 1/1,048,576 of peak (R391, R392) -/
  gate      : List (Nat × Nat)
  /-- activity below which a die's current may not fall in the next µs, in the same units: what work leaves short of it the arrays
  are clocked for on zero operands, with no results (R392) -/
  floor     : List (Nat × Nat)
  /-- dies whose activity has been below 25 % of peak for 4 µs: µs below (R393) -/
  idleFor   : List (Nat × Nat)
deriving DecidableEq, Repr

/-- Bring-up (chapter 15) and the pins (chapter 18). -/
structure BootSt where
  /-- 50 V and auxiliary power are present; auxiliary power good (R402) -/
  aux       : Bool
  resetHeld : Bool
  latched   : Bool
  /-- the step that runs, 0 before step 1, 11 Ready (R400) -/
  step      : Nat
  stopped   : Bool
  estop     : Bool
  /-- a tamper holds the module until power removal or reset (R435) -/
  tamperHold : Bool
  /-- active pithead: none, D0 (false) or D8 (true) (R406) -/
  pithead   : Option Bool
  waves     : Nat
  powered   : List Die
  admitted  : List Die
  /-- dies that were admitted when a stop cut their power: their objects of chapter 14 survive it (R383) -/
  survive   : List Die
  /-- ports that have not ended step 9 -/
  training  : List Nat
  totalMs   : Nat
  /-- levels that the environment drives on the input pins (R469) -/
  sb2       : Bool
  inputs    : List (InPin × Bool)
  /-- sources of a stop that still hold: causes of R382 -/
  causes    : List Nat
  /-- a source of the tick written before Ready waits (R70) -/
  sourceDue : Bool
deriving DecidableEq, Repr

/-- An open session (R432–R434). -/
structure Session where
  path    : Path
  slot    : Nat
  key     : Bytes
  rx      : Nat
  tx      : Nat
  /-- the encrypted key, readable by the opener (R432) -/
  sealed  : Bytes
  /-- the tick in which it was opened -/
  opened  : Nat
deriving DecidableEq, Repr

/-- Security and life cycle (chapter 16). -/
structure SecSt where
  /-- challenge of each client, with the tick in which it was read (R432) -/
  challenges : List (Path × Nat × Bytes)
  sessions   : List Session
  random     : Nat
  lcPending  : Option Nat
  returns    : Nat
  identity   : Option (Bytes × Bytes)
  /-- the private key stands unwrapped in the pithead's and D8's sealed banks (R424) -/
  unwrapped  : Bool
  /-- the four image copies of the NOR devices: A, B of device 0, then of device 1 (R407) -/
  images     : List ImageCopy
  /-- the image that runs (R407) -/
  running    : Option ImageCopy
  /-- an open update: target image (0 A, 1 B) and staged bytes by offset (R427) -/
  stage      : Option (Nat × List (Nat × Bytes))
  policyDue  : Option ImageCopy
  /-- VERSION of the policy image that the die managers run; none: the default policy (R209) -/
  policy     : Option (BitVec 32)
  /-- measurement log entries: sequence, unit, core kind, version, digest (R428) -/
  log        : List (Nat × BitVec 32 × Nat × BitVec 32 × Bytes)
  /-- dies held in reset by SEALED_WIPE_FAIL (R279) -/
  heldReset  : List Die
  /-- sealed banks that hold content: die places (R279) -/
  sealed     : List Nat
deriving DecidableEq, Repr

/-- A tally: live and print copies with their tags (R441). -/
structure Tally where
  live   : Nat
  print  : Nat
  tag    : BitVec 64
  step   : BitVec 32
  layer  : BitVec 16
  op     : BitVec 16
  dropped : Bool
deriving DecidableEq, Repr

/-- A trace record (R445). -/
structure TraceRec where
  arg1 : BitVec 32
  arg0 : BitVec 32
  op   : BitVec 16
  layer : BitVec 16
  kind : Nat
  source : Nat
  unit : Nat
  full : Bool
  trigger : Bool
  tick : Nat
  time : Nat
  cc   : Nat
  seq  : Nat
deriving DecidableEq, Repr

/-- A die's trace buffer (R449–R451), newest record first. -/
structure TraceBuf where
  recs   : List TraceRec
  seq    : Nat
  /-- records still to be written after the trigger, or frozen -/
  post   : Option Nat
  frozen : Bool
deriving DecidableEq, Repr

/-- Observation (chapter 17). -/
structure ObsSt where
  tallies : List (Nat × Tally)
  traces  : List (Nat × TraceBuf)
  trigTick : Option Nat
  /-- halted cores: die, local core (R454) -/
  halted  : List (Nat × Nat)
deriving DecidableEq, Repr

/-- The canary (chapter 11). -/
structure CanarySt where
  /-- lowest clock granted since the last pass of each shaft, MHz: key die × 18 + shaft (R318) -/
  lowClock : List (Nat × Nat)
  /-- passes for which CANARY_LATE was raised -/
  lateTold : List Nat
deriving DecidableEq, Repr

/-- Limits fused at manufacture and identities (R3, R4): fixed for the life of the module. -/
structure Fuse where
  /-- 40, 36 or 32 -/
  variant : Nat
  part    : Bytes
  serial  : Bytes
  eui48   : BitVec 48
  pciIds  : BitVec 32
  /-- η of R388, F32 bits -/
  eta     : BitVec 32
  iPeak   : Nat
  /-- the factory fuse maps: the unit identifiers of the units they mark bad (R23) -/
  bad     : List (BitVec 32)
deriving DecidableEq, Repr

/-- The state of the module. -/
structure State where
  /-- commands that wait, first in, first out: the model's own queue of its environment's commands -/
  pending : List Instr
  fuse    : Fuse
  regs    : List (Nat × Nat)
  dom     : List (Nat × Byte)
  mem     : List Host.Cell
  dict    : DictSt
  tick    : TickSt
  que     : List (Nat × QueueSt)
  cmds    : List Cmd
  ctxs    : List (Nat × Ctx)
  mus     : List (Nat × Muster)
  step    : StepSt
  eng     : List (Nat × EngineSt)
  arr     : List (Nat × ArraySt)
  page    : PageSt
  num     : NumSt
  fix     : List (Nat × FixSt)
  ports   : List (Nat × PortSt)
  red     : List (Nat × RedLine)
  host    : HostSt
  clk     : ClkSt
  pwr     : PwrSt
  boot    : BootSt
  sec     : SecSt
  obs     : ObsSt
  can     : CanarySt
  events  : List Event
  out     : List Out
deriving DecidableEq, Repr

/-- The empty list copy with a valid digest (R25). -/
def ListCopy.fresh : ListCopy := ⟨0x4C444643, 0, [], true⟩

/-- The module before power: nothing is powered, no step of bring-up has run, every object reads its default, memory
lists nothing, no command is in flight (R400, R402). What the manual leaves open here is named in the log. DESIGN CHOICE: the
fused map of bad units is empty (log 168), the counter of defect list copies is 0 (log 169). -/
def State.reset : State where
  pending := []
  fuse := { variant := 40,
            part := [0x43, 0x4D, 0x4E, 0x2D, 0x54, 0x36, 0x34, 0x2D, 0x34, 0x30],
            serial := [], eui48 := 0, pciIds := 0, eta := 0x3F70A3D7#32, iPeak := 850, bad := [] }
  regs := []
  dom := []
  mem := []
  dict := { kept := [], snaps := [], staged := [], abandoned := [], subs := [], rwt := [],
            mbBusy := false, mbDone := false, mbOverrun := false, mbLastId := 0,
            mbRequest := [], mbArea := [], mbServed := none,
            pubStart := 0, pubData := [], pubEnd := 0, handover := false }
  tick := { acquiring := none, missRun := 0, correction := 0, placed := none, measured := 1000000,
            now := 0, missing := [], lost := [] }
  que := []
  cmds := []
  ctxs := []
  mus := []
  step := { stats := [], slots := [], causes := 0, flags := [], part := none, others := [], combined := none,
            verdict := none, inEffect := none, attemptTick := 0, firstTick := 0, history := [],
            forceAbandon := false, ratios := [], worked := false, rewinds := 0, restore := none,
            sections := [] }
  eng := []
  arr := []
  page := { small := [], large := [], ins := [], drains := [], ue := [], flaws := [], retest := [], full := [], ueCount := [], retired := [], dead := [],
            apFaults := [], retained := [], busy := [], swaps := [], wild := [] }
  num := { copies := (ListCopy.fresh, ListCopy.fresh), counter := 0, startFail := [], append := [],
           fails := [], fences := [], readmits := [], nextJob := [], fenced := [], unitFails := [], storeLost := [],
           jobShafts := [], jobGoods := [], changed := false }
  fix := []
  ports := []
  red := []
  host := { d3hot := false, bar2 := 8, resized := false, masked := true, pendingBits := [], negotiated := false, lost := false }
  clk := { waiting := [], toRecovered := false, onRecovered := [], phaseAdds := 0, running := false }
  pwr := { uvCleared := false, rackWrite := false, safeDue := false, overRun := 0, excess := 0, rest := 0,
           exceededTold := false, shortTold := false, phase := [], large := [], small := [], below := [],
           capAt := 0, junction := [], coolant := false, gate := [], floor := [], idleFor := [] }
  boot := { aux := false, resetHeld := true, latched := false, step := 0, stopped := false, estop := false,
            tamperHold := false, pithead := none, waves := 0, powered := [], admitted := [], survive := [], training := [],
            totalMs := 0, sb2 := true, inputs := [], causes := [], sourceDue := false }
  sec := { challenges := [], sessions := [], random := 0, lcPending := none, returns := 0, identity := none,
           unwrapped := false, images := [], running := none, stage := none, policyDue := none, policy := none, log := [],
           heldReset := [], sealed := [] }
  obs := { tallies := [], traces := [], trigTick := none, halted := [] }
  can := { lowClock := [], lateTold := [] }
  events := []
  out := []

end Sys2Proof.Machine
end

