-- ==== Sys2Proof/Machine/SMap.lean ====
section
/-! DEFINITION. Sparse maps: lists of key and value pairs with strictly rising keys, and the memory kept in that
form (no listed byte equals what an unlisted address reads as, which is zero: log entry 2). -/

namespace Sys2Proof.Machine

variable {α : Type}

/-- The value listed at a key. -/
def SMap.get? : List (Nat × α) → Nat → Option α
  | [], _ => none
  | (a, v) :: t, k => if k = a then some v else SMap.get? t k

/-- List a value at a key, in place of any other. -/
def SMap.put : List (Nat × α) → Nat → α → List (Nat × α)
  | [], k, v => [(k, v)]
  | (a, w) :: t, k, v =>
    if k < a then (k, v) :: (a, w) :: t
    else if k = a then (k, v) :: t
    else (a, w) :: SMap.put t k v

/-- List nothing at a key. -/
def SMap.del : List (Nat × α) → Nat → List (Nat × α)
  | [], _ => []
  | (a, w) :: t, k => if k = a then SMap.del t k else (a, w) :: SMap.del t k

/-- The value at a key, or a default. -/
def SMap.get (d : α) (m : List (Nat × α)) (k : Nat) : α := (SMap.get? m k).getD d

/-- Change the value at a key, starting from a default. -/
def SMap.upd (d : α) (m : List (Nat × α)) (k : Nat) (f : α → α) : List (Nat × α) :=
  SMap.put m k (f (SMap.get d m k))

/-- Keys rise strictly. -/
def SMap.Rising : List (Nat × α) → Bool
  | [] => true
  | [_] => true
  | (a, _) :: (b, w) :: t => decide (a < b) && SMap.Rising ((b, w) :: t)

/-- The byte at an address: what is listed, else zero. -/
def Mem.read (m : List Host.Cell) (a : Nat) : Byte := (SMap.get? m a).getD 0

/-- Store one byte, keeping the canonical form. -/
def Mem.write (m : List Host.Cell) (a : Nat) (b : Byte) : List Host.Cell :=
  if b = 0 then SMap.del m a else SMap.put m a b

/-- `n` bytes from an address. -/
def Mem.readN (m : List Host.Cell) (a : Nat) : Nat → Bytes
  | 0 => []
  | n + 1 => Mem.read m a :: Mem.readN m (a + 1) n

/-- Store bytes from an address on. -/
def Mem.writeN (m : List Host.Cell) (a : Nat) : Bytes → List Host.Cell
  | [] => m
  | b :: t => Mem.writeN (Mem.write m a b) (a + 1) t

/-- Forget every byte from `lo` to below `hi`: a memory that lost its power (R383). -/
def Mem.forget (m : List Host.Cell) (lo hi : Nat) : List Host.Cell :=
  m.filter fun c => decide (c.1 < lo ∨ hi ≤ c.1)

/-- The canonical form of memory: addresses rise strictly and no listed byte is zero. -/
def Mem.wf (m : List Host.Cell) : Bool := SMap.Rising m && m.all fun c => decide (c.2 ≠ 0)

/-- Little-endian value of a byte string (R9). -/
def leNat : Bytes → Nat
  | [] => 0
  | b :: t => b.toNat + 256 * leNat t

/-- The `n` little-endian bytes of a number, its higher bits dropped (R9). -/
def leBytes : Nat → Nat → Bytes
  | 0, _ => []
  | n + 1, v => BitVec.ofNat 8 v :: leBytes n (v / 256)

/-- Bits [hi:lo] of a number. -/
def bits (v hi lo : Nat) : Nat := (v >>> lo) % 2 ^ (hi + 1 - lo)

/-- One bit of a number. -/
def bit (v i : Nat) : Bool := v.testBit i

/-- A number with bits [hi:lo] replaced. -/
def setBits (v hi lo x : Nat) : Nat :=
  (v >>> (hi + 1)) <<< (hi + 1) + ((x % 2 ^ (hi + 1 - lo)) <<< lo) + v % 2 ^ lo

/-- 1 for true. -/
def b2n (b : Bool) : Nat := if b then 1 else 0

/-- Saturating at the largest value of a width. -/
def satN (w v : Nat) : Nat := min v (2 ^ w - 1)

/-- The members of a list of numbers. -/
def memN (x : Nat) (l : List Nat) : Bool := l.any fun y => decide (x = y)

end Sys2Proof.Machine
end

