-- ==== Sys2Proof/Machine/Num.lean ====
section
/-! DEFINITION. Exact numbers and the roundings of R163 and R299: values are ± m × 2^e; quotients and roots are cut
after more bits than any rounding of the manual looks at, which leaves every rounding as it is for the exact value
(round to nearest with ties away looks only at a floor; log entry 9). -/

namespace Sys2Proof

open Sys2Proof.Machine

/-- ⌊n × 2^k⌋. -/
def shl (n : Nat) (k : Int) : Nat := if k < 0 then n >>> (-k).toNat else n <<< k.toNat

/-- Number of trailing zero bits; 0 for 0. -/
def tzN (n : Nat) : Nat := if n = 0 then 0 else Nat.log2 (n ^^^ (n - 1))

/-- The normal form of a dyadic number. -/
def Dy.norm (x : Dy) : Dy :=
  if x.m = 0 then Dy.zero
  else
    let k := tzN x.m.natAbs
    ⟨x.m / 2 ^ k, x.e + k⟩

/-- Exact sum. -/
def Dy.add (x y : Dy) : Dy :=
  if x.m = 0 then y else if y.m = 0 then x else
  let e := min x.e y.e
  Dy.norm ⟨x.m * 2 ^ (x.e - e).toNat + y.m * 2 ^ (y.e - e).toNat, e⟩

/-- Exact product. -/
def Dy.mul (x y : Dy) : Dy := Dy.norm ⟨x.m * y.m, x.e + y.e⟩

/-- Exact comparison. -/
def Dy.lt (x y : Dy) : Bool :=
  let e := min x.e y.e
  decide (x.m * 2 ^ (x.e - e).toNat < y.m * 2 ^ (y.e - e).toNat)

/-- Magnitude. -/
def Dy.abs (x : Dy) : Dy := ⟨x.m.natAbs, x.e⟩

/-- Negation. -/
def Dy.neg (x : Dy) : Dy := ⟨-x.m, x.e⟩

/-- The larger. -/
def Dy.max (x y : Dy) : Dy := if Dy.lt x y then y else x

/-- A natural number. -/
def Dy.ofNat (n : Nat) : Dy := Dy.norm ⟨n, 0⟩

/-- Times a power of two. -/
def Dy.scale (x : Dy) (k : Int) : Dy := if x.m = 0 then x else ⟨x.m, x.e + k⟩

/-- The exact value of a finite number; 0 for the others. -/
def Fx.toDy : Fx → Dy
  | .fin s m e => Dy.norm ⟨if s then -(m : Int) else m, e⟩
  | _ => Dy.zero

/-- A dyadic number as a decoded number; zero is +0. -/
def Dy.toFx (x : Dy) : Fx := .fin (decide (x.m < 0)) x.m.natAbs x.e

/-- Not NaN and not infinite. -/
def Fx.isFinite : Fx → Bool
  | .fin _ _ _ => true
  | _ => false

/-- Zero of either sign. -/
def Fx.isZero : Fx → Bool
  | .fin _ m _ => decide (m = 0)
  | _ => false

/-- NaN. -/
def Fx.isNan : Fx → Bool
  | .nan => true
  | _ => false

/-- +0. -/
def Fx.zero : Fx := .fin false 0 0

/-- Sign bit; false for NaN. -/
def Fx.neg? : Fx → Bool
  | .fin s _ _ => s
  | .inf s => s
  | .nan => false

/-- Sign change. -/
def Fx.negate : Fx → Fx
  | .fin s m e => .fin (!s) m e
  | .inf s => .inf (!s)
  | .nan => .nan

/-- Magnitude. -/
def Fx.abs : Fx → Fx
  | .fin _ m e => .fin false m e
  | .inf _ => .inf false
  | .nan => .nan

/-- Exact IEEE 754 sum (R115, R299): a zero sum of opposite numbers is +0, −0 + −0 is −0. -/
def Fx.add : Fx → Fx → Fx
  | .nan, _ => .nan
  | _, .nan => .nan
  | .inf a, .inf b => if a = b then .inf a else .nan
  | .inf a, _ => .inf a
  | _, .inf b => .inf b
  | .fin a m e, .fin b n f =>
    if m = 0 ∧ n = 0 then .fin (a && b) 0 0
    else
      let s := Dy.add (Fx.toDy (.fin a m e)) (Fx.toDy (.fin b n f))
      .fin (decide (s.m < 0)) s.m.natAbs s.e

/-- Exact IEEE 754 difference. -/
def Fx.sub (x y : Fx) : Fx := Fx.add x (Fx.negate y)

/-- Exact IEEE 754 product (R115). -/
def Fx.mul : Fx → Fx → Fx
  | .nan, _ => .nan
  | _, .nan => .nan
  | .inf a, .inf b => .inf (a != b)
  | .inf a, .fin b m _ => if m = 0 then .nan else .inf (a != b)
  | .fin a m _, .inf b => if m = 0 then .nan else .inf (a != b)
  | .fin a m e, .fin b n f => .fin (a != b) (m * n) (e + f)

/-- Guard bits kept by a quotient or a root past its leading bit. -/
def guardBits : Nat := 160

/-- Quotient, cut to more bits than any rounding looks at (log entry 9). -/
def Fx.div : Fx → Fx → Fx
  | .nan, _ => .nan
  | _, .nan => .nan
  | .inf _, .inf _ => .nan
  | .inf a, .fin b _ _ => .inf (a != b)
  | .fin a _ _, .inf b => .fin (a != b) 0 0
  | .fin a m e, .fin b n f =>
    if n = 0 then (if m = 0 then .nan else .inf (a != b))
    else if m = 0 then .fin (a != b) 0 0
    else
      let k := guardBits + Nat.log2 n
      .fin (a != b) ((m <<< k) / n) (e - f - k)

/-- Integer square root by bits, from bit `i` down. -/
def isqrtGo (n : Nat) : Nat → Nat → Nat
  | 0, r => r
  | i + 1, r =>
    let r' := r + 2 ^ i
    if r' * r' ≤ n then isqrtGo n i r' else isqrtGo n i r

/-- ⌊√n⌋. -/
def isqrt (n : Nat) : Nat := isqrtGo n (Nat.log2 n / 2 + 1) 0

/-- Square root, cut to more bits than any rounding looks at (log entry 9). -/
def Fx.sqrt : Fx → Fx
  | .nan => .nan
  | .inf false => .inf false
  | .inf true => .nan
  | .fin s m e =>
    if m = 0 then .fin s 0 0
    else if s then .nan
    else
      let k : Nat := 2 * guardBits + (if e % 2 = 0 then 0 else 1)
      .fin false (isqrt (m <<< k)) ((e - k) / 2)

/-- IEEE 754-2019 comparison of numbers that are not NaN: less than. -/
def Fx.lt : Fx → Fx → Bool
  | .nan, _ => false
  | _, .nan => false
  | .inf a, .inf b => a && !b
  | .inf a, .fin _ _ _ => a
  | .fin _ _ _, .inf b => !b
  | x, y => Dy.lt (Fx.toDy x) (Fx.toDy y)

/-- maximum of R299: a NaN gives a NaN, and −0 orders below +0. -/
def Fx.maximum (x y : Fx) : Fx :=
  if x.isNan || y.isNan then .nan
  else if Fx.lt x y then y
  else if Fx.lt y x then x
  else if x.neg? then y else x

/-- The rounding of R163 of a magnitude m × 2^e to precision `p` with least exponent `emin`: the count n of quanta and
the exponent of the quantum. `draw`: none for RNA, else the 16-bit draw of SR. -/
def roundMag (p : Nat) (emin : Int) (draw : Option Nat) (m : Nat) (e : Int) : Nat × Int :=
  if m = 0 then (0, emin - p + 1)
  else
    let ex : Int := max ((Nat.log2 m : Int) + e) emin
    let q : Int := ex - p + 1
    match draw with
    | none => ((shl m (e - q + 1) + 1) / 2, q)
    | some d => ((shl m (e - q + 16) + d) >>> 16, q)

/-- A floating-point element (R145): exponent bits, fraction bits, bias. -/
structure FltFmt where
  ebits : Nat
  fbits : Nat
  bias  : Nat
deriving DecidableEq, Repr

def f64 : FltFmt := ⟨11, 52, 1023⟩
def f32 : FltFmt := ⟨8, 23, 127⟩
def f16 : FltFmt := ⟨5, 10, 15⟩
def bf16 : FltFmt := ⟨8, 7, 127⟩

/-- Least exponent of a normal value (R145). -/
def FltFmt.emin (f : FltFmt) : Int := 1 - (f.bias : Int)
/-- Significand width with the hidden bit (R145). -/
def FltFmt.p (f : FltFmt) : Nat := f.fbits + 1
/-- Exponent of the largest binade of a format with infinities. -/
def FltFmt.emax (f : FltFmt) : Int := f.bias

/-- Decode an interchange format (R145, R147). -/
def FltFmt.decode (f : FltFmt) (v : Nat) : Fx :=
  let s := bit v (f.ebits + f.fbits)
  let ex := bits v (f.ebits + f.fbits - 1) f.fbits
  let fr := v % 2 ^ f.fbits
  if ex = 2 ^ f.ebits - 1 then (if fr = 0 then .inf s else .nan)
  else if ex = 0 then .fin s fr (f.emin - f.fbits)
  else .fin s (2 ^ f.fbits + fr) ((ex : Int) - f.bias - f.fbits)

/-- Canonical NaN (R115, R165). -/
def FltFmt.nanBits (f : FltFmt) : Nat := (2 ^ f.ebits - 1) * 2 ^ f.fbits + 2 ^ (f.fbits - 1)

/-- The bits of a value that the format holds exactly, NaN canonical. -/
def FltFmt.encode (f : FltFmt) : Fx → Nat
  | .nan => f.nanBits
  | .inf s => b2n s * 2 ^ (f.ebits + f.fbits) + (2 ^ f.ebits - 1) * 2 ^ f.fbits
  | .fin s m e =>
    let sg := b2n s * 2 ^ (f.ebits + f.fbits)
    if m = 0 then sg
    else
      let ex : Int := (Nat.log2 m : Int) + e
      if ex < f.emin then sg + shl m (e - (f.emin - f.fbits))
      else sg + (ex + f.bias).toNat * 2 ^ f.fbits + shl m (e - (ex - f.fbits)) % 2 ^ f.fbits

/-- One rounding into a format with infinities (R163, R164): subnormals kept, overflow to infinity, ±0 with the sign. -/
def FltFmt.round (f : FltFmt) (draw : Option Nat) : Fx → Fx
  | .nan => .nan
  | .inf s => .inf s
  | .fin s m e =>
    let (n, q) := roundMag f.p f.emin draw m e
    if n = 0 then .fin s 0 0
    else if f.emax < (Nat.log2 n : Int) + q then .inf s
    else .fin s n q

/-- rna_f32, rna_f64, rna_bf16. -/
def rna32 (x : Fx) : Fx := f32.round none x
def rna64 (x : Fx) : Fx := f64.round none x
def rnaB (x : Fx) : Fx := bf16.round none x

/-- F32 bits to a number and back. -/
def dec32 (v : BitVec 32) : Fx := f32.decode v.toNat
def enc32 (x : Fx) : BitVec 32 := BitVec.ofNat 32 (f32.encode x)
def dec64 (v : BitVec 64) : Fx := f64.decode v.toNat
def enc64 (x : Fx) : BitVec 64 := BitVec.ofNat 64 (f64.encode x)

/-- A natural number as an exact value. -/
def Fx.ofNat (n : Nat) : Fx := .fin false n 0

/-- An F32 rounded towards +infinity from a magnitude (R182): above the largest finite F32 it is +infinity. -/
def upF32 (x : Dy) : Fx :=
  if x.m = 0 then Fx.zero
  else
    let m := x.m.natAbs
    let ex : Int := max ((Nat.log2 m : Int) + x.e) f32.emin
    let q := ex - f32.p + 1
    let n := shl m (x.e - q)
    let n := if Dy.lt ⟨n, q⟩ ⟨m, x.e⟩ then n + 1 else n
    if f32.emax < (Nat.log2 n : Int) + q then .inf false else .fin false n q

/-- rna24 of R180: a 24-bit significand, RNA, exponent unbounded. -/
def rna24 (x : Dy) : Dy :=
  if x.m = 0 then Dy.zero
  else
    let m := x.m.natAbs
    let ex : Int := (Nat.log2 m : Int) + x.e
    let q := ex - 23
    Dy.norm ⟨((shl m (x.e - q + 1) + 1) / 2 : Nat), q⟩

/-- Round a value to `q` significant bits with ties away, exponent unbounded (R121). -/
def roundSig (q : Nat) (x : Dy) : Dy :=
  if x.m = 0 then Dy.zero
  else
    let m := x.m.natAbs
    let ex : Int := (Nat.log2 m : Int) + x.e
    let e := ex - q + 1
    let n : Int := ((shl m (x.e - e + 1) + 1) / 2 : Nat)
    Dy.norm ⟨if x.m < 0 then -n else n, e⟩

/-- The smallest integer e with a ≤ c × 2^e, for positive a and c (R153, R189). -/
def leastExp (a c : Dy) : Int :=
  let g : Int := (Nat.log2 a.m.natAbs : Int) + a.e - ((Nat.log2 c.m.natAbs : Int) + c.e)
  if Dy.lt (c.scale (g - 1)) a then (if Dy.lt (c.scale g) a then g + 1 else g) else g - 1

end Sys2Proof
end

