-- ==== Sys2Proof/Machine/Formats.lean ====
section
/-! DEFINITION. Element formats, scales and the conversion of elements (chapter 05), the draw generator (R167, R168)
and CRC-32C (R158). -/

namespace Sys2Proof.Machine

/-- Element encodings (R145, R146). -/
inductive Elt where
  | f64
  | f32
  | f16
  | bf16
  | e4m3
  | e5m2
  | e2m1
  | i8
  | i4
  | l4
deriving DecidableEq, Repr

/-- Geometries of R144. -/
inductive Geom where
  | unscaled
  | block
  | square
  | exposed
deriving DecidableEq, Repr

/-- The format codes of R144; every other code is reserved, and 0x00 is "none". -/
def fmtInfo : Nat → Option (Elt × Geom)
  | 0x01 => some (.f64, .unscaled)
  | 0x02 => some (.f32, .unscaled)
  | 0x03 => some (.f16, .unscaled)
  | 0x04 => some (.bf16, .unscaled)
  | 0x08 => some (.e4m3, .unscaled)
  | 0x09 => some (.e5m2, .unscaled)
  | 0x0A => some (.e2m1, .unscaled)
  | 0x0C => some (.i8, .unscaled)
  | 0x0D => some (.i4, .unscaled)
  | 0x0E => some (.l4, .square)
  | 0x10 => some (.e4m3, .block)
  | 0x11 => some (.e5m2, .block)
  | 0x12 => some (.e2m1, .block)
  | 0x13 => some (.e2m1, .square)
  | 0x14 => some (.e4m3, .square)
  | 0x15 => some (.e5m2, .square)
  | 0x16 => some (.e4m3, .exposed)
  | 0x17 => some (.e5m2, .exposed)
  | 0x18 => some (.i8, .block)
  | 0x19 => some (.i4, .block)
  | _ => none

/-- A code is defined (R144). -/
def fmtDefined (c : Nat) : Bool := (fmtInfo c).isSome
/-- Element of a format; F32 for a code that is not defined (never asked of one). -/
def fmtElt (c : Nat) : Elt := ((fmtInfo c).map Prod.fst).getD .f32
/-- Geometry of a format. -/
def fmtGeom (c : Nat) : Geom := ((fmtInfo c).map Prod.snd).getD .unscaled

/-- Bits of an element. -/
def eltBits : Elt → Nat
  | .f64 => 64
  | .f32 => 32
  | .f16 => 16
  | .bf16 => 16
  | .e4m3 => 8
  | .e5m2 => 8
  | .i8 => 8
  | .e2m1 => 4
  | .i4 => 4
  | .l4 => 4

/-- Bits of an element of a format. -/
def fmtBits (c : Nat) : Nat := eltBits (fmtElt c)

/-- FMAX of R145 and R146, for the elements that have one. -/
def eltFmax : Elt → Nat
  | .e4m3 => 448
  | .e5m2 => 57344
  | .e2m1 => 6
  | .i8 => 127
  | .i4 => 7
  | _ => 1

/-- Which scale bytes of a plate a format uses (R144). -/
def fmtScaleBytes (c : Nat) : Nat :=
  match fmtGeom c with
  | .unscaled => 0
  | .square => 1
  | _ => if fmtBits c = 4 then 8 else 4

/-- √2, cut after 160 bits: no rounding of the manual can tell it from √2 (log entry 9). -/
def sqrt2 : Fx := Fx.sqrt (Fx.ofNat 2)

/-- E4M3, E5M2 and E2M1 as layouts (R145). -/
def e4m3F : FltFmt := ⟨4, 3, 7⟩
def e5m2F : FltFmt := ⟨5, 2, 15⟩
def e2m1F : FltFmt := ⟨2, 1, 1⟩

/-- A small float without infinities: the exponent field is never special. -/
def decodeSmall (f : FltFmt) (v : Nat) : Fx :=
  let s := bit v (f.ebits + f.fbits)
  let ex := bits v (f.ebits + f.fbits - 1) f.fbits
  let fr := v % 2 ^ f.fbits
  if ex = 0 then .fin s fr (f.emin - f.fbits) else .fin s (2 ^ f.fbits + fr) ((ex : Int) - f.bias - f.fbits)

/-- Two's complement of a width. -/
def signedN (w v : Nat) : Int := if v < 2 ^ (w - 1) then (v : Int) else (v : Int) - 2 ^ w

/-- Decode an element to its own exact value, before the block's scale (R145–R147). -/
def decodeElt : Elt → Nat → Fx
  | .f64, v => f64.decode v
  | .f32, v => f32.decode v
  | .f16, v => f16.decode v
  | .bf16, v => bf16.decode v
  | .e4m3, v => if v % 128 = 127 then .nan else decodeSmall e4m3F v
  | .e5m2, v => e5m2F.decode v
  | .e2m1, v => decodeSmall e2m1F v
  | .i8, v => let n := signedN 8 v; .fin (decide (n < 0)) n.natAbs 0
  | .i4, v => let n := signedN 4 v; .fin (decide (n < 0)) n.natAbs 0
  | .l4, v =>
    let s := bit v 3
    let m := v % 8
    if m = 0 then .fin s 0 0
    else if m % 2 = 1 then .fin s 1 (((m : Int) - 7) / 2)
    else match Fx.mul sqrt2 (.fin s 1 (((m : Int) - 8) / 2)) with
      | x => x

/-- E2M1 to E4M3 of R148, sign copied to bit 7. -/
def widenE2M1 (v : Nat) : Nat :=
  let t := match v % 8 with
    | 0 => 0x00
    | 1 => 0x30
    | 2 => 0x38
    | 3 => 0x3C
    | 4 => 0x40
    | 5 => 0x44
    | 6 => 0x48
    | _ => 0x4C
  if bit v 3 then t + 128 else t

/-- I4 to I8 of R148, by sign extension. -/
def widenI4 (v : Nat) : Nat := if bit v 3 then v % 16 + 240 else v % 16

/-- What one element's conversion gives: its code, and how it is counted (R164, R165). -/
structure EltOut where
  code  : Nat
  overs : Bool
  under : Bool
  /-- a non-finite value written as zero, or a finite one stored as infinite (R165, R180) -/
  nonfin : Bool
deriving DecidableEq, Repr

/-- Round a finite value into a small float, saturating at FMAX (R163, R164). -/
def convSmall (f : FltFmt) (fmax : Nat) (draw : Option Nat) (s : Bool) (m : Nat) (e : Int) : EltOut :=
  let (n, q) := roundMag f.p f.emin draw m e
  let sg := b2n s * 2 ^ (f.ebits + f.fbits)
  if n = 0 then ⟨sg, false, decide (m ≠ 0), false⟩
  else if Dy.lt (Dy.ofNat fmax) ⟨n, q⟩ then ⟨f.encode (.fin s fmax 0), true, false, false⟩
  else ⟨f.encode (.fin s n q), false, false, false⟩

/-- Round a finite value into I8 or I4 (R163 with q = 1, R164). -/
def convInt (w fmax : Nat) (draw : Option Nat) (s : Bool) (m : Nat) (e : Int) : EltOut :=
  let n := match draw with
    | none => (shl m (e + 1) + 1) / 2
    | some d => (shl m (e + 16) + d) >>> 16
  if n = 0 then ⟨0, false, decide (m ≠ 0), false⟩
  else
    let k := min n fmax
    ⟨if s then 2 ^ w - k else k, decide (fmax < n), false, false⟩

/-- The largest code m from 1 to 7 with y⁴ ≥ 2^(2m − 15), 0 when there is none (R166). -/
def l4Code (y : Dy) : Nat :=
  let y4 := Dy.mul (Dy.mul y y) (Dy.mul y y)
  let ok (m : Nat) : Bool := !Dy.lt y4 ⟨1, 2 * (m : Int) - 15⟩
  if ok 7 then 7 else if ok 6 then 6 else if ok 5 then 5 else if ok 4 then 4
  else if ok 3 then 3 else if ok 2 then 2 else if ok 1 then 1 else 0

/-- Round a finite value into L4 (R164, R166); it has no stochastic form. -/
def convL4 (s : Bool) (m : Nat) (e : Int) : EltOut :=
  let y : Dy := Dy.norm ⟨m, e⟩
  let c := if m = 0 then 0 else l4Code y
  let y4 := Dy.mul (Dy.mul y y) (Dy.mul y y)
  ⟨b2n s * 8 + c, !Dy.lt y4 ⟨1, 1⟩, decide (m ≠ 0 ∧ c = 0), false⟩

/-- Round one exact value, already divided by its scale, into a target element (R163–R166). -/
def convElt (t : Elt) (draw : Option Nat) (x : Fx) : EltOut :=
  match x with
  | .fin s m e =>
    match t with
    | .f64 => let r := f64.round draw x; ⟨f64.encode r, false, false, !r.isFinite⟩
    | .f32 => let r := f32.round draw x; ⟨f32.encode r, false, false, !r.isFinite⟩
    | .f16 => let r := f16.round draw x; ⟨f16.encode r, false, false, !r.isFinite⟩
    | .bf16 => let r := bf16.round draw x; ⟨bf16.encode r, false, false, !r.isFinite⟩
    | .e4m3 => convSmall e4m3F 448 draw s m e
    | .e5m2 => convSmall e5m2F 57344 draw s m e
    | .e2m1 => convSmall e2m1F 6 draw s m e
    | .i8 => convInt 8 127 draw s m e
    | .i4 => convInt 4 7 draw s m e
    | .l4 => convL4 s m e
  | .inf s =>
    match t with
    | .f64 => ⟨f64.encode x, false, false, true⟩
    | .f32 => ⟨f32.encode x, false, false, true⟩
    | .f16 => ⟨f16.encode x, false, false, true⟩
    | .bf16 => ⟨bf16.encode x, false, false, true⟩
    | .e4m3 => ⟨0x7F, false, false, true⟩
    | .e5m2 => ⟨if s then 0xFC else 0x7C, false, false, true⟩
    | _ => ⟨0, false, false, true⟩
  | .nan =>
    match t with
    | .f64 => ⟨f64.nanBits, false, false, true⟩
    | .f32 => ⟨f32.nanBits, false, false, true⟩
    | .f16 => ⟨f16.nanBits, false, false, true⟩
    | .bf16 => ⟨bf16.nanBits, false, false, true⟩
    | .e4m3 => ⟨0x7F, false, false, true⟩
    | .e5m2 => ⟨0x7F, false, false, true⟩
    | _ => ⟨0, false, false, true⟩

/-- A non-finite value written as zero (R165): counted in object 0x3000.07. -/
def zeroedNonfinite (t : Elt) (x : Fx) : Bool :=
  !x.isFinite && (match t with
    | .e2m1 => true
    | .i8 => true
    | .i4 => true
    | _ => false)

/-! ### Draws -/

/-- k1 of R167: module ID, context number and ordinal. -/
def keyWord1 (moduleId ctx ordinal : Nat) : Nat :=
  (moduleId % 4096) * 2 ^ 52 + (ctx % 2 ^ 18) * 2 ^ 34 + (ordinal % 16) * 2 ^ 30

/-- One of the six rounds of R168. -/
def drawRound (k1 k2 : Nat) (h i : Nat) : Nat :=
  let w := 0x9E6F1B35C27A8D41
  let h := (h + (k1 ^^^ (i * w) % 2 ^ 64)) % 2 ^ 64
  let h := h ^^^ (h >>> 31)
  let h := (h * 0xA3C59AC27D1E4F8B) % 2 ^ 64
  let h := (h + k2 * w) % 2 ^ 64
  h ^^^ (h >>> 29)

/-- block(b) of R168. -/
def drawBlock (k0 k1 k2 b : Nat) : Nat :=
  [0, 1, 2, 3, 4, 5].foldl (drawRound k1 k2) ((b ^^^ k0) % 2 ^ 64)

/-- The key of R167. -/
structure DrawKey where
  k0 : Nat
  k1 : Nat
  k2 : Nat
deriving DecidableEq, Repr

/-- Draw number c of R168. -/
def drawNo (k : DrawKey) (c : Nat) : Nat :=
  let h := drawBlock k.k0 k.k1 k.k2 (c >>> 2)
  (h >>> (16 * (c % 4))) % 65536

/-! ### CRC-32C -/

/-- One bit of the reflected CRC-32C (R158). -/
def crcBit (c : Nat) : Nat := if c % 2 = 1 then (c >>> 1) ^^^ 0x82F63B78 else c >>> 1

/-- One byte. -/
def crcByte (c : Nat) (b : Byte) : Nat :=
  crcBit (crcBit (crcBit (crcBit (crcBit (crcBit (crcBit (crcBit (c ^^^ b.toNat))))))))

/-- CRC-32C of a byte string (R158). -/
def crc32c (bs : Bytes) : Nat := (bs.foldl crcByte 0xFFFFFFFF) ^^^ 0xFFFFFFFF

/-! ### Log mode tables (R216) -/

/-- LOGT(i). -/
def logT (i : Nat) : Nat :=
  ([0, 3, 5, 8, 10, 13, 15, 17, 19, 21, 22, 24, 26, 27, 29, 31]).getD i 0

/-- The reached entries of FRAC (R216). -/
def fracReached : Nat → Option Nat
  | 0 => some 0x00
  | 3 => some 0x10
  | 5 => some 0x20
  | 6 => some 0x26
  | 10 => some 0x3E
  | 13 => some 0x53
  | 15 => some 0x60
  | 16 => some 0x6A
  | 19 => some 0x80
  | 21 => some 0x97
  | 22 => some 0xA0
  | 26 => some 0xC2
  | 29 => some 0xE0
  | 31 => some 0xF2
  | _ => none

/-- Thirty-second root of 2^(j) by five square roots, cut after 160 bits. -/
def root32 (j : Nat) : Fx :=
  Fx.sqrt (Fx.sqrt (Fx.sqrt (Fx.sqrt (Fx.sqrt (.fin false 1 j)))))

/-- FRAC(j): the table's entry where it gives one, else 256 × (2^(j/32) − 1) rounded to nearest (R216). -/
def frac (j : Nat) : Nat :=
  match fracReached j with
  | some v => v
  | none =>
    match Fx.sub (Fx.mul (root32 j) (Fx.ofNat 256)) (Fx.ofNat 256) with
    | .fin _ m e => (shl m (e + 1) + 1) / 2
    | _ => 0

/-- The bytes of object 0x3800.02 (R225). -/
def logTables : Bytes :=
  ((List.range 16).map fun i => BitVec.ofNat 8 (logT i)) ++ ((List.range 32).map fun j => BitVec.ofNat 8 (frac j))

end Sys2Proof.Machine
end

