-- ==== Sys2Proof/Config.lean ====
section
/-! DEFINITION. Config: the values that the spec leaves open. Every constant here is opaque: nothing in Lean can
evaluate it or prove a value of it, so every theorem holds for every value (notes/assumptions/ names each). -/

namespace Sys2Proof.Config

/-- exp of R128 on a finite F32: the bits of Dziso's test vectors, which the spec does not print. -/
opaque expBits : BitVec 32 → BitVec 32
/-- sigmoid of R128 on a finite F32. -/
opaque sigmoidBits : BitVec 32 → BitVec 32
/-- recip of R128: used where it lies within 1 ulp of the exact value, else the nearest value is (R128). -/
opaque recipBits : BitVec 32 → BitVec 32
/-- rsqrt of R128: used where it lies within 1 ulp of the exact value. -/
opaque rsqrtBits : BitVec 32 → BitVec 32
/-- cos(pi * x), exp2 and log2 of R313 on F64 bits, within 1 ulp: the spec prints no bits. -/
opaque cosPiBits : BitVec 64 → BitVec 64
opaque exp2Bits : BitVec 64 → BitVec 64
opaque log2Bits : BitVec 64 → BitVec 64

/-- SHA-512, named by R25, R425 and R428 and not defined in the spec. -/
opaque sha512 : Bytes → Bytes
/-- RSASSA-PSS verification: public key, message, signature (R425, R432). -/
opaque rsaVerify : Bytes → Bytes → Bytes → Bool
/-- RSASSA-PSS signature under the wrapped identity key: key, message (R430, R369). -/
opaque rsaSign : Bytes → Bytes → Bytes
/-- Dziso's return key (R422), a public key. -/
opaque returnKey : Bytes
/-- What a policy image of the installation's own decides (R209): image VERSION, step, layer and direction; HIGH, QUIET
and the rung. -/
opaque policyMove : BitVec 32 → Nat → Nat → Nat × Nat × Nat
/-- RSAES-OAEP encryption: public key, plain text (R432). -/
opaque oaep : Bytes → Bytes → Bytes
/-- The first 24 bytes of HMAC-SHA-512: key, message (R433). -/
opaque hmac24 : Bytes → Bytes → Bytes
/-- The hardware random source (R424, R432): the n-th draw of 64 bytes. -/
opaque random64 : Nat → Bytes
/-- The RSA-4096 key pair the pithead generates from its random source (R424): public then wrapped private. -/
opaque keyPair : Nat → Bytes × Bytes
/-- REQUEST_ID, INDEX and SUBINDEX of a PUBLISH, which R50 does not give: by tick. -/
opaque publishFields : Nat → BitVec 16 × BitVec 16 × BitVec 8
/-- What a counter of the dictionary holds past the end of its width, which the manual does not say: object key, exact
count. -/
opaque counterPast : Nat → Nat → Nat
/-- Cycles that a unit spent, which the model does not time: what is counted (an event of R440 or an object key), and a
serial number. -/
opaque cycles : Nat → Nat → Nat
/-- FORMAT of the plates that carry a checkpoint slot's header, its group table and its module section (R327: 0, 1, 2),
and the SEQ of the plates of a contact sheet in host memory (R335: by plate), which the manual does not say. -/
opaque sectionFormat : Nat → Nat
opaque hostSeq : Nat → Nat
/-- A bounded quantity the firmware fixes: VECTOR_SUBSET (R177: 1 or more) and CANARY_PASS_CC (R339). -/
opaque vectorSubset : Nat → Nat
opaque canaryPassCc : Nat → Nat
/-- The fused power curve of a die: P_S and P_D of step i as F32 bits (R388). -/
opaque powerCurve : Nat → Nat → BitVec 32 × BitVec 32
/-- The root's release of a tick-aligned round, come in the last 15 µs of a tick, stands for a round complete 15 µs before
that tick's end (R93): tick, muster. The message carries no time. -/
opaque releasedInTime : Nat → Nat → Bool
/-- Units of a command (passes, bands or row steps) that have finished by a stop, which no row shows (R246): tick, queue, slot
index. It is held to what the stop allows. -/
opaque unitsMade : Nat → Nat → Nat → Nat
/-- The level of the 1 Hz square wave on SB8 (R461), whose phase the manual does not give: by tick. -/
opaque locateWave : Nat → Bool
/-- The ICMPv6 and DOE/SPDM answer bytes that the standards, not the spec, lay out (R49, R369): which answer,
and the request's bytes. -/
opaque protocolAnswer : Nat → Bytes → Bytes

/-- TICK_OFFSET of a marked codeword (R361): the tick, the logical lane of the module. -/
opaque markOffset : Nat → Nat → BitVec 6

/-- A safelight record finds its source's queue full (R447): the die of its buffer, the records written, the records dropped. -/
opaque laneFull : Nat → Nat → Nat → Bool

/-- Address and data bytes of the MSI-X table, which the host writes and no row of the table carries (R367): offset. -/
opaque msixByte : Nat → Byte

/-- A plate of a stope that began undefined, with its margin and nugget slot (R324): the stope's serial number, its line. -/
opaque strayPlate : Nat → Nat → Bytes

/-- What a sealed bank holds (R279), which the manual does not lay out: the die's place, the byte's offset. -/
opaque sealedByte : Nat → Nat → Byte

end Sys2Proof.Config
end

