-- ==== Sys2Proof/Machine/Objects.lean ====
section
/-! DEFINITION. The object dictionary (R40–R42, R67): every object the manual defines, with its type, access kind,
default, range and reserved bits, transcribed from the object tables of the chapters; the keys under which objects
are kept; and the default bytes of the stored DOMAIN tables. -/

namespace Sys2Proof.Machine

/-- Object types (R41). -/
inductive Ty where
  | bool
  | u8
  | u16
  | u32
  | u64
  | i8
  | i16
  | i32
  | i64
  | f32
  | f64
  | vstr
  | domain
deriving DecidableEq, Repr

/-- Type code (R41). -/
def tyCode : Ty → Nat
  | .bool => 0x01
  | .u8 => 0x02
  | .u16 => 0x03
  | .u32 => 0x04
  | .u64 => 0x05
  | .i8 => 0x06
  | .i16 => 0x07
  | .i32 => 0x08
  | .i64 => 0x09
  | .f32 => 0x0A
  | .f64 => 0x0B
  | .vstr => 0x0C
  | .domain => 0x0D

/-- Size in bytes of a fixed-size type; 0 for VSTR and DOMAIN (R41). -/
def tyBytes : Ty → Nat
  | .bool => 1
  | .u8 => 1
  | .u16 => 2
  | .u32 => 4
  | .u64 => 8
  | .i8 => 1
  | .i16 => 2
  | .i32 => 4
  | .i64 => 8
  | .f32 => 4
  | .f64 => 8
  | .vstr => 0
  | .domain => 0

/-- Access kinds (R42). -/
inductive Acc where
  | ro
  | wo
  | rw
  | rwt
  | rwl
deriving DecidableEq, Repr

/-- Access code (R42). -/
def accCode : Acc → Nat
  | .ro => 0
  | .wo => 1
  | .rw => 2
  | .rwt => 3
  | .rwl => 4

/-- An object: default, minimum, maximum, whether a value outside them is a reserved code (check 3 of R43) and not
a bound passed (check 4), its reserved bits, and for a DOMAIN its size in bytes (0: it varies). -/
structure Obj where
  sub  : Nat
  ty   : Ty
  acc  : Acc
  dflt : Nat
  lo   : Nat
  hi   : Nat
  enum : Bool
  resv : Nat
  size : Nat
deriving DecidableEq, Repr

/-- Least and greatest value of a type, as raw bits. -/
def tyLo : Ty → Nat
  | .f32 => 0xFF7FFFFF
  | .f64 => 0xFFEFFFFFFFFFFFFF
  | _ => 0
/-- Greatest value of a type. -/
def tyHi : Ty → Nat
  | .bool => 1
  | .f32 => 0x7F7FFFFF
  | .f64 => 0x7FEFFFFFFFFFFFFF
  | t => 256 ^ tyBytes t - 1

/-- An object over the whole range of its type. -/
def Obj.w (sub : Nat) (ty : Ty) (acc : Acc) (dflt : Nat) (resv : Nat := 0) : Obj :=
  ⟨sub, ty, acc, dflt, tyLo ty, tyHi ty, decide (ty = .bool), resv, 0⟩
/-- A read-only object. DESIGN CHOICE (log 176): its minimum and maximum are those of its type. -/
def Obj.ro (sub : Nat) (ty : Ty) (dflt : Nat) (resv : Nat := 0) : Obj := Obj.w sub ty .ro dflt resv
/-- An object with bounds. -/
def Obj.range (sub : Nat) (ty : Ty) (acc : Acc) (dflt lo hi : Nat) (resv : Nat := 0) : Obj :=
  ⟨sub, ty, acc, dflt, lo, hi, false, resv, 0⟩
/-- An object that holds an enumerated code. -/
def Obj.code (sub : Nat) (ty : Ty) (acc : Acc) (dflt lo hi : Nat) (resv : Nat := 0) : Obj :=
  ⟨sub, ty, acc, dflt, lo, hi, true, resv, 0⟩
/-- A DOMAIN of a size (0: it varies). -/
def Obj.dom (sub : Nat) (acc : Acc) (size : Nat) : Obj := ⟨sub, .domain, acc, 0, 0, 0, false, 0, size⟩
/-- A read-only VSTR. -/
def Obj.vstr (sub : Nat) : Obj := ⟨sub, .vstr, .ro, 0, 0, 0, false, 0, 0⟩

/-- The fused array clock cap in MHz (R3, R4). -/
def capMhz (v : Fuse) : Nat := v.variant * 100
/-- The fused module input cap in W (R3, R4). -/
def capW (v : Fuse) : Nat := if v.variant = 40 then 27000 else if v.variant = 36 then 23000 else 19000

/-- The key of an object. -/
def okey (index sub : Nat) : Nat := index * 256 + sub

/-- The default thresholds of R208, UP, DOWN and BRACKET by rung, as F32 bits. -/
def thresholdDefaults : List Nat :=
  [0x3cf5c28f, 0x3cc49ba6, 0x3b1d4952, 0x37a7c5ac, 0x3f800000, 0x3c449ba6, 0x3c23d70a, 0x3a83126f, 0x370637bd, 0x2edbe6ff, 0x3df5c28f, 0x3dc49ba6, 0x3c1d4952, 0x38a7c5ac, 0x3f800000]

/-- The objects of queue q, at index i = 0x4080 + q (R77). -/
def queueObjs (i : Nat) : List Obj := [
    .w 0x01 .u64 .rw 0 0xfff0000000000000, -- RING_BASE
    .range 0x02 .u8 .rw 10 6 16, -- ENTRIES_LOG2
    .w 0x03 .u16 .rw 8192 0xff, -- TARGET
    .w 0x04 .u64 .rw 0 0xfff0000000000000, -- COMPLETION_BASE
    .range 0x05 .u16 .rw (3 + (i - 0x4080)) 3 511, -- MSIX_VECTOR
    .code 0x06 .u8 .rw 0 0 2, -- STATE
    .w 0x07 .u32 .rw 0, -- TAIL
    .ro 0x08 .u32 0, -- HEAD
    .ro 0x09 .u32 0] -- REFUSED_SLOT

/-- The objects of an index that is not per die and not a queue's (R67). -/
def moduleObjs (v : Fuse) : Nat → List Obj
  | 0x1000 => [
    .ro 0x01 .u32 0xd250, -- VENDOR_ID
    .vstr 0x02, -- PART_NUMBER
    .vstr 0x03, -- SERIAL
    .ro 0x04 .u64 v.eui48.toNat, -- EUI48
    .ro 0x05 .u16 256] -- DICT_VERSION
  | 0x1010 => [
    .ro 0x01 .u8 v.variant, -- VARIANT_CODE
    .ro 0x02 .u16 (capMhz v), -- ARRAY_CLOCK_CAP_MHZ
    .ro 0x03 .u32 (capW v)] -- INPUT_CAP_W
  | 0x1100 => [
    .ro 0x01 .u8 0, -- PLCA_NODE_ID
    .w 0x02 .bool .rw 1, -- PLCA_ENABLE
    .ro 0x04 .u32 0, -- DROPPED
    .ro 0x05 .u32 0, -- DUPLICATES
    .ro 0x06 .u32 0, -- SILENCE_MS
    .ro 0x07 .u32 0] -- PUBLISH_LOST
  | 0x1110 => [
    .ro 0x01 .u32 0, -- EVENT_SEQUENCE
    .dom 0x02 .ro 0, -- EVENT_RING
    .ro 0x03 .u32 0] -- EVENT_LOST
  | 0x1200 => [
    .ro 0x01 .u8 2, -- BOOT_CODE
    .ro 0x02 .u32 0, -- STOP_DETAIL
    .dom 0x03 .ro 40, -- STEP_MS
    .ro 0x04 .u32 0, -- READY_MS
    .ro 0x05 .u16 0 0xf000, -- STRAPS
    .ro 0x06 .u8 0 0xfc, -- IMAGE_USED
    .ro 0x07 .u8 0 0xf0, -- IMAGE_REJECTS
    .ro 0x08 .u16 0 0xffe0, -- BOOT_FLAGS
    .ro 0x09 .u32 0, -- POWER_ON_COUNT
    .w 0x0A .bool .wo 0] -- BOOT_RESTART
  | 0x1300 => [
    .ro 0x01 .u16 0 0xf000, -- SIDEBAND_LEVELS
    .w 0x02 .bool .rw 0, -- LOCATE
    .ro 0x03 .u8 0] -- SIDEBAND_PHASE
  | 0x2000 => [
    .range 0x01 .u32 .rwt (capW v) 10000 (capW v), -- RACK_CAP_W
    .range 0x02 .u32 .rwt 12000 10000 (capW v), -- SAFE_CAP_W
    .range 0x03 .u32 .rw 5000 0 600000, -- SILENCE_TIMEOUT_MS
    .ro 0x04 .u32 0, -- EFFECTIVE_CAP_W
    .ro 0x05 .u8 0 0xf0, -- CAP_STATE
    .ro 0x06 .f32 0, -- INPUT_POWER_W
    .ro 0x07 .f32 0, -- INPUT_VOLTAGE_V
    .ro 0x08 .u32 0, -- CAP_EXCEEDED_TICKS
    .ro 0x09 .f32 v.eta.toNat] -- CONVERSION
  | 0x2010 => [
    .range 0x01 .u16 .rwt 625 156 2500, -- SLOPE
    .w 0x02 .bool .rwt 1, -- STAGGER
    .w 0x03 .bool .wo 0, -- ESTOP_RESTART
    .ro 0x04 .u8 0, -- ESTOP_CAUSE
    .w 0x05 .bool .wo 0, -- ESTOP_REQUEST
    .range 0x06 .u16 .rwt (capMhz v) 800 (capMhz v)] -- CLOCK_MAX_MHZ
  | 0x2020 => [
    .range 0x01 .u8 .rw 20 5 50, -- DISTRUST_PCT
    .range 0x02 .u8 .rw 8 2 64, -- DISTRUST_TICKS
    .range 0x03 .u8 .rw 10 5 30, -- MEAS_MARGIN_PCT
    .range 0x04 .u16 .rw 1000 1 4095] -- LEARN_TICKS
  | 0x2030 => [
    .ro 0x01 .f32 0, -- COOLANT_INLET_C
    .ro 0x02 .f32 0] -- COOLANT_OUTLET_C
  | 0x3000 => [
    .w 0x01 .u64 .rwl 0, -- MODULE_SEED
    .ro 0x02 .u64 0, -- PLATE_CRC_FAULTS
    .ro 0x03 .u64 0, -- PLATE_TAG_FAULTS
    .ro 0x04 .u64 0, -- DRAWS
    .ro 0x05 .u32 0, -- DRAWS_EXHAUSTED
    .ro 0x06 .u64 0, -- SCALE_CLAMPS
    .ro 0x07 .u64 0, -- NONFINITE_ZEROED
    .ro 0x08 .u32 ((Config.vectorSubset 0 % 4294967295 + 1))] -- VECTOR_SUBSET
  | 0x3100 => [
    .range 0x01 .u16 .rwl 4096 0 4096, -- STEP_MUSTER
    .w 0x02 .u32 .rwl 0, -- STEP_FIRST
    .range 0x03 .u8 .rwl 4 1 15, -- MAX_REPLAYS
    .ro 0x04 .u32 0, -- CURRENT_STEP
    .ro 0x05 .u8 0, -- CURRENT_ORDINAL
    .ro 0x06 .u8 0, -- EPOCH
    .ro 0x07 .u8 0, -- LAST_VERDICT
    .ro 0x08 .u32 0, -- LAST_VERDICT_STEP
    .ro 0x09 .u32 0, -- LAST_CAUSES
    .ro 0x0A .u64 0, -- REPLAYS
    .ro 0x0B .u32 0, -- ABANDONED
    .ro 0x0C .u32 0, -- LATE_STATS
    .w 0x0D .bool .wo 0] -- INJECT_REPLAY
  | 0x3110 => [
    .range 0x01 .f32 .rwt 0x3a800000 0 0x3f800000, -- SAT_THRESHOLD
    .range 0x02 .f32 .rwt 0x3e800000 0 0x3f800000] -- UNDER_THRESHOLD
  | 0x3120 => [
    .dom 0x01 .rwl 32768, -- SLOT_TABLE
    .dom 0x02 .ro 262144, -- EXPOSURE_RECORDS
    .dom 0x03 .ro 163840, -- SLOT_ROUND
    .ro 0x04 .u64 0] -- CODE_CHANGES
  | 0x3130 => [
    .ro 0x01 .u64 0, -- NUGGETS_TOTAL
    .ro 0x02 .u64 0] -- NUGGET_OVERFLOWS
  | 0x3140 => [
    .dom 0x01 .ro 2097152, -- LAYER_STATS
    .ro 0x02 .u16 0] -- LAYER_STATS_ROUND
  | 0x3150 => [
    .dom 0x01 .rwl 131072, -- STEERING_TABLE
    .ro 0x02 .u64 0, -- BRACKETS
    .ro 0x03 .u64 0, -- ESCALATIONS
    .ro 0x04 .u64 0, -- RUNG_MISMATCH
    .w 0x05 .u64 .wo 0 0xfffff00000000000, -- HELD_STEP_WRITE
    .ro 0x06 .u64 0] -- RUNG_CHANGES
  | 0x3800 => [
    .ro 0x01 .u16 1, -- LOG_TABLE_VERSION
    .dom 0x02 .ro 48, -- LOG_TABLES
    .ro 0x03 .u64 0, -- LOG_COMMANDS
    .ro 0x04 .u64 0, -- LOG_GROUPS
    .ro 0x05 .u64 0] -- LOG_BANK_STALL_CC
  | 0x3900 => [
    .ro 0x01 .u64 0, -- STOP_BATHS
    .ro 0x02 .u64 0, -- STOP_BATH_CC
    .ro 0x03 .u64 0, -- PASSES_SKIPPED
    .ro 0x04 .u64 0, -- INVALID_USES
    .ro 0x05 .u32 0, -- PARITY_FAULTS
    .ro 0x06 .u64 0, -- GATHER_BATCHES
    .ro 0x07 .u64 0, -- GATHER_BY_DEADLINE
    .ro 0x08 .u64 0] -- NUGGET_STALL_CC
  | 0x4000 => [
    .ro 0x01 .u8 128, -- QUEUES
    .ro 0x02 .u64 0, -- OVERRUN_TOTAL
    .range 0x03 .u16 .rw 8 1 1000, -- OVERRUN_EVENT_TICKS
    .ro 0x04 .u64 0] -- ADMISSION_WAITS
  | 0x4010 => [
    .dom 0x01 .rw 32768, -- MUSTER_TABLE
    .dom 0x02 .ro 8192, -- MUSTER_ROUNDS
    .range 0x03 .u16 .rw 100 2 65535] -- MUSTER_TIMEOUT_TICKS
  | 0x4100 => [
    .w 0x01 .u16 .rwl 2116 0xf000, -- SHARES
    .range 0x02 .u16 .rw 100 20 10000, -- REMOTE_TIMEOUT_US
    .range 0x03 .u16 .rw 1000 1 65535] -- HALT_STALE_TICKS
  | 0x4110 => [
    .w 0x01 .u32 .wo 0 0xfffc0000] -- RESUME
  | 0x4120 => [
    .dom 0x01 .ro 2097152] -- CONTEXT_STATUS
  | 0x4130 => [
    .ro 0x01 .u64 0, -- HALTS
    .ro 0x02 .u32 0, -- DEADLOCKS
    .ro 0x03 .u64 0, -- REARMS_SHADOWED
    .ro 0x04 .u64 0, -- TAG_WAIT_FC
    .ro 0x05 .u64 0, -- SLOTS_LENT
    .ro 0x06 .u32 0] -- REMOTE_TIMEOUTS
  | 0x4400 => [
    .ro 0x01 .u32 15360, -- HBM_FRAMES
    .ro 0x02 .u32 212992, -- LPDDR_FRAMES
    .ro 0x03 .u32 0] -- FREE_FRAMES_HBM
  | 0x4410 => [
    .dom 0x01 .rwt 0, -- MAP_BATCH
    .w 0x02 .u64 .rw 0 0xfff0000000000000, -- LOOKUP_ADDR
    .ro 0x03 .u64 0, -- LOOKUP_ENTRY
    .w 0x04 .u64 .rwl 0, -- HOST_POOL_BASE
    .range 0x05 .u32 .rwl 0 0 0xffffff, -- HOST_POOL_SLOTS
    .ro 0x06 .u64 0] -- PAGE_INS
  | 0x4420 => [
    .w 0x01 .u64 .rwt 0 0xfff0000000000000] -- APERTURE_BASE
  | 0x4430 => [
    .ro 0x01 .u64 0, -- HBM_CORRECTED
    .ro 0x02 .u32 0, -- HBM_UNCORRECTABLE
    .ro 0x03 .u64 0, -- LPDDR_CORRECTED
    .ro 0x04 .u32 0, -- LPDDR_UNCORRECTABLE
    .ro 0x05 .u32 0, -- FRAMES_RETIRED
    .ro 0x06 .u32 0] -- SCRUB_PASSES
  | 0x4440 => [
    .w 0x01 .bool .rwt 1, -- RETENTION_ENABLE
    .ro 0x02 .u64 0] -- BGTEST_REGIONS
  | 0x5000 => [
    .code 0x01 .u8 .rwt 0 0 2, -- TICK_SOURCE
    .range 0x02 .u16 .rwt 1000 100 10000, -- TICK_PERIOD_US
    .range 0x03 .u8 .rwt 0 0 63, -- MARKER_PORT
    .range 0x04 .u8 .rwt 0 0 7, -- MARKER_LANE
    .w 0x05 .bool .rwt 0, -- SB0_DRIVE
    .ro 0x06 .u64 0, -- TICK_COUNT
    .ro 0x07 .u8 0, -- TICK_STATE
    .ro 0x08 .u32 0, -- MISSED_EDGES
    .ro 0x09 .u32 0] -- STRAY_EDGES
  | 0x5100 => [
    .range 0x01 .u16 .rwl 0 0 4095 0xf000, -- MODULE_ID
    .range 0x02 .u16 .rw 0 0 10000] -- MARKER_DELAY_NS
  | 0x5110 => [
    .dom 0x01 .rwt 32768, -- ROUTES
    .dom 0x02 .ro 512] -- ROUTE_USABLE
  | 0x5120 => [
    .range 0x01 .u16 .rw 2 1 20, -- PLATE_GAP_US
    .range 0x02 .u16 .rw 50 20 1000, -- SILENCE_US
    .range 0x03 .u16 .rw 4 1 100, -- REPLAY_TIMEOUT_US
    .range 0x04 .f32 .rw 0x3727c5ac 0x3089705f 0x38d1b717, -- MARGIN_LIMIT
    .ro 0x05 .u64 0, -- STALE_DISCARDS
    .ro 0x06 .u64 0] -- BAD_SLOTS
  | 0x5130 => [
    .range 0x01 .u8 .wo 0 0 63, -- REQUALIFY
    .w 0x02 .u16 .wo 0 0xfe00] -- LANE_SWAP
  | 0x5140 => [
    .ro 0x01 .u32 v.pciIds.toNat, -- PCI_IDS
    .ro 0x02 .u16 0 0xe0e, -- HOST_LINK
    .ro 0x03 .u32 0, -- HOST_LINK_DOWNS
    .ro 0x04 .u32 0] -- DOORBELLS_REFUSED
  | 0x5800 => [
    .w 0x01 .u8 .rw 255, -- REF_PORT
    .range 0x02 .u8 .rw 0 0 7, -- REF_LANE
    .code 0x03 .u8 .rw 0 0 1, -- CLOCK_SELECT
    .range 0x04 .u8 .rwt 0 0 20, -- SSC_DEPTH
    .range 0x05 .u8 .rwt 33 25 120] -- SSC_RATE_KHZ
  | 0x5810 => [
    .ro 0x01 .u8 0, -- CLOCK_STATE
    .ro 0x02 .f32 0, -- REF_OFFSET_PPM
    .ro 0x03 .u32 0, -- FALLBACKS
    .ro 0x04 .u64 0] -- SWITCH_CC_LOST
  | 0x5820 => [
    .dom 0x01 .ro 2048] -- FREQ_COUNTS
  | 0x6000 => [
    .w 0x01 .bool .rwt 0, -- STRICT_FROZEN
    .w 0x02 .u32 .wo 0 0xfffe0000] -- FREEZE
  | 0x6010 => [
    .dom 0x01 .rwl 4096] -- PARAM_SETS
  | 0x6020 => [
    .dom 0x01 .rwl 1024, -- SCHEDULES
    .w 0x02 .u32 .rw 0, -- PROBE_STEP
    .dom 0x03 .ro 64] -- PROBE_RATES
  | 0x6040 => [
    .dom 0x01 .ro 32768, -- RATIOS
    .dom 0x02 .rwt 16384] -- RATIO_LIMITS
  | 0x6050 => [
    .ro 0x01 .u64 0, -- APPLIED
    .ro 0x02 .u64 0, -- SKIPPED
    .ro 0x03 .u64 0, -- FROZEN_TOUCHES
    .ro 0x04 .u32 0, -- SKEWS
    .ro 0x05 .u64 0, -- FIXER_DRAWS
    .ro 0x06 .u64 0, -- ROWS_COMMITTED
    .ro 0x07 .u64 0] -- COPIES_REFORMED
  | 0x6C00 => [
    .dom 0x01 .rwl 512, -- CKPT_SLOTS
    .range 0x02 .u16 .rwt 400 25 1600, -- CKPT_RATE_GBPS
    .range 0x03 .u16 .rw 50 10 10000] -- CKPT_TIMEOUT_MS
  | 0x6C10 => [
    .dom 0x01 .ro 256, -- CKPT_STATUS
    .ro 0x02 .u64 0, -- CKPTS_COMPLETE
    .ro 0x03 .u32 0] -- CKPTS_FAILED
  | 0x6C20 => [
    .ro 0x01 .u64 0, -- SHEETS
    .ro 0x02 .u32 0] -- SHEET_LAST_STEP
  | 0x7001 => [
    .ro 0x01 .u32 0, -- SHAPE_GENERATION
    .ro 0x02 .u16 0, -- LOGICAL_SHAFTS_TOTAL
    .ro 0x03 .u32 0, -- TRIFY_PRESENT
    .ro 0x04 .u16 0, -- DRIFT_PRESENT
    .ro 0x05 .u16 0, -- FIXER_PRESENT
    .ro 0x06 .u32 0, -- SHORT_DIES
    .ro 0x07 .u32 0] -- DOUBLED_DIES
  | 0x7002 => [
    .code 0x01 .u8 .rwt 0 0 1, -- JOB_STATE
    .w 0x02 .u32 .rwt 0] -- JOB_ID
  | 0x7003 => [
    .ro 0x01 .u32 0, -- LIST_GENERATION
    .ro 0x02 .u16 0, -- LIST_ENTRIES
    .ro 0x03 .u16 0, -- LIST_STEPS_LEFT
    .dom 0x04 .ro 0, -- LIST_CONTENT
    .ro 0x05 .u16 0] -- CONTRADICTIONS
  | 0x7100 => [
    .ro 0x01 .u32 (Config.canaryPassCc 0 % 8000001), -- CANARY_PASS_CC
    .ro 0x02 .u64 0, -- CANARY_PASSES
    .ro 0x03 .u32 0, -- CANARY_FAILS
    .ro 0x04 .u32 0, -- CANARY_LATE_COUNT
    .range 0x05 .u8 .rwl 1 0 1, -- SUSPECT_POLICY
    .dom 0x06 .ro 4608] -- LAST_PASS
  | 0x7110 => [
    .w 0x01 .u16 .wo 0 0xfe, -- FENCE_REQUEST
    .ro 0x02 .u32 0] -- DIES_LOST
  | 0x8000 => [
    .ro 0x01 .u8 2, -- LC_STATE (log entry 11)
    .w 0x02 .u8 .wo 0, -- LC_REQUEST
    .w 0x03 .bool .rwl 0, -- IDENTITY_GENERATE
    .dom 0x04 .ro 516, -- IDENTITY_PUBLIC
    .dom 0x05 .rwl 0] -- CERT_CHAIN
  | 0x8100 => [
    .dom 0x01 .ro 64, -- CHALLENGE
    .dom 0x02 .wo 520, -- SESSION_OPEN
    .dom 0x03 .ro 512, -- SESSION_KEY
    .dom 0x04 .rwl 2064, -- OPERATOR_KEYS
    .w 0x05 .bool .rw 0, -- MAILBOX_PRIVILEGED
    .w 0x06 .bool .wo 0] -- SESSION_CLOSE
  | 0x8200 => [
    .code 0x01 .u8 .wo 0 1 3, -- UPDATE_CONTROL
    .dom 0x02 .wo 0] -- IMAGE_CHUNK
  | 0x8300 => [
    .ro 0x01 .u8 0, -- FLOOR
    .w 0x02 .bool .wo 0] -- FLOOR_ADVANCE
  | 0x8400 => [
    .dom 0x01 .ro 0, -- MEASUREMENT_LOG
    .dom 0x02 .ro 64, -- LOG_DIGEST
    .dom 0x03 .wo 32, -- ATTEST_NONCE
    .dom 0x04 .ro 0] -- ATTEST_REPORT
  | 0x8500 => [
    .ro 0x01 .u32 0] -- TAMPERS
  | 0x9000 => [
    .dom 0x01 .rw 256] -- WATCH_LIST
  | 0x9010 => (List.range 64).map fun k => .ro (k + 1) .u64 0 0x3fff000000000000 -- WATCH_k
  | 0x9100 => [
    .w 0x01 .u64 .rwt 2046 0x1] -- SAFELIGHT_MASK
  | 0x9110 => [
    .code 0x01 .u8 .rwt 0 0 15, -- TRIGGER_KIND
    .w 0x02 .u16 .rwt 0xffff, -- TRIGGER_LAYER
    .w 0x03 .u16 .rwt 0xffff, -- TRIGGER_OPERATOR
    .w 0x04 .u16 .rwt 0, -- TRIGGER_EVENT
    .range 0x05 .u32 .rwt 65536 0 262143, -- POST_COUNT
    .w 0x06 .bool .wo 0, -- TRACE_ARM
    .w 0x07 .bool .wo 0, -- TRIGGER_NOW
    .ro 0x08 .u8 0] -- TRACE_STATE
  | 0x9200 => [
    .w 0x01 .bool .rwl 0, -- FULL_EXPOSURE_ARM
    .dom 0x02 .rw 256] -- FULL_EXPOSURE_ENGINES
  | _ => []

/-- A threshold set (R208). -/
def thresholdObjs : List Obj :=
  (List.range 15).map fun k => .range (k + 1) .f32 .rwt (thresholdDefaults.getD k 0) 0 0x3f800000

/-- `n` read-only objects at subindices 1 to n. -/
def manyRo (n : Nat) (ty : Ty) (dflt : Nat) (resv : Nat := 0) : List Obj :=
  (List.range n).map fun k => .ro (k + 1) ty dflt resv

/-- Sensors of a die kind: temperature, voltage, process (R395). -/
def sensorCounts : Die → Nat × Nat × Nat
  | .t _ => (24, 16, 8)
  | .d _ => (8, 4, 2)
  | .f _ => (4, 4, 2)

/-- The unit identifier of a unit of a die (R20, R21). -/
def unitId (d : Die) (cls idx : Nat) : BitVec 32 :=
  BitVec.ofNat 32 (d.kind * 2 ^ 29 + d.num * 2 ^ 24 + (cls % 16) * 2 ^ 20 + idx % 256)

/-- FUSE_BAD of a Trify die: the shafts that its fuse map marks bad (R37). -/
def fuseMask (v : Fuse) (d : Die) : Nat :=
  ((List.range 18).map fun p => if v.bad.any fun u => decide (u = unitId d 1 p) then 2 ^ p else 0).sum

/-- The objects of a die at offset `o` from its base (R37, R67, R398, R457). -/
def dieObjs (v : Fuse) (d : Die) (o : Nat) : List Obj :=
  match o with
  | 0x10 => if d.kind = 1 then [.ro 1 .u8 0, .ro 2 .u8 0, .ro 3 .u8 3, .ro 4 .u8 0] else [.ro 4 .u8 0]
  | 0x20 =>
    if d.kind = 1 then
      [.ro 1 .u16 0, .ro 2 .f32 0, .ro 3 .f32 0, .ro 4 .f32 0, .ro 5 .f32 0x3f800000, .ro 6 .u8 0, .ro 7 .u8 0,
       .ro 8 .f32 0, .ro 9 .u16 v.iPeak]
    else [.ro 3 .f32 0, .ro 7 .u8 0, .ro 8 .f32 0]
  | 0x22 => manyRo (sensorCounts d).1 .f32 0
  | 0x23 => manyRo (sensorCounts d).2.1 .f32 0
  | 0x24 => manyRo (sensorCounts d).2.2 .u32 0
  | 0x26 => [.ro 1 .u64 0]
  | _ =>
    match d with
    | .t _ =>
      match o with
      | 0x11 => manyRo 16 .u16 0 0x3fe0
      | 0x12 => manyRo 18 .u8 0
      | 0x13 => [.ro 1 .u32 (fuseMask v d), .ro 2 .u32 0, .ro 3 .u32 0]
      | 0x21 => [.dom 1 .ro 32768]
      | 0x25 => [.dom 1 .ro 1032]
      | 0x70 => manyRo 3 .u64 0
      | 0x80 => [.dom 1 .rwt 4096]
      | 0x81 => [.dom 1 .ro 32768]
      | 0x82 => [.w 1 .u16 .rw 0 0xfc00, .dom 2 .ro 32]
      | 0x84 => [.dom 1 .rwl 128, .dom 2 .ro 16, .code 3 .u8 .wo 0 1 2, .ro 4 .u32 0]
      | 0x90 => [.dom 1 .ro 0, .ro 2 .u64 0, .ro 3 .u64 0, .ro 4 .u32 0]
      | _ => []
    | .d _ =>
      match o with
      | 0x40 => [.dom 1 .rwl 8192]
      | 0x41 => manyRo 4 .u8 0
      | 0x42 => manyRo 4 .u32 0x76543210
      | 0x43 => manyRo 4 .u32 0
      | 0x44 => manyRo 36 .f32 0
      | 0x45 => manyRo 4 .u64 0
      | 0x46 => manyRo 4 .u64 0
      | 0x47 => manyRo 4 .u32 0
      | _ => []
    | .f _ =>
      match o with
      | 0x40 => [.dom 1 .rwl 524288]
      | 0x41 => [.ro 1 .u16 0, .ro 2 .u64 0]
      | _ => []

/-- The die and the offset of a per-die index (R37). -/
def dieOfIndex (i : Nat) : Option (Die × Nat) :=
  if 0xA000 ≤ i ∧ i < 0xC000 then some (Die.ofIx ((i - 0xA000) / 256), (i - 0xA000) % 256)
  else if 0xC000 ≤ i ∧ i < 0xC800 then some (Die.ofIx (32 + (i - 0xC000) / 128), (i - 0xC000) % 128)
  else if 0xC800 ≤ i ∧ i < 0xD000 then some (Die.ofIx (48 + (i - 0xC800) / 128), (i - 0xC800) % 128)
  else none

/-- Every object of an index but subindex 0; empty where the index is not defined (R40). -/
def indexObjs (v : Fuse) (i : Nat) : List Obj :=
  match dieOfIndex i with
  | some (d, o) => dieObjs v d o
  | none =>
    if 0x4080 ≤ i ∧ i < 0x4100 then queueObjs i
    else if 0x3160 ≤ i ∧ i < 0x3168 then thresholdObjs
    else moduleObjs v i

/-- The highest subindex of a list of objects. -/
def highestSub (l : List Obj) : Nat := l.foldl (fun a o => max a o.sub) 0

/-- The object of an index and a subindex; subindex 0 is a U8, RO, that holds the highest one defined (R40). -/
def objDef (v : Fuse) (i sub : Nat) : Option Obj :=
  let l := indexObjs v i
  if l.isEmpty then none
  else if sub = 0 then some (.ro 0 .u8 (highestSub l))
  else l.find? fun o => decide (o.sub = sub)

/-- Default of a scalar object. -/
def objDefault (v : Fuse) (k : Nat) : Nat := ((objDef v (k / 256) (k % 256)).map Obj.dflt).getD 0

/-- Width in bits of a scalar object. -/
def objWidth (v : Fuse) (k : Nat) : Nat := ((objDef v (k / 256) (k % 256)).map fun o => 8 * tyBytes o.ty).getD 64

/-- A default steering record (R207). -/
def steeringDefault : Nat := 0xc8000000000300003003131210000000000000
/-- A default parameter set (R298). -/
def paramDefault : Nat := 0x3f6666663f7fbe77322bcc77000000000da242603f80000000000000000000000000000000000000000000000000000000000000000000000000000000000000

/-- Byte `off` of a stored DOMAIN table that nothing has written: zero, but for the two tables whose fields have
defaults (R207, R298). -/
def domDefault (k off : Nat) : Byte :=
  if k = 0x315001 then BitVec.ofNat 8 (steeringDefault >>> (8 * (off % 32)))
  else if k = 0x601001 then BitVec.ofNat 8 (paramDefault >>> (8 * (off % 64)))
  else 0

end Sys2Proof.Machine
end

