-- ==== Sys2Proof/Machine/Ops.lean ====
section
/-! DEFINITION. The named operations over State that every family uses: how a meaning answers, reading and writing
objects, DOMAIN tables and memory, sending, events (R64) and trace records (R445). -/

namespace Sys2Proof.Machine

/-- What exec answers. -/
abbrev Answer := Host.Outcome State Fault Refusal

/-- Answer a next state that leaves the waiting commands, memory and the fused limits as they were in `s`: the form of
every command that stores nothing (R3: limits are fixed for the life of the module). -/
def done (s b : State) : Answer := .next { b with pending := s.pending, fuse := s.fuse, mem := s.mem }

/-- Answer a next state of a command that may store to memory. -/
def doneMem (s b : State) : Answer := .next { b with pending := s.pending, fuse := s.fuse }

/-! ### Objects -/

/-- A byte string of exactly n bytes: cut, or filled with zeros. -/
def fit (n : Nat) (b : Bytes) : Bytes := (b ++ List.replicate (n - b.length) 0).take n

/-- Raw bits of a scalar object: what is kept, else its default (R40, R41). -/
def State.reg (s : State) (k : Nat) : Nat := (SMap.get? s.regs k).getD (objDefault s.fuse k)

/-- Set a scalar object. -/
def State.setReg (s : State) (k v : Nat) : State := { s with regs := SMap.put s.regs k v }

/-- Add to a counter. What a counter holds past the end of its width the manual does not say: a free value. -/
def State.bump (s : State) (k n : Nat) : State :=
  let v := s.reg k + n
  let w := 2 ^ objWidth s.fuse k
  s.setReg k (if v < w then v else Config.counterPast k v % w)

/-- A count of cycles, slots or records that the model does not time moves on by an open number (log 39). -/
def State.bumpOpen (s : State) (k : Nat) : State :=
  s.bump k (Config.cycles k (s.reg (okey 0x5000 6) * 2 ^ 32 + s.tick.now) % 2 ^ 32)

/-- One bit of an object set or cleared. -/
def State.setBit (s : State) (k i : Nat) (b : Bool) : State := s.setReg k (setBits (s.reg k) i i (b2n b))

/-- The object at an index and subindex. -/
def State.ob (s : State) (i sub : Nat) : Nat := s.reg (okey i sub)

/-- Object 0x3100.01 names a step muster (R192). -/
def State.stepMuster (s : State) : Option Nat := if s.ob 0x3100 1 < 4096 then some (s.ob 0x3100 1) else none

/-- Key of byte `off` of a stored DOMAIN table. -/
def dkey (k off : Nat) : Nat := k * 16777216 + off

/-- A byte of a stored DOMAIN table. -/
def State.domByte (s : State) (k off : Nat) : Byte := (SMap.get? s.dom (dkey k off)).getD (domDefault k off)

/-- `n` bytes of a stored DOMAIN table. -/
def State.domBytes (s : State) (k off : Nat) (n : Nat) : Bytes := (List.range n).map fun i => s.domByte k (off + i)

/-- A little-endian value in a stored DOMAIN table. -/
def State.domNat (s : State) (k off n : Nat) : Nat := leNat (s.domBytes k off n)

/-- Bytes listed in a table in place of others; a byte equal to the default is not listed. -/
def domPut (k : Nat) : List (Nat × Byte) → Nat → Bytes → List (Nat × Byte)
  | m, _, [] => m
  | m, off, b :: t =>
    domPut k (if b = domDefault k off then SMap.del m (dkey k off) else SMap.put m (dkey k off) b) (off + 1) t

/-- Write bytes of a stored DOMAIN table. -/
def State.setDom (s : State) (k off : Nat) (bs : Bytes) : State := { s with dom := domPut k s.dom off bs }

/-- Write a little-endian value into a stored DOMAIN table. -/
def State.setDomNat (s : State) (k off n v : Nat) : State := s.setDom k off (leBytes n v)

/-- Forget what a stored table holds: every byte reads its default again. -/
def State.clearDom (s : State) (k : Nat) : State :=
  { s with dom := s.dom.filter fun c => decide (c.1 / 16777216 ≠ k) }

/-! ### Dies -/

/-- A scalar object of a die at offset `o` from its base (R37). -/
def dkeyOf (d : Die) (o sub : Nat) : Nat := okey (d.base + o) sub

/-- The unit identifier of a whole die (R20). -/
def unitOfDie (d : Die) : BitVec 32 := BitVec.ofNat 32 (d.kind * 2 ^ 29 + d.num * 2 ^ 24)

/-- The die a unit identifier names. -/
def dieOfUnit (u : BitVec 32) : Die :=
  let n := bits u.toNat 28 24
  match bits u.toNat 31 29 with
  | 1 => Die.ofIx n
  | 2 => Die.ofIx (32 + n % 16)
  | _ => Die.ofIx (48 + n % 16)

/-- All dies in the order of R379. -/
def allDies : List Die := (List.range 64).map Die.ofIx
/-- The Trify dies. -/
def allTrify : List Die := (List.range 32).map Die.ofIx
/-- The Drift dies. -/
def allDrift : List Die := (List.range 16).map fun i => Die.ofIx (32 + i)
/-- The Fixer dies. -/
def allFixer : List Die := (List.range 16).map fun i => Die.ofIx (48 + i)

/-- A die is fenced (R37: DIE_STATE 4, and out of the PRESENT masks). -/
def State.fenced (s : State) (d : Die) : Bool := s.num.fenced.any fun x => decide (x = d)

/-- A die is admitted (R48, R408) and not fenced. -/
def State.joined (s : State) (d : Die) : Bool := (s.boot.admitted.any fun x => decide (x = d)) && !s.fenced d

/-- A die in service that runs: one held in reset after a wipe (R279) does nothing. -/
def State.live (s : State) (d : Die) : Bool := s.joined d && !s.sec.heldReset.any fun x => decide (x = d)

/-- The job runs (object 0x7002.01). -/
def State.jobRuns (s : State) : Bool := decide (s.ob 0x7002 1 = 1)

/-- Bring-up has ended and the module is not stopped (R400, R416). -/
def State.isReady (s : State) : Bool := decide (s.boot.step = 11) && !s.boot.stopped && !s.boot.estop

/-- The pithead has booted and serves the dictionary: from the end of step 2 on (R48), and over Iltur through a
stop (R383, R418). -/
def State.serves (s : State) : Bool := s.boot.pithead.isSome && !s.boot.resetHeld

/-- The number of the current tick (object 0x5000.06, R68). -/
def State.tickNo (s : State) : Nat := s.ob 0x5000 6

/-- The tick period in ns (R68). -/
def State.periodNs (s : State) : Nat := s.ob 0x5000 2 * 1000

/-- Object 0x3100.04, CURRENT_STEP. -/
def State.curStep (s : State) : Nat := s.ob 0x3100 4
/-- Object 0x3100.05, CURRENT_ORDINAL. -/
def State.ordinal (s : State) : Nat := s.ob 0x3100 5
/-- Object 0x3100.06, EPOCH. -/
def State.epoch (s : State) : Nat := s.ob 0x3100 6

/-! ### Sending -/

/-- Append to what the module has sent. -/
def State.send (s : State) (o : Out) : State := { s with out := s.out ++ [o] }

/-- Signal an MSI-X vector; a masked vector sets its pending bit (R368, R370). -/
def State.msix (s : State) (v : Nat) : State :=
  if s.host.masked then
    { s with host := { s.host with pendingBits := if memN v s.host.pendingBits then s.host.pendingBits
                                                  else v :: s.host.pendingBits } }
  else s.send (.msix v)

/-! ### Trace records (R445–R451) -/

/-- Records a die's buffer holds (R449). -/
def traceRoom : Nat := 262144

/-- An empty buffer. -/
def TraceBuf.fresh : TraceBuf := ⟨[], 0, none, false⟩

/-- The buffer of Trify die `n`. -/
def State.traceBuf (s : State) (n : Nat) : TraceBuf := SMap.get TraceBuf.fresh s.obs.traces n

/-- Replace the buffer of Trify die `n`. -/
def State.setTraceBuf (s : State) (n : Nat) (b : TraceBuf) : State :=
  { s with obs := { s.obs with traces := SMap.put s.obs.traces n b } }

/-- The Trify die whose buffer takes a die's records (R447). -/
def traceDie (d : Die) : Nat := match d with
  | .t n => n.val
  | .d n => 2 * n.val
  | .f n => 2 * n.val

/-- Every buffer is frozen (R451); a fenced die records nothing more. -/
def State.allFrozen (s : State) : Bool := (List.range 32).all fun n => (s.traceBuf n).frozen || s.fenced (Die.ofIx n)

/-- A frozen state shown in TRACE_STATE once every buffer is frozen (R451). -/
def State.showFrozen (s : State) : State :=
  if s.ob 0x9110 8 = 2 ∧ s.allFrozen then s.setReg (okey 0x9110 8) 3 else s

/-- Write one record into the buffer of Trify die `n` (R449, R451). -/
def State.writeTrace (s : State) (n : Nat) (r : TraceRec) : State :=
  let b := s.traceBuf n
  let st := s.ob 0x9110 8
  if b.frozen ∨ (st ≠ 1 ∧ st ≠ 2) then s
  else
    let r := { r with seq := b.seq % 2 ^ 32 }
    let full := decide (traceRoom ≤ b.recs.length)
    let s := if full then s.bump (okey (0xA000 + 0x100 * n + 0x90) 2) 1 else s
    let recs := r :: (if full then b.recs.take (traceRoom - 1) else b.recs)
    let post := b.post.map fun k => k - 1
    s.setTraceBuf n ⟨recs, b.seq + 1, post, decide (post = some 0)⟩

/-- The trigger reaches every die (R450): POST_COUNT further records each, then the buffer freezes (R451). -/
def State.triggerAll (s : State) : State :=
  let pc := s.ob 0x9110 5
  let s := { s with obs := { s.obs with trigTick := some s.tickNo } }
  (List.range 32).foldl (fun s n =>
    let b := s.traceBuf n
    let s := s.setReg (okey (0xA000 + 0x100 * n + 0x90) 4) (b.seq % 2 ^ 32)
    s.setTraceBuf n { b with post := some pc, frozen := decide (pc = 0) }) s

/-- Safelight kind `k` is enabled (R447). -/
def State.traceOn (s : State) (k : Nat) : Bool := bit (s.ob 0x9100 1) k

/-- A record matches the armed trigger (R450). -/
def State.trigMatch (s : State) (r : TraceRec) : Bool :=
  let k := s.ob 0x9110 1
  let l := s.ob 0x9110 2
  let o := s.ob 0x9110 3
  let e := s.ob 0x9110 4
  decide (s.ob 0x9110 8 = 1) && decide (k ≠ 0 ∧ r.kind = k) && decide (l = 0xFFFF ∨ r.layer.toNat = l) &&
    decide (o = 0xFFFF ∨ r.op.toNat = o) && decide (k ≠ 0x0D ∨ e = 0 ∨ r.arg0.toNat = e)

/-! ### Events (R64) -/

/-- Append an event record to the ring and signal vector 1 (R64). -/
def State.appendEvent (s : State) (code sev : Nat) (unit : BitVec 32) (op layer : Nat) (a0 a1 : Nat) : State :=
  let s := s.bump 0x111001 1
  let e : Event := ⟨code, sev, unit, BitVec.ofNat 16 op, BitVec.ofNat 16 layer, BitVec.ofNat 64 s.tickNo,
    BitVec.ofNat 32 (s.reg 0x111001), BitVec.ofNat 32 a0, BitVec.ofNat 32 a1⟩
  let s := if 4096 ≤ s.events.length then (s.bump 0x111003 1) else s
  let s := { s with events := (if 4096 ≤ s.events.length then s.events.drop 1 else s.events) ++ [e] }
  s.msix 1

/-- TRACE_STATE 2, TRACE_TRIGGERED and its own EVENT record, on die `n` with the firing record's SEQUENCE `q` (R450). -/
def State.triggered (s : State) (n q : Nat) : State :=
  let s := (s.triggerAll.setReg (okey (0xA000 + 0x100 * n + 0x90) 4) q).setReg (okey 0x9110 8) 2
  let s := s.appendEvent 0x9001 0 0 0 0 n q
  let s := if s.traceOn 0x0D then
      s.writeTrace 0 ⟨BitVec.ofNat 32 (s.reg 0x111001), 0x9001, 0, 0, 0x0D, 6, 0, false, false, s.tickNo % 2 ^ 32,
        2 * s.tick.now, 0, 0⟩
    else s
  s.showFrozen

/-- Fire the trace trigger on die `n` with no record (R450). A later trigger in the same arming has no effect. -/
def State.fireTrigger (s : State) (n : Nat) : State :=
  if s.ob 0x9110 8 ≠ 1 then s else s.triggered n ((s.traceBuf n).seq % 2 ^ 32)

/-- A buffer records, and the record on its way to it found its source's queue full and is dropped, which rests on times that the
model does not hold (R447; log 214). -/
def State.laneFull (s : State) (n : Nat) : Bool :=
  let b := s.traceBuf n
  decide (s.ob 0x9110 8 = 1 ∨ s.ob 0x9110 8 = 2) && !b.frozen && Config.laneFull n b.seq (s.ob (0xA000 + 0x100 * n + 0x90) 3)

/-- Put one safelight record into the buffer of a die, when its kind is enabled; a record that matches the trigger, or of a
breakpoint that fires it, carries TRIGGER (R447, R450); one that finds its queue full is dropped and counted. -/
def State.traceWith (s : State) (fires : Bool) (d : Die) (kind source unit op layer a0 a1 : Nat) : State :=
  let r : TraceRec := ⟨BitVec.ofNat 32 a1, BitVec.ofNat 32 a0, BitVec.ofNat 16 op, BitVec.ofNat 16 layer, kind, source,
    unit, false, false, s.tickNo % 2 ^ 32, 2 * s.tick.now, 0, 0⟩
  let n := traceDie d
  if !s.traceOn kind then (if fires then s.fireTrigger n else s)
  else if s.laneFull n then
    let s := s.bump (okey (0xA000 + 0x100 * n + 0x90) 3) 1
    if fires then s.fireTrigger n else s
  else if s.trigMatch r ∨ (fires ∧ s.ob 0x9110 8 = 1) then
    (s.writeTrace n { r with trigger := true }).triggered n ((s.traceBuf n).seq % 2 ^ 32)
  else (s.writeTrace n r).showFrozen

/-- One safelight record, of what fires no trigger by itself. -/
def State.trace (s : State) (d : Die) (kind source unit op layer a0 a1 : Nat) : State :=
  s.traceWith false d kind source unit op layer a0 a1

/-- Trace source and unit of a die's own manager or cores (R445). -/
def traceSource (d : Die) : Nat × Nat := match d with
  | .t _ => (5, 0)
  | .d n => (6, n.val)
  | .f n => (7, n.val)

/-- Raise an event (R64) for a command's operator and layer, and write its EVENT trace record (R446): the record goes to
the die the unit identifier names, or to the pithead's D0 when none applies. -/
def State.raiseAt (s : State) (code sev : Nat) (unit : BitVec 32) (op layer a0 a1 : Nat) : State :=
  let s := s.appendEvent code sev unit op layer a0 a1
  let d : Die := if unit = 0 then .d 0 else dieOfUnit unit
  s.trace d 0x0D (traceSource d).1 (traceSource d).2 op layer code (s.reg 0x111001)

/-- Raise an event that no command and no unit goes with. -/
def State.raise (s : State) (code sev a0 a1 : Nat) : State := s.raiseAt code sev 0 0 0 a0 a1

/-! ### The host port's link (R17, R370) -/

/-- The PCIe link is up (HOST_LINK, object 0x5140.02). -/
def State.hostUp (s : State) : Bool := decide (bits (s.ob 0x5140 2) 15 12 ≠ 0)

/-- The host port at its reset values; the mailbox is clear, and a request in progress has no response (R370). -/
def State.clearHostPort (s : State) : State :=
  let s := { s with
    host := { State.reset.host with resized := s.host.resized || decide (s.host.bar2 ≠ 8), lost := s.host.lost }
    dict := { s.dict with mbBusy := false, mbDone := false, mbOverrun := false, mbLastId := 0, mbRequest := [],
                          mbServed := none, mbArea := [], pubStart := 0, pubData := [], pubEnd := 0 } }
  s.setReg (okey 0x5140 2) 0

/-- The link goes down: a hot reset, or (`surprise`) a link-down (R370). -/
def State.hostDown (s : State) (surprise : Bool) : State :=
  if s.hostUp then (s.clearHostPort.bump (okey 0x5140 3) 1).raise 0x510A 2 (b2n surprise) 0 else s

/-- D0 is fenced in service: the host port is lost until the module is next brought up (R17). -/
def State.loseHost (s : State) : State :=
  let s := s.hostDown true
  { s with host := { s.host with lost := true } }

/-! ### Physical memory -/

/-- HBM3E stack `u`, LPDDR of Fixer `f`, stope of a physical shaft, bin, host memory: a unit's place in the one list of
bytes (log entry 3). -/
def unitBase (tag : Nat) : Nat := tag * 2 ^ 64
/-- HBM3E stack (R260). -/
def hbmAt (u a : Nat) : Nat := unitBase u + a
/-- LPDDR of a Fixer die. -/
def lpddrAt (f a : Nat) : Nat := unitBase (64 + f) + a
/-- Stope of a physical shaft. -/
def stopeAt (t p a : Nat) : Nat := unitBase (128 + 18 * t + p) + a
/-- Bin of a Trify die. -/
def binAt (t a : Nat) : Nat := unitBase (1024 + t) + a
/-- Host memory on the far side of the host port. -/
def hostAt (a : Nat) : Nat := unitBase 4096 + a

/-- Offsets and bytes of the bin's five parts (R278): trace buffer, context copies, vector saves, page-in staging, firmware. -/
def binParts : List (Nat × Nat) :=
  [(0, 0x800000), (0x800000, 0x100000), (0x900000, 0x10000), (0x910000, 0x4C0000), (0xDD0000, 0x1230000)]

/-- The part of the bin that an offset lies in. -/
def binPart (o : Nat) : Nat := (binParts.findIdx? fun p => decide (p.1 ≤ o ∧ o < p.1 + p.2)).getD 4

/-- A line's key (R261, R275). -/
def lineKey : LineAt → Nat
  | .hbm u f l => hbmAt u (f.val * 2 ^ 21 + 128 * l.val)
  | .lpddr x f l => lpddrAt x (f.val * 2 ^ 21 + 128 * l.val)
  | .stope d p l => stopeAt d p (128 * l.val)

/-- A retained stope, or the bin (18), of a Trify die wakes (R280). -/
def State.wake (s : State) (die unit : Nat) : State :=
  { s with page := { s.page with retained := s.page.retained.filter fun r => !decide (r = (die, unit)) } }

/-- Bytes from memory. -/
def State.load (s : State) (a n : Nat) : Bytes := Mem.readN s.mem a n
/-- A little-endian value from memory. -/
def State.loadNat (s : State) (a n : Nat) : Nat := leNat (s.load a n)
/-- Store bytes. -/
def State.store (s : State) (a : Nat) (bs : Bytes) : State := { s with mem := Mem.writeN s.mem a bs }

/-! ### Parts of State by key -/

/-- A queue's own state. -/
def QueueSt.fresh : QueueSt := ⟨0, []⟩
def State.qst (s : State) (q : Nat) : QueueSt := SMap.get QueueSt.fresh s.que q
def State.setQst (s : State) (q : Nat) (x : QueueSt) : State := { s with que := SMap.put s.que q x }

/-- An empty context (R229). -/
def Ctx.fresh : Ctx :=
  ⟨0, 0, 0, 0, none, .empty, [], 0, 0, 0, none, (0, none, false), []⟩
/-- A context; one that nothing has armed is EMPTY, its GENERATION moved by the discarded attempts (R235). -/
def State.ctx (s : State) (c : Nat) : Ctx :=
  SMap.get { Ctx.fresh with gen := BitVec.ofNat 8 s.step.rewinds, doneGen := BitVec.ofNat 8 (s.step.rewinds - 1) } s.ctxs c
def State.setCtx (s : State) (c : Nat) (x : Ctx) : State := { s with ctxs := SMap.put s.ctxs c x }

/-- A muster at job start (R90). -/
def Muster.fresh : Muster := ⟨0, 0, [], false, [], none, false, none, false, false⟩
def State.mst (s : State) (m : Nat) : Muster := SMap.get Muster.fresh s.mus m
def State.setMst (s : State) (m : Nat) (x : Muster) : State := { s with mus := SMap.put s.mus m x }

/-- Key of an engine: Trify die, logical shaft, engine; Fixer dies follow. -/
def ekey (d : Die) (shaft engine : Nat) : Nat := d.ix * 64 + shaft * 4 + engine
def EngineSt.fresh : EngineSt := ⟨127, none, [], [], [], [], [], (0, 0)⟩
def State.engine (s : State) (k : Nat) : EngineSt := SMap.get EngineSt.fresh s.eng k
def State.setEngine (s : State) (k : Nat) (x : EngineSt) : State := { s with eng := SMap.put s.eng k x }

/-- Key of a physical array: die, physical shaft, A0 or A1. -/
def akey (t p engine : Nat) : Nat := (t * 18 + p) * 2 + engine
def ArraySt.fresh : ArraySt := ⟨none, [], [], [], [], [], [], []⟩
def State.array (s : State) (k : Nat) : ArraySt := SMap.get ArraySt.fresh s.arr k
def State.setArray (s : State) (k : Nat) (x : ArraySt) : State := { s with arr := SMap.put s.arr k x }

def FixSt.fresh : FixSt := ⟨[], [], [], [], none, (none, none), 0, [], [], none⟩
def State.fixer (s : State) (f : Nat) : FixSt := SMap.get FixSt.fresh s.fix f
def State.setFixer (s : State) (f : Nat) (x : FixSt) : State := { s with fix := SMap.put s.fix f x }

def PortSt.fresh : PortSt := ⟨0, 0, 0, 0, 0, false, 0, 0, [], [], 0, false, false, false⟩
def State.port (s : State) (p : Nat) : PortSt := SMap.get PortSt.fresh s.ports p
def State.setPort (s : State) (p : Nat) (x : PortSt) : State := { s with ports := SMap.put s.ports p x }

/-! ### Commands in flight -/

/-- The command of a queue's slot index. -/
def State.cmd? (s : State) (q slot : Nat) : Option Cmd := s.cmds.find? fun c => decide (c.q = q ∧ c.slot = slot)

/-- Replace a command in flight. -/
def State.setCmd (s : State) (c : Cmd) : State :=
  { s with cmds := s.cmds.map fun x => if x.q = c.q ∧ x.slot = c.slot then c else x }

/-- Do something with each command that a predicate picks, in order, while it is still in flight. -/
def State.eachCmd (s : State) (p : Cmd → Bool) (f : State → Cmd → State) : State :=
  (s.cmds.filter p).foldl (fun s c => match s.cmd? c.q c.slot with
    | none => s
    | some c => if p c then f s c else s) s

/-- Remove a command. -/
def State.dropCmd (s : State) (q slot : Nat) : State :=
  { s with cmds := s.cmds.filter fun x => !(decide (x.q = q ∧ x.slot = slot)) }

end Sys2Proof.Machine
end

