-- ==== Sys2Proof/Machine/LaneCode.lean ====
section
/-! DEFINITION. The codes of a Drift lane (R340–R342) and the bytes of a frame (R344): PAM4 symbols, the parity of the inner code,
the Reed–Solomon code RS(544,514), the lane control word, and the frame's header and descriptors. -/

namespace Sys2Proof.Machine

/-! ### PAM4 (R340) -/

/-- The level of a symbol, in halves of the spacing, from its most and least significant bit (Gray code). -/
def pamLevel (msb lsb : Bool) : Int := if msb then (if lsb then 1 else 3) else (if lsb then -1 else -3)

/-- The symbol that a sample shows, thousandths of that unit: the thresholds lie at −2, 0 and +2. DESIGN CHOICE (log 201): a sample
on a threshold goes to the upper level. -/
def pamBits (x : Int) : Bool × Bool := (decide (0 ≤ x), decide (-2000 ≤ x ∧ x < 2000))

/-- Distance of a sample from the threshold of a bit plane: 0 for the most significant bits, ±2 for the least. -/
def pamMargin (lsb : Bool) (x : Int) : Nat := if lsb then ((x.natAbs : Int) - 2000).natAbs else x.natAbs

/-! ### The inner code (R340, R341) -/

/-- The parity of a bit plane. -/
def planeParity (l : List Bool) : Bool := l.foldl xor false

/-- Index of the smallest number of a list, the lowest of several. -/
def leastIdx (l : List Nat) : Nat :=
  match l.min? with
  | none => 0
  | some m => l.findIdx fun x => decide (x = m)

/-- A bit plane of a received block, its parity bit last: where its parity fails, the bit nearest to its threshold is flipped. -/
def fixPlane (lsb : Bool) (samples : List Int) (plane : List Bool) : List Bool :=
  if planeParity plane then plane.modify (leastIdx (samples.map (pamMargin lsb))) Bool.not else plane

/-- The 512 bits of a block from its 257 samples. -/
def blockBits (samples : List Int) : List Bool :=
  let ms := fixPlane false samples (samples.map fun x => (pamBits x).1)
  let ls := fixPlane true samples (samples.map fun x => (pamBits x).2)
  ((ms.zip ls).take 256).flatMap fun p => [p.1, p.2]

/-- A list cut into n parts of k. -/
def cutN {α : Type} (k : Nat) : Nat → List α → List (List α)
  | 0, _ => []
  | n + 1, l => l.take k :: cutN k n (l.drop k)

/-- The 43,520 bits of an inner frame from its 85 blocks of samples. -/
def innerBits (samples : List Int) : List Bool := (cutN 257 85 samples).flatMap blockBits

/-- The levels of a block: 256 symbols of data, then the parity symbol. -/
def blockLevels (bs : List Bool) : List Int :=
  let ps := (cutN 2 256 bs).map fun p => (p.getD 0 false, p.getD 1 false)
  (ps ++ [(planeParity (ps.map Prod.fst), planeParity (ps.map Prod.snd))]).map fun p => pamLevel p.1 p.2

/-! ### GF(2^10) and RS(544,514) (R340) -/

/-- A product by x, modulo x^10 + x^3 + 1. -/
def gfStep (a : Nat) : Nat := if 512 ≤ a then (2 * a) ^^^ 0x409 else 2 * a

/-- The product of two elements, bit n − 1 of the second first. -/
def gfMulN (a b : Nat) : Nat → Nat
  | 0 => 0
  | n + 1 => gfStep (gfMulN a (b / 2) n) ^^^ (if b % 2 = 1 then a else 0)

/-- The product of two elements of GF(2^10). -/
def gfMul (a b : Nat) : Nat := gfMulN a b 10

/-- α to a power. -/
def gfExp : Nat → Nat
  | 0 => 1
  | n + 1 => gfStep (gfExp n)

/-- The inverse: a^1022, the product of a^2, a^4, … a^512. -/
def gfInv (a : Nat) : Nat :=
  ((List.range 9).foldl (fun (p : Nat × Nat) _ => let q := gfMul p.1 p.1; (q, gfMul p.2 q)) (a, 1)).2

/-- The value of a polynomial, highest power first. -/
def gfHorner (x : Nat) (l : List Nat) : Nat := l.foldl (fun acc c => gfMul acc x ^^^ c) 0

/-- The sum of two polynomials, lowest power first. -/
def gfAdd : List Nat → List Nat → List Nat
  | [], m => m
  | l, [] => l
  | a :: l, b :: m => (a ^^^ b) :: gfAdd l m

/-- The generator polynomial Π(x − α^i), i = 0 to 29, lowest power first. -/
def rsGen : List Nat :=
  (List.range 30).foldl (fun g i => gfAdd (0 :: g) (g.map fun c => gfMul c (gfExp i))) [1]

/-- The 30 parity symbols of 514 payload symbols: the remainder of payload · x^30. DEDUCED (log 201): symbol 0 stands at the highest
power. -/
def rsParity (payload : List Nat) : List Nat :=
  let g := (rsGen.take 30).reverse
  payload.foldl (fun (r : List Nat) c =>
    let k := c ^^^ r.headD 0
    ((r.drop 1 ++ [0]).zip g).map fun (p : Nat × Nat) => p.1 ^^^ gfMul k p.2) (List.replicate 30 0)

/-- A codeword: the payload with its parity. -/
def rsEncode (payload : List Nat) : List Nat := payload ++ rsParity payload

/-- The syndromes of a received word. -/
def rsSyndromes (w : List Nat) : List Nat := (List.range 30).map fun j => gfHorner (gfExp j) w

/-- The state of the search for the error locator (Berlekamp and Massey): locator, the last one that changed the length, that
discrepancy, the length and the steps since. -/
structure RsRun where
  c : List Nat
  b : List Nat
  d : Nat
  len : Nat
  m : Nat

/-- One syndrome. -/
def rsStep (syn : List Nat) (r : RsRun) (n : Nat) : RsRun :=
  let d := (List.range (r.len + 1)).foldl (fun a i => a ^^^ gfMul (r.c.getD i 0) (syn.getD (n - i) 0)) 0
  if d = 0 then { r with m := r.m + 1 }
  else
    let k := gfMul d (gfInv r.d)
    let c := gfAdd r.c (List.replicate r.m 0 ++ r.b.map (gfMul k))
    if 2 * r.len ≤ n then ⟨c, r.c, d, n + 1 - r.len, 1⟩ else { r with c := c, m := r.m + 1 }

/-- The error locator, lowest power first, and its length. -/
def rsLocator (syn : List Nat) : List Nat × Nat :=
  let r := (List.range 30).foldl (rsStep syn) ⟨[1], [1], 1, 0, 1⟩
  (r.c, r.len)

/-- The error value at the power whose inverse root is given (Forney, first root α^0). -/
def rsValue (syn loc : List Nat) (inv : Nat) : Nat :=
  let om := (List.range 30).map fun i => (List.range (i + 1)).foldl (fun a j => a ^^^ gfMul (loc.getD j 0) (syn.getD (i - j) 0)) 0
  let dl := (List.range 15).map fun i => if i % 2 = 0 then loc.getD (i + 1) 0 else 0
  gfMul (gfInv inv) (gfMul (gfHorner inv om.reverse) (gfInv (gfHorner inv dl.reverse)))

/-- The codeword that a received word stands for: up to 15 wrong symbols are corrected; none, where more are wrong (R340, R341). -/
def rsDecode (w : List Nat) : Option (List Nat) :=
  let syn := rsSyndromes w
  if syn.all fun x => decide (x = 0) then some w
  else
    let (loc, len) := rsLocator syn
    let at' := (List.range 544).filter fun k => decide (gfHorner (gfInv (gfExp k)) loc.reverse = 0)
    if 15 < len ∨ at'.length ≠ len then none
    else
      let w' := at'.foldl (fun w k => w.modify (543 - k) (· ^^^ rsValue syn loc (gfInv (gfExp k)))) w
      if (rsSyndromes w').all fun x => decide (x = 0) then some w' else none

/-! ### Codewords (R342) -/

/-- Ten bits, the most significant first. -/
def symbolOf (bs : List Bool) : Nat := bs.foldl (fun a b => 2 * a + b2n b) 0

/-- The codeword of some position in an inner frame, as the receiver decodes it. -/
def innerWord (samples : List Int) (index : Nat) : Option (List Nat) :=
  rsDecode ((cutN 10 544 ((innerBits samples).drop (5440 * index))).map symbolOf)

/-- The samples' levels that send eight codewords. -/
def innerFrame (words : List (List Nat)) : List Int :=
  (cutN 512 85 (words.flatten.flatMap fun x => (List.range 10).map fun i => bit x (9 - i))).flatMap blockLevels

/-- The lane control word. DEDUCED (log 201): bit k is bit k mod 10 of symbol ⌊k/10⌋, as the frame's bits lie. -/
def wordControl (w : List Nat) : BitVec 20 := BitVec.ofNat 20 (w.getD 0 0 + 1024 * w.getD 1 0)

/-- A number from symbols of ten bits, the first lowest. -/
def symNat : List Nat → Nat
  | [] => 0
  | x :: l => x + 1024 * symNat l

/-- The 640 frame bytes of a codeword. -/
def wordData (w : List Nat) : Bytes := leBytes 640 (symNat ((w.drop 2).take 512))

/-- The payload symbols of a control word and 640 frame bytes. -/
def wordPayload (control : BitVec 20) (data : Bytes) : List Nat :=
  let v := control.toNat + 2 ^ 20 * leNat (fit 640 data)
  (List.range 514).map fun i => bits v (10 * i + 9) (10 * i)

/-- Fields of the lane control word. -/
def laneId (c : BitVec 20) : Nat := bits c.toNat 19 16
def laneCount (c : BitVec 20) : Nat := bits c.toNat 15 8
def laneTick (c : BitVec 20) : Bool := bit c.toNat 7
def laneTickOffset (c : BitVec 20) : Nat := bits c.toNat 6 1

/-- What a lane delivered: its control word and its bytes, where its codeword can be corrected. -/
def laneRead : LaneRx → Option (BitVec 20 × Bytes)
  | .word c data => some (c, data)
  | .lost => none
  | .samples xs i => (innerWord xs i.val).map fun w => (wordControl w, wordData w)

/-! ### Frames (R344) -/

/-- The lanes that carry one frame, which the receiver has aligned by CW_COUNT: every logical lane is there, decoded, with one
count; their bytes joined. -/
def joinLanes (l : List LaneRx) : Option Bytes :=
  let ws := l.map laneRead
  if ws.any Option.isNone then none
  else
    let ws := ws.filterMap id
    let lane (k : Nat) := ws.filter fun w => decide (laneId w.1 = k)
    if (List.range 8).all (fun k => decide ((lane k).length = 1)) &&
        ws.all (fun w => decide (7 < laneId w.1) || decide (laneCount w.1 = laneCount ((ws.headD (0, [])).1))) then
      some ((List.range 8).flatMap fun k => fit 640 ((lane k).headD (0, [])).2)
    else none

/-- A frame that did not arrive whole. -/
def lostFrame : Frame := ⟨false, false, 0, 0, 0, false, 0, false, false, 0, 0, []⟩

/-- The frame of 5,120 bytes. -/
def frameOfBytes (b : Bytes) : Frame :=
  let h := leNat (b.take 16)
  let d := leNat ((b.drop 16).take 64)
  { decoded := true
    checkOk := decide (bits h 31 0 = crc32c ((b.drop 4).take 76))
    seq := BitVec.ofNat 16 (bits h 127 112)
    ackSeq := BitVec.ofNat 16 (bits h 111 96)
    linkGen := BitVec.ofNat 4 (bits h 95 92)
    swapReq := bit h 91
    swapLane := Fin.ofNat 8 (bits h 90 88)
    nak := bit h 87
    idle := bit h 86
    creditReq := BitVec.ofNat 12 (bits h 85 74)
    creditRsp := BitVec.ofNat 12 (bits h 73 62)
    slots := (List.range 35).filterMap fun s =>
      let x := bits d (14 * s + 13) (14 * s)
      if x / 8 = 0 then none else some ⟨BitVec.ofNat 11 (x / 8), BitVec.ofNat 3 x, fit 144 (b.drop (80 + 144 * s))⟩ }

/-- The header fields of a frame above CHECK. -/
def frameHead (f : Frame) : Nat :=
  f.seq.toNat * 2 ^ 112 + f.ackSeq.toNat * 2 ^ 96 + f.linkGen.toNat * 2 ^ 92 + b2n f.swapReq * 2 ^ 91 + f.swapLane.val * 2 ^ 88 +
    b2n f.nak * 2 ^ 87 + b2n f.idle * 2 ^ 86 + f.creditReq.toNat * 2 ^ 74 + f.creditRsp.toNat * 2 ^ 62

/-- The 5,120 bytes of a frame, its slots laid from the first on. -/
def frameBytes (f : Frame) : Bytes :=
  let descs := (f.slots.zip (List.range 35)).foldl
    (fun a p => a + (p.1.label.toNat * 8 + p.1.index.toNat) * 2 ^ (14 * p.2)) 0
  let tail := leBytes 12 (frameHead f / 2 ^ 32) ++ leBytes 64 descs
  fit 5120 (leBytes 4 (crc32c tail) ++ tail ++ (f.slots.take 35).flatMap fun x => fit 144 x.bytes)

/-- What a port received, as a frame. -/
def frameOfRx : FrameRx → Frame
  | .aligned f => f
  | .lanes l => match joinLanes l with
    | none => lostFrame
    | some b => frameOfBytes b

end Sys2Proof.Machine
end

