-- ==== Sys2Proof/Machine/Approx.lean ====
section
/-! DEFINITION. Exponential, cosine and logarithm to 2^-150 and better, in fixed point with 192 fraction bits: what the bounds
of R128 and R313 on the published values are held against (log entry 45). -/

namespace Sys2Proof.Machine

/-- One in fixed point. -/
def fixOne : Int := 2 ^ 192
/-- ln 2 and π in fixed point. -/
def fixLn2 : Int := 4350955369971217654477563090224794165364344896676135745069
def fixPi : Int := 19720096697726538562396133364228268891463450865190089732560

/-- An exact number in fixed point, cut toward −∞. -/
def toFix (d : Dy) : Int :=
  let k : Int := d.e + 192
  if 0 ≤ k then d.m * 2 ^ k.toNat else d.m / 2 ^ (-k).toNat

/-- Product of two fixed-point numbers. -/
def fixMul (a b : Int) : Int := a * b / fixOne

/-- A power series: each term is made from the one before by `step`. -/
def fixSeries (terms : Nat) (first : Int) (step : Nat → Int → Int) : Int :=
  ((List.range terms).foldl (fun (st : Int × Int) i => let t := step i st.2; (st.1 + t, t)) (first, first)).1

/-- e^r for a small r. -/
def fixExp (r : Int) : Int := fixSeries 48 fixOne fun i t => fixMul t r / (i + 1)

/-- A fixed-point number with its binary exponent. -/
def fixDy (v e : Int) : Dy := Dy.norm ⟨v, e - 192⟩

/-- e^x; the argument is held to ±2,000, past which every format has left its range. -/
def expDy (d : Dy) : Dy :=
  let x := max (-2000 * fixOne) (min (2000 * fixOne) (toFix d))
  let k := (x + fixLn2 / 2) / fixLn2
  fixDy (fixExp (x - k * fixLn2)) k

/-- 2^x. -/
def exp2Dy (d : Dy) : Dy :=
  let x := max (-2000 * fixOne) (min (2000 * fixOne) (toFix d))
  let k := (x + fixOne / 2) / fixOne
  fixDy (fixExp (fixMul (x - k * fixOne) fixLn2)) k

/-- sin(π h) and cos(π h) for 0 ≤ h ≤ 1/2. -/
def fixSinPi (h : Int) : Int :=
  let y := fixMul fixPi h
  fixSeries 40 y fun i t => -(fixMul (fixMul t y) y / ((2 * i + 2) * (2 * i + 3)))

/-- cos(π x): by sin(π(1/2 − x)), which is exact near its zero. -/
def cosPiDy (d : Dy) : Dy :=
  let x := toFix d % (2 * fixOne)
  let x := if fixOne < x then 2 * fixOne - x else x
  let h := fixOne / 2 - x
  fixDy (if h < 0 then -(fixSinPi (-h)) else fixSinPi h) 0

/-- log2 of a positive number: its exponent, and 2 atanh((m − 1)/(m + 1)) / ln 2 of its significand in [√½, √2]. -/
def log2Dy (d : Dy) : Dy :=
  let n := d.m.natAbs
  let e : Int := (Nat.log2 n : Int) + d.e
  let m := toFix ⟨n, -(Nat.log2 n : Int)⟩
  let (m, e) := if fixOne * 1414213562 / 1000000000 < m then (m / 2, e + 1) else (m, e)
  let z := (m - fixOne) * fixOne / (m + fixOne)
  let z2 := fixMul z z
  let s := ((List.range 60).foldl (fun (st : Int × Int) (i : Nat) => (st.1 + st.2 / (2 * (i : Int) + 1), fixMul st.2 z2)) (0, z)).1
  fixDy (e * fixOne + 2 * s * fixOne / fixLn2) 0

/-- The unit in the last place of a result of `p` significant bits whose least exponent is `lo`. -/
def ulpOf (p : Nat) (lo : Int) (x : Fx) : Dy := match x with
  | .fin _ m e => if m = 0 then ⟨1, lo⟩ else ⟨1, max ((Nat.log2 m : Int) + e - (p - 1)) lo⟩
  | _ => ⟨1, 1000⟩

/-- A published value used where it lies within `n` units in the last place of the exact one, else the nearest value. -/
def withinUlps (n : Nat) (ulp : Fx → Dy) (rnd : Fx → Fx) (v exact : Fx) : Fx :=
  match rnd exact, v with
  | .fin s m e, .fin _ _ _ =>
    let u := ulp (.fin s m e)
    let d := (Dy.add (Fx.toDy v) (Dy.neg (Fx.toDy exact))).abs
    if Dy.lt ⟨n * u.m, u.e⟩ d then .fin s m e else v
  | r, _ => r

end Sys2Proof.Machine
end

