-- ==== Sys2Proof/Machine/Plates.lean ====
section
/-! DEFINITION. Tensors and plates (chapters 05, 06 and 08): where an element lies (R149–R151, R230), what a plate says
of it (R147, R185), how a tensor is converted block by block (R172) with its nuggets (R184) and its statistics (R180),
and the plates that result (R156–R158). -/

namespace Sys2Proof.Machine

/-- A tensor as a context describes it (R229, R230). `base` is a device address, or a byte of the stope. -/
structure Tensor where
  stope  : Bool
  module : Nat
  base   : Nat
  dim0   : Nat
  dim1   : Nat
  dim2   : Nat
  pitch1 : Nat
  pitch2 : Nat
  fmt    : Nat
deriving DecidableEq, Repr

/-- ⌈a ÷ b⌉. -/
def ceilDiv (a b : Nat) : Nat := (a + b - 1) / b

/-- A square format (R150). -/
def isSquare (f : Nat) : Bool := decide (fmtGeom f = .square)
/-- An exposed format (R151). -/
def isExposed (f : Nat) : Bool := decide (fmtGeom f = .exposed)
/-- A format with scales. -/
def isScaled (f : Nat) : Bool := !decide (fmtGeom f = .unscaled)
/-- Formats that carry nuggets (R183): B8, B8G, B4, S4, S8 and S8G. -/
def carriesNuggets (f : Nat) : Bool := decide (0x10 ≤ f ∧ f ≤ 0x15)

/-- Bytes of a square block (R150). -/
def squareBytes (f : Nat) : Nat := 128 * fmtBits f

/-- Bytes of one row, padded to whole blocks for the formats with 1D blocks (R149). -/
def rowBytes (f dim0 : Nat) : Nat :=
  if isScaled f then ceilDiv dim0 32 * (4 * fmtBits f) else ceilDiv (dim0 * fmtBits f) 8

/-- Bytes from the start of a problem to its end (R230). -/
def problemSpan (t : Tensor) : Nat :=
  if isSquare t.fmt then ceilDiv t.dim1 32 * ceilDiv t.dim0 32 * squareBytes t.fmt
  else 16 * t.pitch1 * (t.dim1 - 1) + rowBytes t.fmt t.dim0

/-- Bytes from the base to the end of the last problem. -/
def tensorSpan (t : Tensor) : Nat := 128 * t.pitch2 * (t.dim2 - 1) + problemSpan t

/-- Where element c of row r of problem i lies: the byte offset of its line from the base, its first bit within the
line, and the scale byte that covers it (R149, R150, R230). -/
def eltAt (t : Tensor) (i r c : Nat) : Nat × Nat × Nat :=
  let b := fmtBits t.fmt
  if isSquare t.fmt then
    let blk := (r / 32) * ceilDiv t.dim0 32 + c / 32
    let bitOff := ((r % 32) * 32 + c % 32) * b
    let byte := 128 * t.pitch2 * i + blk * squareBytes t.fmt + bitOff / 8
    (byte / 128 * 128, 8 * (byte % 128) + bitOff % 8, 0)
  else
    let byte := 128 * t.pitch2 * i + 16 * t.pitch1 * r + c * b / 8
    (byte / 128 * 128, 8 * (byte % 128) + c * b % 8, (byte % 128) / (4 * b))

/-- The INDEX field of a nugget entry for an element (R185). -/
def nugIndex (t : Tensor) (i r c : Nat) : Nat :=
  if isSquare t.fmt then (r % 32) * 32 + c % 32 else (eltAt t i r c).2.2 * 32 + c % 32

/-- The line offsets that a tensor covers, in rising order. -/
def tensorLines (t : Tensor) : List Nat :=
  let put (m : List (Nat × Unit)) (lo n : Nat) : List (Nat × Unit) :=
    (List.range n).foldl (fun m j => SMap.put m (lo + 128 * j) ()) m
  let problem (m : List (Nat × Unit)) (i : Nat) : List (Nat × Unit) :=
    let p := 128 * t.pitch2 * i
    if isSquare t.fmt then put m p (problemSpan t / 128)
    else (List.range t.dim1).foldl (fun m r =>
      let b := p + 16 * t.pitch1 * r
      put m (b / 128 * 128) (ceilDiv (b % 128 + rowBytes t.fmt t.dim0) 128)) m
  ((List.range t.dim2).foldl problem []).map Prod.fst

/-! ### What a plate holds -/

/-- A line with its margin entry and nugget slot (R156, R161, R185), as little-endian numbers. -/
structure Plate where
  data  : Nat
  scale : Nat
  tag   : Nat
  crc   : Nat
  slot  : Nat
deriving DecidableEq, Repr

/-- FORMAT, NUGGET, EPOCH and SEQ of a tag (R157). -/
def Plate.fmt (p : Plate) : Nat := bits p.tag 31 26
def Plate.nugget (p : Plate) : Bool := bit p.tag 25
def Plate.epoch (p : Plate) : Nat := bits p.tag 24 20
def Plate.seq (p : Plate) : Nat := bits p.tag 19 0

/-- A tag (R157). -/
def mkTag (fmt : Nat) (nug : Bool) (epoch addr : Nat) : Nat :=
  fmt * 2 ^ 26 + b2n nug * 2 ^ 25 + (if isExposed fmt then epoch % 32 else 0) * 2 ^ 20 + bits addr 26 7

/-- Bytes 0 to 139 of a plate (R156). -/
def Plate.body (p : Plate) : Bytes := leBytes 128 p.data ++ leBytes 8 p.scale ++ leBytes 4 p.tag

/-- A plate with the CRC of its bytes (R158). -/
def Plate.seal (p : Plate) : Plate := { p with crc := crc32c p.body }

/-- The 144 bytes of a plate (R156). -/
def Plate.bytes (p : Plate) : Bytes := p.body ++ leBytes 4 p.crc

/-- A plate read from its 144 bytes and its nugget slot. -/
def Plate.ofBytes (b : Bytes) (slot : Nat) : Plate :=
  { data := leNat (b.take 128), scale := leNat ((b.drop 128).take 8), tag := leNat ((b.drop 136).take 4),
    crc := leNat ((b.drop 140).take 4), slot := slot }

/-- A nugget entry's fields: VALID, INDEX, VALUE (R185). -/
def nugEntries (slot : Nat) : List (Nat × Nat) :=
  ([bits slot 31 0, bits slot 63 32].filter fun e => bit e 15).map fun e => (bits e 9 0, bits e 31 16)

/-- Whether an INDEX lies in a plate of a tensor whose line begins at an offset (R186). -/
def nugInside (fmt lineInBlock : Nat) (ix : Nat) : Bool :=
  if isSquare fmt then decide ((ix * fmtBits fmt / 8) / 128 = lineInBlock)
  else decide (ix / 32 < fmtScaleBytes fmt)

/-- The checks of R159 and R186, in order: 0 passed, 1 CRC, 2 format, 3 sequence, 4 unused scale bytes or a bad slot. -/
def plateCheck (fmt : Nat) (addr : Option Nat) (lineInBlock : Nat) (p : Plate) : Nat :=
  if p.crc ≠ crc32c p.body then 1
  else if p.fmt ≠ fmt then 2
  else if (addr.map fun a => decide (p.seq ≠ bits a 26 7)).getD false then 3
  else if p.scale / 256 ^ fmtScaleBytes fmt ≠ 0 then 4
  else
    let es := if p.nugget then nugEntries p.slot else []
    if es.any (fun e => !nugInside fmt lineInBlock e.1) then 4
    else match es with
      | [a, b] => if a.1 = b.1 then 4 else 0
      | _ => 0

/-- What a plate says of one element: its own value, its block's scale code, and its nugget. -/
structure Cell where
  v    : Fx
  code : Option Nat
  nug  : Option Fx
deriving DecidableEq, Repr

/-- A number times a power of two. -/
def Fx.scale2 (x : Fx) (k : Int) : Fx := match x with
  | .fin s m e => .fin s m (e + k)
  | x => x

/-- The exact value of an element (R147, R185). -/
def Cell.value (c : Cell) : Fx :=
  if c.code = some 255 then .nan
  else match c.nug with
    | some n => n
    | none => match c.code with
      | none => c.v
      | some 0 => Fx.zero
      | some k => Fx.scale2 c.v ((k : Int) - 127)

/-- An element of a tensor out of its plates; `ok` tells whether a plate's epoch passes (R190). -/
def cellAt (t : Tensor) (ok : Plate → Bool) (ps : List (Nat × Plate)) (i r c : Nat) : Cell :=
  let (line, b, j) := eltAt t i r c
  match SMap.get? ps line with
  | none => ⟨.nan, some 255, none⟩
  | some p =>
    let raw := bits p.data (b + fmtBits t.fmt - 1) b
    let code := if isScaled t.fmt then some (if ok p then bits p.scale (8 * j + 7) (8 * j) else 255) else none
    let nug := if p.nugget then
        ((nugEntries p.slot).find? fun e => decide (e.1 = nugIndex t i r c)).map fun e => bf16.decode e.2
      else none
    ⟨decodeElt (fmtElt t.fmt) raw, code, nug⟩

/-! ### Statistics of a conversion (R180, R187) -/

/-- No statistics. -/
def Stat.zero : Stat :=
  ⟨Dy.zero, Dy.zero, 0, Dy.zero, false, 0, 0, 0, 0, 0, 0, 0, 0, 0⟩

/-- Contributions joined (R180: the sums are exact, so order does not matter). -/
def Stat.join (a b : Stat) : Stat :=
  { err2 := Dy.add a.err2 b.err2, x2 := Dy.add a.x2 b.x2, values := a.values + b.values, amax := Dy.max a.amax b.amax,
    amaxInf := a.amaxInf || b.amaxInf, blocks := a.blocks + b.blocks, blank := a.blank + b.blank,
    overBlk := a.overBlk + b.overBlk, under := a.under + b.under, overs := a.overs + b.overs,
    nuggets := a.nuggets + b.nuggets, nugOver := a.nugOver + b.nugOver, nonfinite := a.nonfinite + b.nonfinite,
    nonzero := a.nonzero + b.nonzero }

/-- One finite value x with its stored value r, when there is one (R180). -/
def Stat.value (a : Stat) (x : Dy) (r : Option Fx) : Stat :=
  let a := { a with values := a.values + 1, amax := Dy.max a.amax x.abs,
                    nonzero := a.nonzero + (if x.m = 0 then 0 else 1) }
  match r with
  | some (.fin s m e) =>
    let d := Dy.add x (Dy.neg (Fx.toDy (.fin s m e)))
    { a with err2 := Dy.add a.err2 (rna24 (Dy.mul d d)), x2 := Dy.add a.x2 (rna24 (Dy.mul x x)) }
  | some _ => { a with nonfinite := a.nonfinite + 1 }
  | none => a

/-! ### Conversion -/

/-- How a conversion rounds and scales: target format, the key and start of its draws when it is stochastic (R162,
R169), the nugget gap (R183), the exposure code and epoch (R171). -/
structure Conv where
  fmt   : Nat
  sr    : Option (DrawKey × Nat)
  gap   : Nat
  expo  : Nat
  epoch : Nat
deriving DecidableEq, Repr

/-- The draw of the element at position k (R169). -/
def Conv.draw (c : Conv) (k : Nat) : Option Nat := c.sr.map fun d => drawNo d.1 (d.2 + k)

/-- One source value of a block: its place, its position among the draws, and its value; a padding place has none
(R152). -/
structure Src where
  r : Nat
  c : Nat
  k : Nat
  x : Option Fx
deriving DecidableEq, Repr

/-- A candidate nugget (R184). -/
structure Cand where
  blk : Nat
  r   : Nat
  c   : Nat
  mag : Dy
  x   : Fx
deriving DecidableEq, Repr

/-- Insert into a list sorted by falling magnitude, then rising row, then rising column. -/
def candInsert (a : Cand) : List Cand → List Cand
  | [] => [a]
  | b :: t =>
    if Dy.lt b.mag a.mag then a :: b :: t
    else if Dy.lt a.mag b.mag then b :: candInsert a t
    else if a.r < b.r ∨ (a.r = b.r ∧ a.c < b.c) then a :: b :: t
    else b :: candInsert a t

/-- Sorted by falling magnitude (R184). -/
def candSort (l : List Cand) : List Cand := l.foldl (fun acc a => candInsert a acc) []

/-- The candidates of one block: none if it holds a non-finite value (R155, R184). -/
def blockCands (g b : Nat) (l : List Src) : List Cand :=
  if l.any (fun s => match s.x with
      | some x => !x.isFinite
      | none => false) then []
  else
    let sorted := candSort (l.filterMap fun s => s.x.map fun x => ⟨b, s.r, s.c, (Fx.toDy x).abs, x⟩)
    let a (j : Nat) : Dy := ((sorted[j]?).map Cand.mag).getD Dy.zero
    let gapAt (j : Nat) : Bool := decide ((a j).m ≠ 0) && Dy.lt ((a j).scale g) (a (j - 1))
    let k := if gapAt 4 then 4 else if gapAt 3 then 3 else if gapAt 2 then 2 else if gapAt 1 then 1 else 0
    sorted.take k

/-- Accept candidates in order, under the caps of R184: the accepted ones and the number folded back. -/
def acceptNuggets (line : Nat → Nat → Nat) :
    List Cand → List Nat → List (Nat × Nat) → Nat → List Cand × Nat
  | [], _, _, _ => ([], 0)
  | v :: t, closed, lines, n =>
    let l := line v.r v.c
    if memN v.blk closed ∨ SMap.get 0 lines l = 2 ∨ n = 16 then
      let (a, f) := acceptNuggets line t (v.blk :: closed) lines n
      (a, f + 1)
    else
      let (a, f) := acceptNuggets line t closed (SMap.upd 0 lines l (· + 1)) (n + 1)
      (v :: a, f)

/-- What the conversion of a block gives: its scale code (none for an unscaled target), each element's place and code,
the nuggets' places and BF16 values, its statistics, scale clamps and non-finite values written as zero. -/
structure BlockOut where
  code   : Option Nat
  elts   : List (Nat × Nat × Nat)
  nugs   : List (Nat × Nat × Nat)
  stat   : Stat
  clamps : Nat
  zeroed : Nat
deriving DecidableEq, Repr

/-- A block written invalid (R155): finite values count without a stored value, the others as non-finite. -/
def invalidBlock (l : List Src) : BlockOut :=
  let st := l.foldl (fun (a : Stat) s => match s.x with
    | none => a
    | some x => if x.isFinite then a.value (Fx.toDy x) none else { a with nonfinite := a.nonfinite + 1 })
    { Stat.zero with blocks := 1 }
  ⟨some 255, l.map fun s => (s.r, s.c, 0), [], st, 0, 0⟩

/-- The scale of a block from its largest magnitude: the code and whether it was clamped (R153). -/
def blockCode (fmax : Nat) (amax : Dy) : Nat × Bool :=
  let e := leastExp amax (Dy.ofNat fmax)
  if e < -126 then (1, true) else if 127 < e then (254, true) else ((e + 127).toNat, false)

/-- Convert one block into a scaled or exposed format (R172); `nug` says which places are nuggets. -/
def convertBlock (cv : Conv) (nug : Nat → Nat → Bool) (l : List Src) : BlockOut :=
  if l.any (fun s => match s.x with
      | some x => !x.isFinite
      | none => false) then invalidBlock l
  else
    let el := fmtElt cv.fmt
    let isNug (s : Src) : Bool := s.x.isSome && nug s.r s.c
    let xOf (s : Src) : Fx := if isNug s then Fx.zero else s.x.getD Fx.zero
    let amax := l.foldl (fun a s => Dy.max a (Fx.toDy (xOf s)).abs) Dy.zero
    let (code, clamped) :=
      if isExposed cv.fmt then (cv.expo, false)
      else if amax.m = 0 then (0, false) else blockCode (eltFmax el) amax
    let out (s : Src) : EltOut :=
      if code = 0 ∨ s.x.isNone then ⟨0, false, false, false⟩
      else convElt el (cv.draw s.k) (Fx.scale2 (xOf s) (127 - (code : Int)))
    let outs := l.map fun s => (s, out s)
    let allZero := outs.all fun p => (decodeElt el p.2.code).isZero
    let code' := if allZero then 0 else code
    let nugs := l.filterMap fun s => if isNug s then
        some (s.r, s.c, bf16.encode (bf16.round (cv.draw s.k) (s.x.getD Fx.zero))) else none
    let st := outs.foldl (fun (a : Stat) p =>
      let s := p.1
      match s.x with
      | none => a
      | some x =>
        if isNug s then a.value (Fx.toDy x) (some (bf16.round (cv.draw s.k) x))
        else
          let r := if allZero then Fx.zero else Fx.scale2 (decodeElt el p.2.code) ((code : Int) - 127)
          let lost := !x.isZero && (decodeElt el p.2.code).isZero
          let a := a.value (Fx.toDy x) (some r)
          { a with overs := a.overs + b2n p.2.overs, under := a.under + b2n lost })
      { Stat.zero with blocks := 1, blank := b2n (decide (code' = 0)), nuggets := nugs.length }
    let nz := outs.filter fun p => !(xOf p.1).isZero
    let st := { st with overBlk := b2n (!nz.isEmpty && nz.all fun p => p.2.overs) }
    ⟨some code', outs.map fun p => (p.1.r, p.1.c, if allZero then 0 else p.2.code), nugs, st, b2n clamped, 0⟩

/-- Convert a run of elements into an unscaled format (R172): its values, sums and counts, in no block (R164, R180). -/
def convertPlain (cv : Conv) (l : List Src) : BlockOut :=
  let el := fmtElt cv.fmt
  let outs := l.map fun s => (s, match s.x with
    | none => (⟨0, false, false, false⟩ : EltOut)
    | some x => convElt el (cv.draw s.k) x)
  let st := outs.foldl (fun (a : Stat) p => match p.1.x with
    | none => a
    | some x =>
      if x.isFinite then
        let a := a.value (Fx.toDy x) (some (decodeElt el p.2.code))
        { a with overs := a.overs + b2n p.2.overs, under := a.under + b2n p.2.under }
      else { a with nonfinite := a.nonfinite + 1 }) Stat.zero
  let z := (outs.filter fun p => match p.1.x with
    | none => false
    | some x => zeroedNonfinite el x).length
  ⟨none, outs.map fun p => (p.1.r, p.1.c, p.2.code), [], st, 0, z⟩

/-- The blocks of the band of problem i that begins at row r0 and column c0 (R149, R150, R184). -/
def bandBlocks (t : Tensor) (src : Nat → Nat → Nat → Fx) (i r0 c0 : Nat) : List (List Src) :=
  let at' (r c : Nat) : Src :=
    if r < t.dim1 ∧ c < t.dim0 then ⟨r, c, (i * t.dim1 + r) * t.dim0 + c, some (src i r c)⟩ else ⟨r, c, 0, none⟩
  let groups := (List.range 4).filter fun j => decide (c0 + 32 * j < t.dim0)
  let rows := (List.range 32).filter fun y => decide (r0 + y < t.dim1)
  if isSquare t.fmt then
    groups.map fun j => (List.range 1024).map fun e => at' (r0 + e / 32) (c0 + 32 * j + e % 32)
  else if isScaled t.fmt then
    rows.flatMap fun y => groups.map fun j => (List.range 32).map fun x => at' (r0 + y) (c0 + 32 * j + x)
  else
    rows.map fun y => ((List.range 128).filter fun x => decide (c0 + x < t.dim0)).map fun x => at' (r0 + y) (c0 + x)

/-- Everything a converted tensor gives: its plates by line offset, statistics, clamps, zeroed values. -/
structure TensorOut where
  plates : List (Nat × Plate)
  stat   : Stat
  clamps : Nat
  zeroed : Nat
deriving DecidableEq, Repr

/-- A plate that holds nothing yet. -/
def Plate.empty : Plate := ⟨0, 0, 0, 0, 0⟩

/-- Put an entry into a nugget slot, valid entries in ascending INDEX (R185). -/
def slotPut (slot ix v : Nat) : Nat :=
  let e := v * 65536 + 32768 + ix
  if slot = 0 then e
  else if bits slot 9 0 < ix then slot + e * 2 ^ 32
  else e + bits slot 31 0 * 2 ^ 32

/-- Lay one converted block of problem i into the plates. -/
def layBlock (t : Tensor) (i : Nat) (ps : List (Nat × Plate)) (b : BlockOut) : List (Nat × Plate) :=
  let ps := b.elts.foldl (fun ps e =>
    let (line, bitAt, j) := eltAt t i e.1 e.2.1
    SMap.upd Plate.empty ps line fun p =>
      { p with data := p.data ||| (e.2.2 <<< bitAt)
               scale := match b.code with
                 | none => p.scale
                 | some c => p.scale ||| (c <<< (8 * j)) }) ps
  b.nugs.foldl (fun ps e =>
    SMap.upd Plate.empty ps (eltAt t i e.1 e.2.1).1 fun p =>
      { p with slot := slotPut p.slot (nugIndex t i e.1 e.2.1) e.2.2 }) ps

/-- Nuggets already taken on the lines of some candidates: a line may span bands (R184). -/
def lineCounts (t : Tensor) (i : Nat) (ps : List (Nat × Plate)) (cands : List Cand) : List (Nat × Nat) :=
  cands.foldl (fun m v =>
    let l := (eltAt t i v.r v.c).1
    SMap.put m l (nugEntries (SMap.get Plate.empty ps l).slot).length) []

/-- Convert one band in one piece (R173, R184). -/
def convertBand (t : Tensor) (cv : Conv) (src : Nat → Nat → Nat → Fx) (i r0 c0 : Nat) (o : TensorOut) : TensorOut :=
  let bl := bandBlocks t src i r0 c0
  let cands := if carriesNuggets cv.fmt ∧ cv.gap ≠ 0 then
      ((List.range bl.length).zip bl).flatMap fun p => blockCands cv.gap p.1 p.2 else []
  let (acc, folded) := acceptNuggets (fun r c => (eltAt t i r c).1) (candSort cands) [] (lineCounts t i o.plates cands) 0
  let nug (r c : Nat) : Bool := acc.any fun v => decide (v.r = r ∧ v.c = c)
  let outs := bl.map fun l => if isScaled cv.fmt then convertBlock cv nug l else convertPlain cv l
  { plates := outs.foldl (layBlock t i) o.plates
    stat := outs.foldl (fun a b => a.join b.stat) { o.stat with nugOver := o.stat.nugOver + folded }
    clamps := o.clamps + (outs.map BlockOut.clamps).sum
    zeroed := o.zeroed + (outs.map BlockOut.zeroed).sum }

/-- Convert a whole tensor, problem by problem, band by band (R172, R184). -/
def convertTensor (t : Tensor) (cv : Conv) (src : Nat → Nat → Nat → Fx) : TensorOut :=
  (List.range t.dim2).foldl (fun o i =>
    (List.range (ceilDiv t.dim1 32)).foldl (fun o y =>
      (List.range (ceilDiv t.dim0 128)).foldl (fun o x => convertBand t cv src i (32 * y) (128 * x) o) o) o)
    ⟨[], Stat.zero, 0, 0⟩

/-- Give a plate its tag and CRC for the line it is written to (R157, R160). -/
def Plate.finish (fmt epoch addr : Nat) (p : Plate) : Plate :=
  Plate.seal { p with tag := mkTag fmt (decide (p.slot ≠ 0)) epoch addr }

/-- A plate moved unchanged to another line (R160, R237): only SEQ and the CRC change. -/
def Plate.move (addr : Nat) (p : Plate) : Plate :=
  Plate.seal { p with tag := setBits p.tag 19 0 (bits addr 26 7) }

end Sys2Proof.Machine
end

