-- ==== Sys2Proof/Machine/ArrayMath.lean ====
section
/-! DEFINITION. What an array computes for one output element (R110–R122, R213–R221): exact products, group accumulation,
pairs, pieces and limbs, differences, extremes, log mode. The vector unit's arithmetic (R128, R129) stands here too. -/

namespace Sys2Proof.Machine

/-! ### Operands of a product -/

/-- The scale of a block in the pair (s_a, s_b), as an exponent: a blank block and an unscaled format take 1 (R111). -/
def Cell.exp (c : Cell) : Int := match c.code with
  | none => 0
  | some 0 => 0
  | some k => (k : Int) - 127

/-- An element of a blank block that is not a nugget: it contributes exactly zero (R111). -/
def Cell.isBlank (c : Cell) : Bool := decide (c.code = some 0) && c.nug.isNone

/-- An invalid block (R114). -/
def Cell.isInvalid (c : Cell) : Bool := decide (c.code = some 255)

/-- A product in units of s_a × s_b, nuggets included (R110, R112); `none` is a contribution of exactly zero. -/
def cellProd (a b : Cell) : Option Fx :=
  if a.isBlank || b.isBlank then none
  else if a.isInvalid || b.isInvalid then some .nan
  else
    let x := match a.nug with
      | some n => Fx.scale2 n (-a.exp)
      | none => a.v
    let y := match b.nug with
      | some n => Fx.scale2 n (-b.exp)
      | none => b.v
    some (Fx.mul x y)

/-- An element's exact scaled value for the distance modes (R121). -/
def Cell.scaled (c : Cell) : Fx := if c.isInvalid then .nan else c.value

/-- The value f(a, b) of a difference product: 1 a − b, 2 its magnitude, 3 its square, rounded to q bits first (R121). -/
def diffVal (product q : Nat) (a b : Cell) : Fx :=
  let d := match Fx.sub a.scaled b.scaled with
    | .fin sg m e => if m = 0 then .fin sg 0 0 else (roundSig q (Fx.toDy (.fin sg m e))).toFx
    | x => x
  if product = 1 then d else if product = 2 then d.abs else Fx.mul d d

/-! ### One group (R110, R115) -/

/-- Position of the leading one of a finite non-zero value. -/
def msbExp (x : Fx) : Int := match x with
  | .fin _ m e => (Nat.log2 m : Int) + e
  | _ => 0

/-- The flags of a group (R115): some NaN, or infinities; none when every product is finite. -/
def groupFlag (l : List Fx) : Option Fx :=
  if l.any Fx.isNan then some .nan
  else
    let infs := l.filter fun x => !x.isFinite
    match infs with
    | [] => none
    | x :: _ => if infs.all fun y => decide (y.neg? = x.neg?) then some (.inf x.neg?) else some .nan

/-- A group's sum in units of its scale pair (R110): aligned to the largest product, W − 10 fraction bits kept, the rest
dropped. -/
def groupSum (w : Nat) (l : List Fx) : Fx :=
  match groupFlag l with
  | some f => f
  | none =>
    let nz := l.filter fun x => !x.isZero
    match nz with
    | [] => Fx.zero
    | x :: t =>
      let emax := t.foldl (fun a y => max a (msbExp y)) (msbExp x)
      let u : Int := (w : Int) - 10 - emax
      let acc := nz.foldl (fun (a : Int) y => match y with
        | .fin sg m e => let v : Int := (shl m (e + u) : Nat); if sg then a - v else a + v
        | _ => a) 0
      (Dy.norm ⟨acc, -u⟩).toFx

/-- The rescaled group value (R110). -/
def groupVal (w : Nat) (l : List Fx) (scale : Int) : Fx := Fx.scale2 (groupSum w l) scale

/-- W of a gang (R110). -/
def gangW (gang : Nat) : Nat := if gang = 0 then 48 else if gang = 1 then 96 else 192

/-- Cut the indices below k into runs of n. -/
def runsOf (k n : Nat) : List (List Nat) :=
  (List.range (ceilDiv k n)).map fun j => (List.range n).filterMap fun i => if n * j + i < k then some (n * j + i) else none

/-! ### The running result -/

/-- A running result: sum and error term (R102). -/
structure Run where
  sum : Fx
  err : Fx
deriving DecidableEq, Repr

/-- One plain addition (R110). -/
def addPlain (r : Run) (g : Fx) : Run := { r with sum := rna32 (Fx.add r.sum g) }

/-- One paired addition, in F32 or F64 (R117); an error term whose sum is non-finite is +0 (R115). -/
def addPair (rnd : Fx → Fx) (r : Run) (g : Fx) : Run :=
  let exact := Fx.add r.sum g
  let t := rnd exact
  ⟨t, if t.isFinite then rnd (Fx.add r.err (Fx.sub exact t)) else Fx.zero⟩

/-! ### Pieces and limbs (R118, R119) -/

/-- The three BF16 pieces of an F32 element (R118): h, m, l. -/
def pieces (x : Fx) : List Fx :=
  let h := rnaB x
  let r := Fx.sub x h
  let m := rnaB r
  [h, m, rnaB (Fx.sub r m)]

/-- The order of the piece pairs (a, b). -/
def piecePairs : List (Nat × Nat) := [(0, 2), (2, 0), (1, 1), (0, 1), (1, 0), (0, 0)]

/-- Limb i of an F64 element: its significand padded with 3 zero bits, 14 bits a limb, limb 0 the most significant. -/
def limb (x : Fx) (i : Nat) : Fx := match x with
  | .fin sg m e =>
    let sh := 14 * (3 - i)
    .fin sg (((m * 8) >>> sh) % 16384) (e - 3 + sh)
  | x => x

/-- The order of the limb pairs (R119). -/
def limbPairs : List (Nat × Nat) := [(0, 3), (1, 2), (2, 1), (3, 0), (0, 2), (1, 1), (2, 0), (0, 1), (1, 0), (0, 0)]

/-- A partial product: a non-finite element follows IEEE 754 as a whole (R115). -/
def partProd (x y px py : Fx) : Fx := if x.isFinite && y.isFinite then Fx.mul px py else Fx.mul x y

/-! ### Log mode (R213–R221) -/

/-- B in log form: sign, E_x and i (R213), for a finite non-zero value. -/
def logForm (m : Nat) (e : Int) : Int × Nat :=
  let k := Nat.log2 m
  ((k : Int) + e, if k ≤ 4 then (m - 2 ^ k) <<< (4 - k) else (m - 2 ^ k) >>> (k - 4))

/-- The L4 code of a stationary cell: sign and magnitude code. -/
def l4Bits (raw : Nat) : Bool × Nat := (bit raw 3, raw % 8)

/-- The linear value the nugget lane uses for an L4 weight (R221). -/
def l4Linear (sg : Bool) (m : Nat) : Fx :=
  if m = 0 then .fin sg 0 0
  else if m % 2 = 1 then .fin sg 1 (((m : Int) - 7) / 2)
  else .fin sg 181 (((m : Int) - 8) / 2 - 7)

/-- One log-mode product in units of s_a (R215, R221). `a`: the stationary block's code and the L4 bits; `perBlock`: the
feed adds the block's scale to E_x (B8 and B8G); the bank's SCALE is 0x7F for it and for unscaled B (R219). -/
def logProd (perBlock : Bool) (aCode : Option Nat) (aRaw : Nat) (b : Cell) : Option Fx :=
  let (sg, am) := l4Bits aRaw
  if aCode = some 0 ∨ b.isBlank then none
  else if aCode = some 255 ∨ b.isInvalid then some .nan
  else match b.nug with
    | some n => some (Fx.mul n (l4Linear sg am))
    | none =>
      match b.v with
      | .fin sx m e =>
        if am = 0 ∨ m = 0 then some (.fin (sx != sg) 0 0)
        else
          let (ex0, i) := logForm m e
          let ex := if perBlock then ex0 + b.exp else ex0
          let bank : Int := if perBlock then 0 else b.exp
          let l : Int := 32 * ex + logT i + 16 * ((am : Int) - 7)
          let j := (l % 32).toNat
          let q := l / 32
          some (.fin (sx != sg) (256 + frac j) (q - 8 + bank))
      | x => some (Fx.mul x (l4Linear sg am))

/-! ### One output element -/

/-- The mode of a command (R126, R80). -/
structure Mode where
  gang      : Nat
  precision : Nat
  product   : Nat
  reduce    : Nat
  partition : Nat
  group     : Nat
deriving DecidableEq, Repr

/-- Side of a sub-array in multipliers: k_t = n_t (R98). -/
def Mode.tile (m : Mode) : Nat := (128 >>> m.partition) >>> m.gang
/-- Vectors of a chunk (R98). -/
def Mode.chunk (m : Mode) : Nat := 128 >>> m.partition
/-- Sub-arrays (R98). -/
def Mode.subs (m : Mode) : Nat := 4 ^ m.partition
/-- Products of a group along K (R109, R218). -/
def Mode.groupLen (m : Mode) : Nat := if m.product = 4 then 32 else 32 <<< m.group
/-- Significant bits of a difference (R121). -/
def Mode.q (m : Mode) : Nat := if m.gang = 0 then 4 else 8

/-- The cells a group's scale pair comes from (R111): the first that is not blank, else 1. -/
def groupScale (l : List Cell) : Int :=
  match l.find? fun c => !c.isBlank with
  | some c => c.exp
  | none => 0

/-- The rescaled value of one group of PRODUCT 0 (R110, R111). -/
def prodGroup (w : Nat) (as bs : List Cell) : Fx :=
  groupVal w ((as.zip bs).filterMap fun p => cellProd p.1 p.2) (groupScale as + groupScale bs)

/-- Passes over each tile of K: six pairs of pieces, ten of limbs, else one (R118, R119). -/
def Mode.passesPerTile (m : Mode) : Nat := if m.precision = 2 then 6 else if m.precision = 3 then 10 else 1

/-- The passes of an output block along K, in ascending K: the K indices of each tile, and which pass over it. -/
def kPasses (m : Mode) (k : Nat) : List (List Nat × Nat) :=
  (runsOf k m.tile).flatMap fun idx => (List.range m.passesPerTile).map fun j => (idx, j)

/-- The groups of a pass: runs of GROUP_SIZE K indices (R109). -/
def passGroups (n : Nat) (idx : List Nat) : List (List Nat) :=
  (runsOf idx.length n).map fun run => run.filterMap fun i => idx[i]?

/-- The rescaled value of one group in pass `j` over its tile, under REDUCE 0 (R110, R118, R119, R121, R215): `a` and `b` give
the operand cells at a K index, `raw` the stationary L4 bits. -/
def groupOf (md : Mode) (perBlock : Bool) (a b : Nat → Cell) (raw : Nat → Nat) (j : Nat) (idx : List Nat) : Fx :=
  let w := gangW md.gang
  if md.precision = 2 then
    let pr := piecePairs.getD j (0, 0)
    groupVal w (idx.map fun i =>
      let x := (a i).v
      let y := (b i).v
      partProd x y ((pieces x).getD pr.1 Fx.zero) ((pieces y).getD pr.2 Fx.zero)) 0
  else if md.precision = 3 then
    let pr := limbPairs.getD j (0, 0)
    groupVal w (idx.map fun i =>
      let x := (a i).v
      let y := (b i).v
      partProd x y (limb x pr.1) (limb y pr.2)) 0
  else if md.product = 0 then prodGroup w (idx.map a) (idx.map b)
  else if md.product = 4 then
    groupVal w (idx.filterMap fun i => logProd perBlock (a i).code (raw i) (b i)) (groupScale (idx.map a))
  else groupVal w (idx.map fun i => diffVal md.product md.q (a i) (b i)) 0

/-- One group joins the running result (R110, R117, R119). -/
def Mode.join (m : Mode) (r : Run) (g : Fx) : Run :=
  if m.precision = 0 then addPlain r g else if m.precision = 3 then addPair rna64 r g else addPair rna32 r g

/-- The running result of one output element after some passes (R102, R117–R119). -/
def sumPasses (md : Mode) (perBlock : Bool) (a b : Nat → Cell) (raw : Nat → Nat) (ps : List (List Nat × Nat)) (start : Run) : Run :=
  ps.foldl (fun r p => (passGroups md.groupLen p.1).foldl (fun r idx => md.join r (groupOf md perBlock a b raw p.2 idx)) r) start

/-- The result of one output element under REDUCE 0. -/
def sumElt (md : Mode) (perBlock : Bool) (a b : Nat → Cell) (raw : Nat → Nat) (k : Nat) (start : Run) : Run :=
  sumPasses md perBlock a b raw (kPasses md k) start

/-- The exact row value of REDUCE 1 and 2 (R122): a scaled product or a difference. -/
def rowVal (md : Mode) (a b : Cell) : Fx :=
  if md.product = 0 then
    match cellProd a b with
    | none => Fx.zero
    | some p => Fx.scale2 p (a.exp + b.exp)
  else diffVal md.product md.q a b

/-- A later value wins over the running one (R122): a NaN wins every comparison, ties go to the lowest index. -/
def wins (mx : Bool) (new old : Fx) : Bool :=
  if old.isNan then false else if new.isNan then true else if mx then Fx.lt old new else Fx.lt new old

/-- The running extreme and its index over some K indices (R122). -/
def extreme (md : Mode) (a b : Nat → Cell) (ks : List Nat) (origin : Nat) (start : Option (Fx × Fx)) : Option (Fx × Fx) :=
  ks.foldl (fun st i =>
    let v := rowVal md (a i) (b i)
    match st with
    | none => some (v, Fx.ofNat (origin + i))
    | some (o, j) => if wins (decide (md.reduce = 2)) v o then some (v, Fx.ofNat (origin + i)) else some (o, j)) start

/-! ### The vector unit (R128) -/

/-- A published F32 value used where it lies within `n` ulp of the exact one, else the nearest value (R128). -/
def within32 (n : Nat) (bitsOut : BitVec 32) (exact : Fx) : Fx := withinUlps n (ulpOf 24 (-149)) rna32 (dec32 bitsOut) exact

/-- recip (R128, R129). -/
def vRecipOf (x : Fx) : Fx := within32 1 (Config.recipBits (enc32 x)) (Fx.div (Fx.ofNat 1) x)

/-- rsqrt (R128, R129): 1 ÷ √x, with IEEE 754's special values. -/
def vRsqrtOf (x : Fx) : Fx := match x with
  | .fin s m _ => if m = 0 then .inf s else within32 1 (Config.rsqrtBits (enc32 x)) (Fx.div (Fx.ofNat 1) (Fx.sqrt x))
  | _ => rna32 (Fx.div (Fx.ofNat 1) (Fx.sqrt x))

/-- exp (R128): the published bits, within 2 ulp, on finite values; IEEE 754's special values elsewhere. -/
def vExpOf (x : Fx) : Fx := match x with
  | .nan => .nan
  | .inf true => Fx.zero
  | .inf false => .inf false
  | x => within32 2 (Config.expBits (enc32 x)) (expDy (Fx.toDy x)).toFx

/-- sigmoid (R128): the published bits, within 2 ulp. -/
def vSigmoidOf (x : Fx) : Fx := match x with
  | .nan => .nan
  | .inf true => Fx.zero
  | .inf false => Fx.ofNat 1
  | x => within32 2 (Config.sigmoidBits (enc32 x))
      (Fx.div (Fx.ofNat 1) (Fx.add (Fx.ofNat 1) (expDy (Dy.neg (Fx.toDy x))).toFx))

/-- Rounded F32 arithmetic. -/
def fadd (x y : Fx) : Fx := rna32 (Fx.add x y)
def fsub (x y : Fx) : Fx := rna32 (Fx.sub x y)
def fmul (x y : Fx) : Fx := rna32 (Fx.mul x y)
def fdiv (x y : Fx) : Fx := rna32 (Fx.div x y)

/-- Two lane results combined; a lane that no element reached has none (log entry 26). -/
def laneAdd : Option Fx → Option Fx → Option Fx
  | some x, some y => some (fadd x y)
  | some x, none => some x
  | none, y => y

/-- One level of the pairwise tree. -/
def treeLevel : List (Option Fx) → List (Option Fx)
  | x :: y :: t => laneAdd x y :: treeLevel t
  | l => l

/-- The pairwise tree of R128 over n levels. -/
def treeSum : Nat → List (Option Fx) → List (Option Fx)
  | 0, l => l
  | n + 1, l => treeSum n (treeLevel l)

/-- A lane's sum: elements l, l + 256, … in that order, from the first. -/
def laneSum (row : List Fx) (l : Nat) : Option Fx :=
  ((List.range row.length).filter fun i => decide (i % 256 = l)).foldl (fun a i => match a, row[i]? with
    | none, x => x
    | some s, some x => some (fadd s x)
    | some s, none => some s) none

/-- The ordered sum Σ of R128: lane results, then the tree. -/
def rowSum (row : List Fx) : Fx :=
  match treeSum 8 ((List.range 256).map (laneSum row)) with
  | some x :: _ => x
  | _ => Fx.zero

/-- The lowest index of the largest element; NaN ranks above every number (R129). -/
def rowMax (row : List Fx) : Fx × Nat :=
  match ((List.range row.length).zip row).foldl (fun (st : Option (Fx × Nat)) p => match st with
      | none => some (p.2, p.1)
      | some (o, j) => if wins true p.2 o then some (p.2, p.1) else some (o, j)) none with
  | some r => r
  | none => (Fx.zero, 0)

/-- Order of the TOPK functions: the first ranks before the second (R129). -/
def ranks (mx : Bool) (x y : Fx × Nat) : Bool :=
  if x.1.isNan then (if y.1.isNan then decide (x.2 < y.2) else mx)
  else if y.1.isNan then !mx
  else if Fx.lt x.1 y.1 then !mx
  else if Fx.lt y.1 x.1 then mx
  else decide (x.2 < y.2)

/-- Insertion by rank. -/
def rankInsert (mx : Bool) (a : Fx × Nat) : List (Fx × Nat) → List (Fx × Nat)
  | [] => [a]
  | b :: t => if ranks mx a b then a :: b :: t else b :: rankInsert mx a t

/-- The k first by rank. -/
def topK (mx : Bool) (k : Nat) (row : List Fx) : List (Fx × Nat) :=
  ((row.zip (List.range row.length)).foldl (fun l a => rankInsert mx a l) []).take k

/-- SOFTMAX of a row (R129). -/
def softmax (row : List Fx) : List Fx :=
  let m := (rowMax row).1
  let es := row.map fun x => vExpOf (fsub x m)
  let r := vRecipOf (rowSum es)
  es.map fun e => fmul e r

/-- RMSNORM of a row with its gains (R129). -/
def rmsnorm (eps : Fx) (row gains : List Fx) : List Fx :=
  let q := fdiv (rowSum (row.map fun x => fmul x x)) (rna32 (Fx.ofNat row.length))
  let r := vRsqrtOf (fadd q eps)
  (row.zip gains).map fun p => fmul (fmul p.1 r) p.2

/-- LAYERNORM of a row with its gains (R129). -/
def layernorm (eps : Fx) (row gains : List Fx) : List Fx :=
  let n := rna32 (Fx.ofNat row.length)
  let mu := fdiv (rowSum row) n
  let ds := row.map fun x => fsub x mu
  let v := fdiv (rowSum (ds.map fun d => fmul d d)) n
  let r := vRsqrtOf (fadd v eps)
  (ds.zip gains).map fun p => fmul (fmul p.1 r) p.2

end Sys2Proof.Machine
end

