-- ==== Sys2Proof/Machine/Operands.lean ====
section
/-! DEFINITION. Operands: the fields of the command descriptor (R80), of the stream context record (R229), of the
translation entry (R262), of the queue's objects (R77), of the Fixer's group table (R286) and checkpoint slots (R326), each named
once. -/

namespace Sys2Proof.Machine

/-! ### The command descriptor (R80) -/

/-- Bits [hi:lo] of a descriptor. -/
def dBits (d : BitVec 1024) (hi lo : Nat) : Nat := bits d.toNat hi lo
/-- Bits [hi:lo] of OPERANDS, the descriptor's bits from 512 on. -/
def oBits (d : BitVec 1024) (hi lo : Nat) : Nat := bits d.toNat (512 + hi) (512 + lo)

def dOpcode (d : BitVec 1024) : Nat := dBits d 7 0
def dFence (d : BitVec 1024) : Bool := bit d.toNat 8
def dIrq (d : BitVec 1024) : Bool := bit d.toNat 9
def dBracketPermit (d : BitVec 1024) : Bool := bit d.toNat 10
def dGang (d : BitVec 1024) : Nat := dBits d 12 11
def dPrecision (d : BitVec 1024) : Nat := dBits d 14 13
def dProduct (d : BitVec 1024) : Nat := dBits d 17 15
def dReduce (d : BitVec 1024) : Nat := dBits d 19 18
def dPartition (d : BitVec 1024) : Nat := dBits d 21 20
def dGroupSize (d : BitVec 1024) : Nat := dBits d 23 22
/-- The mode bits [23:11], by which a setting is known (R133, R446). -/
def dSetting (d : BitVec 1024) : Nat := dBits d 23 11
def dLayer (d : BitVec 1024) : Nat := dBits d 47 32
def dOperator (d : BitVec 1024) : Nat := dBits d 63 48
def dStep (d : BitVec 1024) : Nat := dBits d 95 64
def dBudget (d : BitVec 1024) : Nat := dBits d 127 96
/-- OPND byte j: 0 A, 1 B, 2 C, 3 D. -/
def dOpnd (d : BitVec 1024) (j : Nat) : Nat := dBits d (135 + 8 * j) (128 + 8 * j)
def dFmt (d : BitVec 1024) (j : Nat) : Nat := dOpnd d j % 64
def dGradient (d : BitVec 1024) (j : Nat) : Bool := bit (dOpnd d j) 6
def dShaft (d : BitVec 1024) : Nat := dBits d 163 160
def dEngine (d : BitVec 1024) : Nat := dBits d 165 164
def dGather (d : BitVec 1024) : Nat := dBits d 175 168
/-- The context number in CTX word j: 0 A, 1 B, 2 C, 3 D. -/
def dCtx (d : BitVec 1024) (j : Nat) : Nat := dBits d (209 + 32 * j) (192 + 32 * j)
def dWaitMuster (d : BitVec 1024) : Nat := dBits d 331 320
def dWaitEn (d : BitVec 1024) : Bool := bit d.toNat 332
def dWaitRound (d : BitVec 1024) : Nat := dBits d 351 336
def dArriveMuster (d : BitVec 1024) : Nat := dBits d 363 352
def dArriveEn (d : BitVec 1024) : Bool := bit d.toNat 364
def dArriveRound (d : BitVec 1024) : Nat := dBits d 383 368
def dTag (d : BitVec 1024) : Nat := dBits d 447 384

/-- Opcodes (R80). -/
def opNop : Nat := 0x01
def opArray : Nat := 0x10
def opVector : Nat := 0x20
def opMove : Nat := 0x30
def opUpdate : Nat := 0x40
def opVerdict : Nat := 0x41
def opCheckpoint : Nat := 0x48
def opSheet : Nat := 0x49

/-- The contexts a command names, with the operand's place. -/
def dCtxs (d : BitVec 1024) : List (Nat × Nat) :=
  ([0, 1, 2, 3].map fun j => (j, dCtx d j)).filter fun p => decide (p.2 ≠ 0)

/-! ### The stream context (R227, R229) -/

/-- The Trify die, logical shaft and local number of a context number (R227). -/
def ctxDie (c : Nat) : Nat := bits c 17 13
def ctxShaft (c : Nat) : Nat := bits c 12 9
def ctxLocal (c : Nat) : Nat := bits c 8 0

def cModule (d : BitVec 364) : Nat := bits d.toNat 363 352
def cBase (d : BitVec 364) : Nat := bits d.toNat 351 300
def cDim0 (d : BitVec 364) : Nat := bits d.toNat 299 268
def cDim1 (d : BitVec 364) : Nat := bits d.toNat 267 236
def cDim2 (d : BitVec 364) : Nat := bits d.toNat 235 220
def cPitch1 (d : BitVec 364) : Nat := bits d.toNat 219 188
def cPitch2 (d : BitVec 364) : Nat := bits d.toNat 187 156
def cStopeBase (d : BitVec 364) : Nat := bits d.toNat 155 140
def cStopeLines (d : BitVec 364) : Nat := bits d.toNat 139 124
def cFmt (d : BitVec 364) : Nat := bits d.toNat 123 118
def cDir (d : BitVec 364) : Nat := bits d.toNat 117 116
def cStope (d : BitVec 364) : Bool := bit d.toNat 115
def cStatLayer (d : BitVec 364) : Nat := bits d.toNat 114 103
def cStatRole (d : BitVec 364) : Nat := bits d.toNat 102 100
def cSlot (d : BitVec 364) : Nat := bits d.toNat 99 88

/-- The tensor a context describes (R230). -/
def ctxTensor (d : BitVec 364) : Tensor :=
  { stope := cStope d, module := cModule d, base := if cStope d then 128 * cStopeBase d else cBase d,
    dim0 := cDim0 d, dim1 := cDim1 d, dim2 := cDim2 d, pitch1 := cPitch1 d, pitch2 := cPitch2 d, fmt := cFmt d }

/-- Draw fields of a context (R229): DRAWER and INDEX, step, ordinal. -/
def drawIndex (w : BitVec 84) : Nat := bits w.toNat 79 36
def drawStep (w : BitVec 84) : Nat := bits w.toNat 35 4
def drawOrdinal (w : BitVec 84) : Nat := bits w.toNat 3 0
def mkDraw (index step ordinal : Nat) : BitVec 84 :=
  BitVec.ofNat 84 (index * 2 ^ 36 + (step % 2 ^ 32) * 16 + ordinal % 16)

/-- STATE codes (R229). -/
def ctxStateCode : CtxState → Nat
  | .empty => 0
  | .idle => 1
  | .running => 2
  | .suspended => 3
  | .halted => 4

/-- HALT_CAUSE codes (R245). -/
def causeCode : Cause → Nat
  | .memory => 2
  | .link => 6
  | .translation => 1
  | .drawsExhausted => 5
  | .deadlock => 4
  | .breakpoint => 3

/-- The highest pending cause in the order of R245; 0 with none. -/
def highestCause (l : List Cause) : Nat :=
  match [Cause.memory, .link, .translation, .drawsExhausted, .deadlock, .breakpoint].find? fun c =>
      l.any fun x => decide (x = c) with
  | some c => causeCode c
  | none => 0

/-- The 512 bits of a context record (R229). -/
def ctxRecord (c : Ctx) : Nat :=
  c.draw.toNat * 2 ^ 428 + c.gen.toNat * 2 ^ 420 + c.doneGen.toNat * 2 ^ 412 + b2n c.shadow.isSome * 2 ^ 411 +
    ctxStateCode c.state * 2 ^ 408 + highestCause c.causes * 2 ^ 404 + (c.position % 2 ^ 40) * 2 ^ 364 + c.desc.toNat

/-- A context status entry (R257). -/
def ctxStatus (c : Ctx) : Nat :=
  c.gen.toNat * 2 ^ 56 + c.doneGen.toNat * 2 ^ 48 + b2n c.shadow.isSome * 2 ^ 47 + ctxStateCode c.state * 2 ^ 44 +
    highestCause c.causes * 2 ^ 40 + c.tags % 2 ^ 13

/-! ### Queues (R77) -/

/-- Object `sub` of queue q. -/
def qkey (q sub : Nat) : Nat := okey (0x4080 + q) sub
def State.qob (s : State) (q sub : Nat) : Nat := s.reg (qkey q sub)
def State.qBase (s : State) (q : Nat) : Nat := s.qob q 1
def State.qSize (s : State) (q : Nat) : Nat := 2 ^ s.qob q 2
def State.qCompl (s : State) (q : Nat) : Nat := s.qob q 4
def State.qState (s : State) (q : Nat) : Nat := s.qob q 6
def State.qTail (s : State) (q : Nat) : Nat := s.qob q 7
def State.qHead (s : State) (q : Nat) : Nat := s.qob q 8

/-- The die a queue is bound to (TARGET, R77). -/
def State.qDie (s : State) (q : Nat) : Die :=
  let t := s.qob q 3
  if bits t 15 13 = 3 then Die.ofIx (48 + bits t 12 8 % 16) else Die.ofIx (bits t 12 8)

/-! ### Translation entries (R262) -/

def eKind (e : Nat) : Nat := bits e 63 62
def ePresent (e : Nat) : Bool := bit e 61
def eWritable (e : Nat) : Bool := bit e 60
def eDirty (e : Nat) : Bool := bit e 59
def eTier (e : Nat) : Nat := bits e 58 58
def eUnit (e : Nat) : Nat := bits e 57 52
def eFrame (e : Nat) : Nat := bits e 51 32
def eBackTier (e : Nat) : Nat := bits e 31 30
def eBackUnit (e : Nat) : Nat := bits e 29 24
def eBackFrame (e : Nat) : Nat := bits e 23 0

/-! ### The Fixer die's group table (R286) and checkpoint slots (R326) -/

/-- Entry g of Fixer die f's group table. -/
def State.group (s : State) (f g : Nat) : Nat := s.domNat (okey (0xC800 + 0x80 * f + 0x40) 1) (128 * g) 128
def gHi (e : Nat) : Nat := bits e 1023 972
def gCopy (e : Nat) : Nat := bits e 971 920
def gState (e : Nat) : Nat := bits e 919 868
def gSideOff (e : Nat) : Nat := bits e 867 828
def gRows (e : Nat) : Nat := bits e 827 796
def gCols (e : Nat) : Nat := bits e 795 764
def gLast (e : Nat) : Nat := bits e 763 732
def gUpdates (e : Nat) : Nat := bits e 731 700
def gLayer (e : Nat) : Nat := bits e 699 688
def gCopyFmt (e : Nat) : Nat := bits e 687 682
def gFollow (e : Nat) : Bool := bit e 681
def gSide (e : Nat) : Nat := bits e 680 680
def gFrozen (e : Nat) : Bool := bit e 679
def gTouched (e : Nat) : Bool := bit e 678
def gRule (e : Nat) : Nat := bits e 677 676
def gParam (e : Nat) : Nat := bits e 675 670
def gSched (e : Nat) : Nat := bits e 669 666
def gEnabled (e : Nat) : Bool := bit e 665

/-- The checkpoint slot entry of Fixer die f (R326). -/
def State.ckptEntry (s : State) (f : Nat) : Nat := s.domNat 0x6C0001 (32 * f) 32
def kBase (e slot : Nat) : Nat := if slot = 0 then bits e 255 204 else bits e 203 152
def kModule (e : Nat) : Nat := bits e 151 140
def kFixer (e : Nat) : Nat := bits e 139 136
def kEnabled (e : Nat) : Bool := bit e 135

/-! ### OPERANDS of the Fixer opcodes -/

def oGroup (d : BitVec 1024) : Nat := oBits d 511 500
def oGradAddr (d : BitVec 1024) : Nat := oBits d 499 448
def oIndexAddr (d : BitVec 1024) : Nat := oBits d 447 396
def oRowCount (d : BitVec 1024) : Nat := oBits d 395 364
def oGradScale (d : BitVec 1024) : Nat := oBits d 363 332

def oCkFunc (d : BitVec 1024) : Nat := oBits d 511 504
def oSlotSel (d : BitVec 1024) : Nat := oBits d 503 502
def oSrcModule (d : BitVec 1024) : Nat := oBits d 501 490
def oSrcFixer (d : BitVec 1024) : Nat := oBits d 489 486
def oSrcGroup (d : BitVec 1024) : Nat := oBits d 485 474
def oDstGroup (d : BitVec 1024) : Nat := oBits d 473 462
def oSrcRow (d : BitVec 1024) : Nat := oBits d 461 430
def oDstRow (d : BitVec 1024) : Nat := oBits d 429 398
def oRows48 (d : BitVec 1024) : Nat := oBits d 397 366

def oForm (d : BitVec 1024) : Nat := oBits d 511 504
def oDestModule (d : BitVec 1024) : Nat := oBits d 503 492
def oDestHost (d : BitVec 1024) : Bool := bit d.toNat (512 + 491)
def oDestAddr (d : BitVec 1024) : Nat := oBits d 490 439
def oFirstGroup (d : BitVec 1024) : Nat := oBits d 438 427
def oGroupCount (d : BitVec 1024) : Nat := oBits d 426 414

end Sys2Proof.Machine
end

