-- ==== Sys2Proof/Machine/Translate.lean ====
section
/-! DEFINITION. Translation (R259–R263, R265), frames, stored memory errors (R270–R274), and reading and writing the
lines of a tensor through it. -/

namespace Sys2Proof.Machine

/-- The data space (R259). -/
def inData (a : Nat) : Bool := decide (a < 2 ^ 48)

/-- The entry of an address of the data space; 0 (unmapped) where none is (R262). -/
def State.entryAt (s : State) (a : Nat) : Nat :=
  match SMap.get? s.page.large (a / 2 ^ 30) with
  | some e => e.toNat
  | none => (SMap.get 0 s.page.small (a / 2 ^ 21)).toNat

/-- The key under which a page's entry stands: its first address and size. -/
def State.pageStart (s : State) (a : Nat) : Nat :=
  match SMap.get? s.page.large (a / 2 ^ 30) with
  | some _ => a / 2 ^ 30 * 2 ^ 30
  | none => a / 2 ^ 21 * 2 ^ 21

/-- Replace the 2 MiB entry of an address. -/
def State.setEntry (s : State) (a e : Nat) : State :=
  { s with page := { s.page with small := if e = 0 then SMap.del s.page.small (a / 2 ^ 21)
                                          else SMap.put s.page.small (a / 2 ^ 21) (BitVec.ofNat 64 e) } }

/-- Local addresses of a frame's three parts (R261). -/
def frameData (tier unit frame : Nat) : Nat :=
  if tier = 0 then hbmAt unit (frame * 2 ^ 21) else lpddrAt unit (frame * 2 ^ 21)
def frameMargin (tier unit frame : Nat) : Nat :=
  if tier = 0 then hbmAt unit (0x780000000 + frame * 2 ^ 18) else lpddrAt unit (0x6800000000 + frame * 2 ^ 18)
def frameNugget (tier unit frame : Nat) : Nat :=
  if tier = 0 then hbmAt unit (0x870000000 + frame * 2 ^ 17) else lpddrAt unit (0x7500000000 + frame * 2 ^ 17)

/-- The three parts of a host pool slot: 2.375 MiB, data, margin, nugget (R262). -/
def State.slotData (s : State) (slot : Nat) : Nat := hostAt (s.ob 0x4410 4 + slot * 0x260000)
def State.slotMargin (s : State) (slot : Nat) : Nat := s.slotData slot + 0x200000
def State.slotNugget (s : State) (slot : Nat) : Nat := s.slotData slot + 0x240000

/-- The frame that holds an address of a present page: tier, unit, frame. -/
def frameOf (a e : Nat) : Nat × Nat × Nat :=
  (eTier e, eUnit e, if eKind e = 3 then eFrame e + bits a 29 21 else eFrame e)

/-- Where a line stands: the keys of its data, its margin entry and its nugget slot. -/
structure Place where
  data   : Nat
  margin : Nat
  nugget : Nat
deriving DecidableEq, Repr

/-- The place of line l of a frame (R261). -/
def framePlace (f : Nat × Nat × Nat) (l : Nat) : Place :=
  ⟨frameData f.1 f.2.1 f.2.2 + 128 * l, frameMargin f.1 f.2.1 f.2.2 + 16 * l, frameNugget f.1 f.2.1 f.2.2 + 8 * l⟩

/-- Translate the line of an address of the data space (R260–R263); none when its page is not present. -/
def State.physLine (s : State) (a : Nat) : Option Place :=
  let e := s.entryAt a
  if inData a ∧ ePresent e then some (framePlace (frameOf a e) (bits a 20 7)) else none

/-- Device bytes through translation, within one page; none when the page is not present. -/
def State.devRead (s : State) (a n : Nat) : Option Bytes :=
  (s.physLine a).map fun p => s.load (p.data + a % 128) n

/-- A page has been written since it became present (R262): DIRTY. -/
def State.markDirty (s : State) (a : Nat) : State :=
  let e := s.entryAt a
  if eDirty e then s
  else match SMap.get? s.page.large (a / 2 ^ 30) with
    | some _ => { s with page := { s.page with large := SMap.put s.page.large (a / 2 ^ 30) (BitVec.ofNat 64 (e + 2 ^ 59)) } }
    | none => { s with page := { s.page with small := SMap.put s.page.small (a / 2 ^ 21) (BitVec.ofNat 64 (e + 2 ^ 59)) } }

/-- What a request to a page finds (R265): it is served, it faults, or it has no backing or is not writable. -/
inductive Access where
  | served
  | absent
  | noBacking
deriving DecidableEq, Repr

/-- A page that is being moved or made absent (R266). -/
def State.draining (s : State) (a : Nat) : Bool := s.page.drains.any fun d => decide (d.page = s.pageStart a)

/-- Classify a request (R265); a page on the move makes it wait (R266). -/
def State.access (s : State) (a : Nat) (write : Bool) : Access :=
  let e := s.entryAt a
  if s.draining a then .absent
  else if !inData a ∨ e = 0 ∨ eKind e = 0 then .noBacking
  else if write ∧ !eWritable e then .noBacking
  else if ePresent e then .served
  else if eBackTier e = 0 then .noBacking
  else .absent

/-- The key of a frame. -/
def frameKey (tier unit frame : Nat) : Nat := (tier * 64 + unit) * 2 ^ 20 + frame

/-- The frames of LPDDR5X and HBM3E that an entry takes: present and backing (R264, R265). -/
def entryFrames (e : Nat) : List Nat :=
  if eKind e = 0 then [] else
  let present := if ePresent e then
      if eKind e = 3 then (List.range 512).map fun j => frameKey (eTier e) (eUnit e) (eFrame e + j)
      else [frameKey (eTier e) (eUnit e) (eFrame e)]
    else []
  let back := if eBackTier e = 1 then [frameKey 1 (eBackUnit e) (eBackFrame e)] else []
  present ++ back

/-- Every frame that is not free (R265): named by an entry, being filled, being drained, or retired. -/
def State.usedFrames (s : State) : List Nat :=
  (s.page.large.flatMap fun p => entryFrames p.2.toNat) ++ (s.page.small.flatMap fun p => entryFrames p.2.toNat) ++
    (s.page.ins.map fun i => frameKey i.tier i.unit i.frame) ++
    (s.page.drains.flatMap fun d => entryFrames d.old.toNat ++ entryFrames d.new.toNat) ++ s.page.retired ++
    (s.page.swaps.flatMap fun (w : Nat × List (Nat × Nat)) => w.2.map fun f => frameKey 0 f.1 f.2)

/-- The lowest free frame of a stack. -/
def lowestFree (used : List Nat) (unit : Nat) : Option Nat :=
  let taken := used.filter fun k => decide (k / 2 ^ 20 = unit)
  (List.range (min 15360 (taken.length + 1))).find? fun f => !memN (frameKey 0 unit f) taken

/-- A stack that serves: its die is live and HBM_PRESENT shows it (R37). -/
def State.stackUp (s : State) (u : Nat) : Bool :=
  s.live (Die.ofIx (u / 2)) && bit (s.reg (dkeyOf (Die.ofIx (u / 2)) 0x10 3)) (u % 2)

/-- The frame for a page-in to die t (R265): its own stacks, then the other dies' in ascending number, then for an
LPDDR5X backing the backing frame itself. -/
def State.chooseFrame (s : State) (t : Nat) (e : Nat) : Option (Nat × Nat × Nat) :=
  let used := s.usedFrames
  let order := [2 * t, 2 * t + 1] ++ (List.range 64).filter fun u => decide (u / 2 ≠ t)
  match order.findSome? fun u => if s.stackUp u then (lowestFree used u).map fun f => (0, u, f) else none with
  | some f => some f
  | none =>
    if eBackTier e = 1 ∧ !memN (frameKey 1 (eBackUnit e) (eBackFrame e)) s.page.retired then some (1, eBackUnit e, eBackFrame e)
    else none

/-! ### Plates in memory -/

/-- The serial number of the undefined contents that a line stands in, if nothing has written it since (R324). -/
def State.wildAt (s : State) (k : Nat) : Option Nat :=
  (SMap.get? s.page.wild (k / 2 ^ 64)).bind fun w => if memN (k % 2 ^ 64 / 128) w.2 then none else some w.1

/-- A line of a stope that began undefined is written (R324). -/
def State.tame (s : State) (k : Nat) : State :=
  match s.wildAt k with
  | none => s
  | some _ => { s with page := { s.page with
      wild := SMap.upd (0, []) s.page.wild (k / 2 ^ 64) fun w => (w.1, k % 2 ^ 64 / 128 :: w.2) } }

/-- The plate at a place; a line of an undefined stope reads as a free value until it is written (R324, log 87). -/
def State.plateAt (s : State) (p : Place) : Plate :=
  match s.wildAt p.data with
  | some n =>
    let b := Config.strayPlate n (p.data % 2 ^ 64 / 128)
    Plate.ofBytes (fit 144 b) (leNat ((b.drop 144).take 8))
  | none => { data := s.loadNat p.data 128, scale := s.loadNat p.margin 8, tag := s.loadNat (p.margin + 8) 4,
              crc := s.loadNat (p.margin + 12) 4, slot := s.loadNat p.nugget 8 }

/-- Lines written again hold no error any more (R271, R272). -/
def State.healLines (s : State) (p : Nat → Bool) : State :=
  { s with page := { s.page with ue := s.page.ue.filter fun k => !p k, flaws := s.page.flaws.filter fun f => !p f.1 } }

/-- The read of a line fails: it holds an error recorded or still to be found (R271). -/
def State.lineErr (s : State) (k : Nat) : Bool := memN k s.page.ue || decide (SMap.get? s.page.flaws k = some true)

/-- The counter of corrected reads for a line's key (R270, R274, R277). -/
def correctedKey (k : Nat) : Nat :=
  let u := k / 2 ^ 64
  if u < 64 then okey 0x4430 1 else if u < 128 then okey 0x4430 3 else okey (0xA000 + 0x100 * ((u - 128) / 18) + 0x70) 3

/-- Reads of lines correct what can be corrected: each is counted, and the line rewritten (R270, R274, R277). -/
def State.sawWhere (s : State) (p : Nat → Bool) : State :=
  (s.page.flaws.filter fun f => !f.2 && p f.1).foldl (fun s f =>
    ({ s with page := { s.page with flaws := SMap.del s.page.flaws f.1 } }).bump (correctedKey f.1) 1) s

/-- Write a plate: line, margin entry and nugget slot as one request (R240); a line written again no longer holds a
stored error (R271, R272). -/
def State.putPlate (s : State) (p : Place) (x : Plate) : State :=
  let s := s.store p.data (leBytes 128 x.data)
  let s := s.store p.margin (leBytes 8 x.scale ++ leBytes 4 x.tag ++ leBytes 4 x.crc)
  let s := s.store p.nugget (leBytes 8 x.slot)
  (s.healLines fun k => decide (k = p.data)).tame p.data

/-- Where a line of a stope tensor stands: the stope of the physical shaft that serves the logical one, with margin
and nugget parts beside it (log entry 3). -/
def stopePlace (t phys byte : Nat) : Place :=
  ⟨stopeAt t phys byte, stopeAt t phys (2 ^ 32 + byte / 8), stopeAt t phys (2 ^ 33 + byte / 16)⟩

/-- The physical shaft of a logical shaft of Trify die t (R30, REMAP). -/
def State.physOf (s : State) (t k : Nat) : Nat := bits (s.ob (0xA000 + 0x100 * t + 0x11) (k + 1)) 4 0

/-- The place of a line of a context's tensor; none when the page is not present. -/
def State.tensorPlace (s : State) (ctx : Nat) (t : Tensor) (off : Nat) : Option Place :=
  if t.stope then some (stopePlace (ctxDie ctx) (s.physOf (ctxDie ctx) (ctxShaft ctx)) (t.base + off))
  else s.physLine (t.base + off)

/-- This module's ID (object 0x5100.01, R357). -/
def State.moduleId (s : State) : Nat := s.ob 0x5100 1

/-- A tensor that another module holds (R230). -/
def State.remote (s : State) (t : Tensor) : Bool := !t.stope && decide (t.module ≠ s.moduleId)

/-- The place of a line within its square block, for check 4 (R186). -/
def lineInBlock (t : Tensor) (off : Nat) : Nat :=
  if isSquare t.fmt then
    ((if t.pitch2 = 0 then off else off % (128 * t.pitch2)) / 128) % fmtBits t.fmt
  else 0

/-- What reading a tensor gives. -/
inductive ReadRes where
  /-- every plate, checked -/
  | plates (l : List (Nat × Plate))
  /-- the line at this address is not present or has no backing -/
  | fault (addr : Nat)
  /-- the plate at this address fails a check of R159 (1–4), or holds an uncorrectable error (0, in a stope 6) -/
  | bad (addr : Nat) (check : Nat)
  /-- a plate of a remote tensor has not arrived -/
  | waits
deriving DecidableEq, Repr

/-- Read the plates of a context's tensor at the line offsets given, checking each (R159, R239, R271). -/
def State.readLines (s : State) (ctx : Nat) (x : Ctx) (t : Tensor) : List Nat → List (Nat × Plate) → ReadRes
  | [], acc => .plates acc
  | off :: rest, acc =>
    let a := t.base + off
    if s.remote t then
      match x.got.find? fun g => decide (g.1 = a) with
      | none => .waits
      | some g =>
        let p := Plate.ofBytes g.2 0
        match plateCheck t.fmt none (lineInBlock t off) p with
        | 0 => s.readLines ctx x t rest (SMap.put acc off p)
        | k => .bad a k
    else
      match s.tensorPlace ctx t off with
      | none => .fault a
      | some pl =>
        if s.lineErr pl.data then .bad a (if t.stope then 6 else 0)
        else
          let p := s.plateAt pl
          match plateCheck t.fmt (if t.stope then none else some a) (lineInBlock t off) p with
          | 0 => s.readLines ctx x t rest (SMap.put acc off p)
          | k => .bad a k

/-- Read a context's whole tensor. -/
def State.readTensor (s : State) (ctx : Nat) : ReadRes :=
  let x := s.ctx ctx
  let t := ctxTensor x.desc
  s.readLines ctx x t (tensorLines t) []

/-- Lines of a tensor have been read: corrections are counted (R270). -/
def State.sawLines (s : State) (ctx : Nat) (t : Tensor) (lines : List Nat) : State :=
  if s.remote t then s
  else s.sawWhere fun k => lines.any fun off => decide ((s.tensorPlace ctx t off).map Place.data = some k)

/-- The first line of a tensor that a write cannot reach (R265). -/
def State.writeFault (s : State) (t : Tensor) (lines : List Nat) : Option Nat :=
  if t.stope ∨ s.remote t then none
  else (lines.find? fun off => !decide (s.access (t.base + off) true = .served)).map fun off => t.base + off

/-! ### Memory errors (R270–R274) -/

/-- Tier, unit and frame of the page that holds an address, as MEM_UE reports them (R284). -/
def ueArg (f : Nat × Nat × Nat) : Nat × Nat := (f.1 * 64 + f.2.1, f.2.2)

/-- Count a frame's uncorrectable error; the second in a power cycle retires it (R272). -/
def State.countUe (s : State) (f : Nat × Nat × Nat) : State :=
  let k := frameKey f.1 f.2.1 f.2.2
  let n := SMap.get 0 s.page.ueCount k + 1
  let s := { s with page := { s.page with ueCount := SMap.put s.page.ueCount k n } }
  let s := s.bump (if f.1 = 0 then okey 0x4430 2 else okey 0x4430 4) 1
  if n = 2 ∧ !memN k s.page.retired then
    let s := { s with page := { s.page with retired := k :: s.page.retired } }
    let s := s.bump (okey 0x4430 5) 1
    s.raise 0x4403 1 (ueArg f).1 (ueArg f).2
  else s

/-- Lines recorded for one stack (R272). -/
def State.recorded (s : State) (unit : Nat) : Nat :=
  (s.page.ue.filter fun k => decide (k / 2 ^ 64 = unit)).length

/-- An uncorrectable error is found in a line of a frame (R272): an HBM3E line keeps it, is recorded, and counts once until it is
written again; an LPDDR5X error lies on the link: it is not stored and counts at every read (R274). -/
def State.foundUe (s : State) (f : Nat × Nat × Nat) (line : Nat) : State :=
  if f.1 = 0 then
    let s := { s with page := { s.page with flaws := SMap.put s.page.flaws line true } }
    if memN line s.page.ue then s
    else
      let s := if s.recorded f.2.1 < 1024 then { s with page := { s.page with ue := line :: s.page.ue } } else s
      s.countUe f
  else ({ s with page := { s.page with flaws := SMap.del s.page.flaws line } }).countUe f

/-- An uncorrectable error in a line of a context's stope tensor (R277): the line keeps it, and the canary is to test its region. -/
def State.stopeUe (s : State) (ctx byte : Nat) : State :=
  let p := s.physOf (ctxDie ctx) (ctxShaft ctx)
  let r := (ctxDie ctx, p, byte / 4096)
  let s := { s with page := { s.page with flaws := SMap.put s.page.flaws (stopePlace (ctxDie ctx) p byte).data true } }
  if s.page.retest.any fun x => decide (x = r) then s else { s with page := { s.page with retest := r :: s.page.retest } }

/-- An uncorrectable error met by a read of the data space: it is counted and MEM_UE is raised (R271, R272). -/
def State.memUe (s : State) (a : Nat) : State :=
  let f := frameOf a (s.entryAt a)
  let s := s.foundUe f (framePlace f (bits a 20 7)).data
  s.raise 0x4401 2 (ueArg f).1 (ueArg f).2

/-- The data lines at some addresses have been read: corrections are counted (R270). -/
def State.sawAddrs (s : State) (l : List Nat) : State :=
  s.sawWhere fun k => l.any fun a => decide ((s.physLine a).map Place.data = some k)

/-- The read of the line of an address meets an uncorrectable error. -/
def State.lineBad (s : State) (a : Nat) : Bool :=
  match s.physLine a with
  | none => false
  | some p => s.lineErr p.data

/-- Device address bits [51:20], as events report them. -/
def addrHi (a : Nat) : Nat := bits a 51 20

/-! ### Ports and routes (R354, R358) -/

/-- PORT_STATE of a module port (R357). -/
def portKey (p : Nat) : Nat := okey (0xC000 + 0x80 * (p / 4) + 0x41) (p % 4 + 1)
def State.portState (s : State) (p : Nat) : Nat := s.reg (portKey p)
/-- A port is up, with or without spare. -/
def State.portUp (s : State) (p : Nat) : Bool := decide (s.portState p = 2 ∨ s.portState p = 3)

/-- The up ports of a module's route, ascending (R358). -/
def State.routePorts (s : State) (m : Nat) : List Nat :=
  let mask := s.domNat 0x511001 (8 * m) 8
  (List.range 64).filter fun p => bit mask p && s.portUp p

/-- A route is usable (R358). -/
def State.routeUsable (s : State) (m : Nat) : Bool := !(s.routePorts m).isEmpty

/-- The port of a transfer to a module (R358). -/
def State.routePort (s : State) (m reqId src : Nat) : Option Nat :=
  let u := s.routePorts m
  u[((reqId % 65536) ^^^ src) % u.length]?

/-! ### Messages (R345–R350) -/

/-- A message (R345). -/
def mkMsg (dest src countM1 kind address reqId muster round : Nat) : DriftMsg :=
  { dest := BitVec.ofNat 12 dest, src := BitVec.ofNat 12 src, label := 0, countM1 := BitVec.ofNat 3 countM1
    kind := BitVec.ofNat 2 kind, address := BitVec.ofNat 52 address, requestId := BitVec.ofNat 32 reqId
    muster := BitVec.ofNat 12 muster, round := BitVec.ofNat 16 round }

/-- The lowest free label of a port (R346). -/
def freeLabel (x : PortSt) : Nat :=
  ((List.range 2046).find? fun j => !x.labels.any fun l => decide (l % 2048 = j + 1)).elim 0 (· + 1)

/-- Send a message to another module over its route, in a frame of its own (R346, R349, R350; log entry 34); a
destination without a route is not reached (R358). -/
def State.sendDrift (s : State) (type : Nat) (m : DriftMsg) (plates : List Bytes) (rider : Option Rider) : State :=
  match s.routePort m.dest.toNat m.requestId.toNat m.src.toNat with
  | none => s
  | some p =>
    let x := s.port p
    let lab := if plates.isEmpty then 0 else freeLabel x
    let n := plates.length + 1
    let req := decide (type = 1 ∨ (type = 2 ∧ m.kind = 0))
    let s := s.setPort p { x with
      txNext := x.txNext + 1, unacked := x.unacked + 1
      labels := if lab = 0 then x.labels else (x.txNext.toNat * 2048 + lab) :: x.labels
      creditReq := if req then x.creditReq - n else x.creditReq
      creditRsp := if req then x.creditRsp else x.creditRsp - n }
    s.send (.drift p type { m with label := BitVec.ofNat 11 lab } plates rider)

/-- REQUEST_ID of a stream engine's plate (R345): die, logical shaft, reuse count, tag. -/
def streamReqId (ctx tag : Nat) (reuse : BitVec 4) : Nat :=
  2 ^ 29 + ctxDie ctx * 2 ^ 24 + ctxShaft ctx * 2 ^ 20 + reuse.toNat * 2 ^ 16 + tag

/-! ### Remote tags (R241, R251) -/

/-- The stream engine of a context. -/
def streamKey (ctx : Nat) : Nat := ekey (Die.ofIx (ctxDie ctx)) (ctxShaft ctx) 3

/-- A tag that nothing has used. -/
def RTag.fresh : RTag := ⟨0, none⟩

/-- A remote tag of a stream engine. -/
def State.rtag (s : State) (e n : Nat) : RTag := SMap.get RTag.fresh (s.engine e).rtags n

/-- The tag that a request takes: the lowest of the 2,048 that is free. DESIGN CHOICE (log 24). -/
def State.freeTag (s : State) (e : Nat) : Option Nat := (List.range 2048).find? fun n => (s.rtag e n).use.isNone

/-- Set what a tag is held for. -/
def State.setRtag (s : State) (e n : Nat) (x : RTag) : State :=
  s.setEngine e { s.engine e with rtags := SMap.put (s.engine e).rtags n x }

/-- The remote tags of an engine that are held for a context. -/
def State.heldRemote (s : State) (k : Nat) : List (Nat × TagUse) :=
  (s.engine (streamKey k)).rtags.filterMap fun (p : Nat × RTag) => (p.2.use.filter fun u => decide (u.ctx = k)).map fun u => (p.1, u)

/-- Requests wait for a tag (R241). -/
def State.tagWait (s : State) : State := s.bumpOpen (okey 0x4130 4)

/-- A plate of a context is sent to the module that holds its tensor; without a free tag it waits (R241). -/
def State.sendPlate (s : State) (k addr : Nat) (b : Bytes) : State :=
  let e := streamKey k
  let t := ctxTensor (s.ctx k).desc
  match s.freeTag e with
  | none => (s.setEngine e { s.engine e with unsent := (s.engine e).unsent ++ [(k, addr, b)] }).tagWait
  | some n =>
    let r := (s.rtag e n).reuse
    (s.setRtag e n ⟨r, some ⟨k, addr, true, true, s.routePort t.module (streamReqId k n r) s.moduleId⟩⟩).sendDrift 2 (mkMsg t.module s.moduleId 0 0 addr (streamReqId k n r) 0 0) [b] none

/-- A plate of a context is asked for, if a tag is free. -/
def State.askPlate (s : State) (k addr : Nat) : State :=
  let e := streamKey k
  let t := ctxTensor (s.ctx k).desc
  match s.freeTag e with
  | none => s
  | some n =>
    let r := (s.rtag e n).reuse
    (s.setRtag e n ⟨r, some ⟨k, addr, false, true, s.routePort t.module (streamReqId k n r) s.moduleId⟩⟩).sendDrift 1 (mkMsg t.module s.moduleId 0 0 addr (streamReqId k n r) 0 0) [] none

/-- The plates of a remote input that have not arrived and have not been asked for. -/
def State.toAsk (s : State) (k : Nat) : List Nat :=
  let x := s.ctx k
  let t := ctxTensor x.desc
  let asked := s.heldRemote k
  if s.remote t ∧ cDir x.desc ≠ 1 then
    ((tensorLines t).map (t.base + ·)).filter fun a =>
      !(x.got.any fun g => decide (g.1 = a)) && !asked.any fun u => u.2.want && !u.2.write && decide (u.2.addr = a)
  else []

/-- They are asked for, in the order in which the engine consumes them, as far as tags are free (R239, R241). -/
def State.askRemote (s : State) (k : Nat) : State :=
  let s := (s.toAsk k).foldl (fun s a => s.askPlate k a) s
  if (s.toAsk k).isEmpty then s else s.tagWait

/-- A tag is free again: its reuse count moves on, and a request that waits takes it (R241, R251). -/
def State.freeRtag (s : State) (e n : Nat) : State :=
  let s := s.setRtag e n ⟨(s.rtag e n).reuse + 1, none⟩
  match (s.engine e).unsent with
  | (k, a, b) :: rest => (s.setEngine e { s.engine e with unsent := rest }).sendPlate k a b
  | [] => (s.ctxs.filter fun (p : Nat × Ctx) => decide (p.2.state = .running ∧ streamKey p.1 = e)).foldl (fun s p => s.askRemote p.1) s

/-- The plates asked for are wanted no more: each tag is free when its reply arrives (R247). -/
def State.unwant (s : State) (k : Nat) : State :=
  let e := streamKey k
  s.setEngine e { s.engine e with rtags := (s.engine e).rtags.map fun (p : Nat × RTag) =>
    (p.1, { p.2 with use := p.2.use.map fun u => if u.ctx = k ∧ u.write = false then { u with want := false } else u }) }

/-- Every tag of an engine is held for nothing that is wanted, and no plate waits: the attempt is discarded (R235). -/
def EngineSt.discard (e : EngineSt) : EngineSt :=
  { e with unsent := [], rtags := e.rtags.map fun (p : Nat × RTag) =>
    (p.1, { p.2 with use := p.2.use.map fun u => { u with want := false } }) }

/-- What a REQUEST_ID of a stream engine names (R345): the engine, the tag and what it is held for, when the reuse count is
the tag's (R251). -/
def State.tagOf (s : State) (r : Nat) : Option (Nat × Nat × TagUse) :=
  let e := ekey (Die.ofIx (bits r 28 24)) (bits r 23 20) 3
  let x := s.rtag e (bits r 15 0)
  if bits r 31 29 = 1 ∧ x.reuse.toNat = bits r 19 16 then x.use.map fun u => (e, bits r 15 0, u) else none

end Sys2Proof.Machine
end

