-- ==== Sys2Proof/Machine/Passes.lean ====
section
/-! DEFINITION. The passes of an ARRAY command, the bands of a COPY and the row steps of a VECTOR command, which are the units
at which a command can stop (R99, R246), with the plates that each uses (R247); an ARRAY command's operands, its results pass
by pass, and what an array holds between two passes (R95, R102, R112, R138, R219). -/

namespace Sys2Proof.Machine

/-! ### OPERANDS of ARRAY, VECTOR and MOVE (R126, R130, R236) -/

def oM (d : BitVec 1024) : Nat := oBits d 511 480
def oK (d : BitVec 1024) : Nat := oBits d 479 448
def oN (d : BitVec 1024) : Nat := oBits d 447 416
def oBatch (d : BitVec 1024) : Nat := oBits d 415 400
def oOrigin (d : BitVec 1024) : Nat := oBits d 383 352
def oFold (d : BitVec 1024) : Bool := bit d.toNat (512 + 261)
def oAccIn (d : BitVec 1024) : Bool := bit d.toNat (512 + 260)
def oTransB (d : BitVec 1024) : Bool := bit d.toNat (512 + 259)
def oTransA (d : BitVec 1024) : Bool := bit d.toNat (512 + 258)

def oFunc (d : BitVec 1024) : Nat := oBits d 511 504
def oTopK (d : BitVec 1024) : Nat := oBits d 503 496
def oRows (d : BitVec 1024) : Nat := oBits d 479 448
def oCols (d : BitVec 1024) : Nat := oBits d 447 416
def oAlpha (d : BitVec 1024) : Nat := oBits d 415 384
def oBeta (d : BitVec 1024) : Nat := oBits d 383 352
def oEps (d : BitVec 1024) : Nat := oBits d 351 320

def oMoveFunc (d : BitVec 1024) : Nat := oBits d 511 504
def oTable (d : BitVec 1024) : Nat := oBits d 499 448
def oFirst (d : BitVec 1024) : Nat := oBits d 447 439
def oCount (d : BitVec 1024) : Nat := oBits d 438 432
def oLoadCounter (d : BitVec 1024) : Bool := bit d.toNat (512 + 431)

/-- The mode of a descriptor. -/
def dMode (d : BitVec 1024) : Mode :=
  { gang := dGang d, precision := dPrecision d, product := dProduct d, reduce := dReduce d, partition := dPartition d
    group := dGroupSize d }

/-- The descriptor whose work runs: the bracket variant in place of the command's own (R204). -/
def Cmd.run (c : Cmd) : BitVec 1024 := c.variant.getD c.desc

/-! ### Passes (R98, R99) -/

/-- The indices of run j of length t below n. -/
def runAt (n t j : Nat) : List Nat := (List.range t).filterMap fun i => if t * j + i < n then some (t * j + i) else none

/-- Every triple below three bounds, in order. -/
def triples (a b c : Nat) : List (Nat × Nat × Nat) :=
  (List.range a).flatMap fun x => (List.range b).flatMap fun y => (List.range c).map fun z => (x, y, z)

/-- A pass: its output block (problem, chunk of M, tile of N), its tile of K, which of the passes over that tile it is (R118,
R119), and the sub-array that makes it. -/
structure Pass where
  problem : Nat
  chunk   : Nat
  nTile   : Nat
  kTile   : Nat
  part    : Nat
  sub     : Nat
deriving DecidableEq, Repr

/-- The output block of a pass. -/
def Pass.block (p : Pass) : Nat × Nat × Nat := (p.problem, p.chunk, p.nTile)

/-- The output blocks of a command in the order in which the array works through them (R99), problem-major. DEDUCED (log 190). -/
def blockList (d : BitVec 1024) : List (Nat × Nat × Nat) :=
  let md := dMode d
  triples (oBatch d) (ceilDiv (oM d) md.chunk) (ceilDiv (oN d) md.tile)

/-- Passes that each output block takes. -/
def blockPasses (d : BitVec 1024) : Nat := ceilDiv (oK d) (dMode d).tile * (dMode d).passesPerTile

/-- The passes of a command in order: block b goes to sub-array b mod S, and the sub-arrays work side by side (R99). -/
def passList (d : BitVec 1024) : List Pass :=
  let md := dMode d
  let bs := blockList d
  (List.range (ceilDiv bs.length md.subs)).flatMap fun g => (List.range (blockPasses d)).flatMap fun p =>
    (List.range md.subs).filterMap fun u => (bs[g * md.subs + u]?).map fun b =>
      ⟨b.1, b.2.1, b.2.2, p / md.passesPerTile, p % md.passesPerTile, u⟩

/-- All passes, skipped ones included (R99). -/
def passCount (d : BitVec 1024) : Nat := (blockList d).length * blockPasses d

/-- Passes of an output block among the first `n` of a command. -/
def blockDone (d : BitVec 1024) (n : Nat) (b : Nat × Nat × Nat) : Nat :=
  (((passList d).take n).filter fun p => decide (p.block = b)).length

/-! ### Units (R246) -/

/-- The tensor of a context. -/
def State.tensorOf (s : State) (ctx : Nat) : Tensor := ctxTensor (s.ctx ctx).desc

/-- Units of a command: passes, bands of 32 rows of a COPY, steps of 256 elements of a VECTOR row. -/
def State.unitCount (s : State) (c : Cmd) : Nat :=
  let d := c.run
  let op := dOpcode d
  if op = opArray then passCount d
  else if op = opVector then oRows d * ceilDiv (oCols d) 256
  else if op = opMove ∧ oMoveFunc d = 1 then
    let t := s.tensorOf (dCtx d 0)
    t.dim2 * ceilDiv t.dim1 32
  else 1

/-- The line offsets that hold a region of a tensor, each once, in rising order. -/
def regionLines (t : Tensor) (i : Nat) (rows cols : List Nat) : List Nat :=
  (rows.foldl (fun m r => cols.foldl (fun m k => SMap.put m (eltAt t i r k).1 ()) m) ([] : List (Nat × Unit))).map Prod.fst

/-- The plates of a context that a pass uses. -/
def passLines (d : BitVec 1024) (p : Pass) (done : Nat) (t : Tensor) (j : Nat) : List Nat :=
  let md := dMode d
  let ks := runAt (oK d) md.tile p.kTile
  let ms := runAt (oM d) md.chunk p.chunk
  let ns := runAt (oN d) md.tile p.nTile
  match j with
  | 0 => if oTransA d then regionLines t p.problem ks ns else regionLines t p.problem ns ks
  | 1 => if oTransB d then regionLines t p.problem ks ms else regionLines t p.problem ms ks
  | _ =>
    (if oAccIn d ∧ done = 0 then regionLines t p.problem ms ns else []) ++
      (if done + 1 = blockPasses d then regionLines t p.problem ms ns else [])

/-- The plates of a context that a row step uses: outputs narrower than the row leave with its last step. -/
def stepLines (d : BitVec 1024) (u : Nat) (t : Tensor) : List Nat :=
  let steps := ceilDiv (oCols d) 256
  let r := min (u / steps) (t.dim1 - 1)
  if t.dim0 = oCols d then regionLines t 0 [r] (runAt t.dim0 256 (u % steps))
  else if u % steps + 1 = steps then regionLines t 0 [r] (List.range t.dim0) else []

/-- The plates of a context that unit `u` of a command uses, in the order in which the engine issues them. -/
def State.unitPlates (s : State) (c : Cmd) (ctx u : Nat) : List Nat :=
  let d := c.run
  let op := dOpcode d
  let t := s.tensorOf ctx
  if op = opArray then
    match (passList d)[u]? with
    | none => []
    | some p => ([0, 1, 2, 3].filter fun j => decide (dCtx d j = ctx)).flatMap (passLines d p (blockDone d u p.block) t)
  else if op = opVector then stepLines d u t
  else if op = opMove ∧ oMoveFunc d = 1 then
    let bands := ceilDiv t.dim1 32
    regionLines t (u / bands) (runAt t.dim1 32 (u % bands)) (List.range t.dim0)
  else []

/-- POSITION of a context once `n` units have finished (R247). -/
def State.positionAt (s : State) (c : Cmd) (ctx n : Nat) : Nat :=
  ((List.range n).map fun u => (s.unitPlates c ctx u).length).sum

/-- The first unit that uses a plate of a context. -/
def State.unitOf (s : State) (c : Cmd) (ctx line : Nat) : Nat :=
  ((List.range (s.unitCount c)).find? fun u => memN line (s.unitPlates c ctx u)).getD (s.unitCount c - 1)

/-- The plates of a context that finished units have used. -/
def State.usedLines (s : State) (c : Cmd) (ctx n : Nat) : List Nat := (List.range n).flatMap fun u => s.unitPlates c ctx u

/-! ### Operands -/

/-- An operand as it was read. -/
structure Operand where
  ctx  : Nat
  t    : Tensor
  ps   : List (Nat × Plate)
deriving DecidableEq, Repr

/-- A plate passes the epoch check of a command (R190). -/
def epochOk (c : Cmd) (t : Tensor) (p : Plate) : Bool := !isExposed t.fmt || decide (p.epoch = c.epoch)

/-- The cell of an operand. -/
def Operand.cell (o : Operand) (c : Cmd) (i r k : Nat) : Cell := cellAt o.t (epochOk c o.t) o.ps i r k

/-- The raw bits of an element. -/
def Operand.raw (o : Operand) (i r k : Nat) : Nat :=
  let (line, b, _) := eltAt o.t i r k
  match SMap.get? o.ps line with
  | none => 0
  | some p => bits p.data (b + fmtBits o.t.fmt - 1) b

/-- The plates of a context's tensor that can be read at this moment. -/
def State.operandNow (s : State) (ctx : Nat) : Operand :=
  let x := s.ctx ctx
  let t := ctxTensor x.desc
  ⟨ctx, t, (tensorLines t).flatMap fun off => match s.readLines ctx x t [off] [] with
    | .plates l => l
    | _ => []⟩

/-- The operands of an ARRAY command as read; C and D under ACC_IN. -/
structure ArrayIn where
  d    : BitVec 1024
  c    : Cmd
  a    : Operand
  b    : Operand
  cIn  : Option Operand
  dIn  : Option Operand
  /-- problem, tile of N, tile of K of each stationary tile over its nugget cap -/
  badTiles : List (Nat × Nat × Nat)
  /-- problem, row of M, run of 128 along K of each streamed vector over its cap -/
  badVecs  : List (Nat × Nat × Nat)
  /-- the rows and streamed operands of the members that share this command's chunk (R108) -/
  mates    : List (Nat × Operand)
deriving DecidableEq, Repr

/-- An invalid cell (R114). -/
def Cell.invalid : Cell := ⟨.nan, some 255, none⟩

/-- The stationary cell at output column n and reduction index k (R104). -/
def ArrayIn.aAt (x : ArrayIn) (i n k : Nat) : Cell := if oTransA x.d then x.a.cell x.c i k n else x.a.cell x.c i n k
/-- A streamed operand's cell at row m and reduction index k (R104). -/
def ArrayIn.streamed (x : ArrayIn) (o : Operand) (i m k : Nat) : Cell := if oTransB x.d then o.cell x.c i k m else o.cell x.c i m k
/-- The streamed cell at row m and reduction index k. -/
def ArrayIn.bAt (x : ArrayIn) (i m k : Nat) : Cell := x.streamed x.b i m k
/-- The raw stationary bits. -/
def ArrayIn.aRaw (x : ArrayIn) (i n k : Nat) : Nat := if oTransA x.d then x.a.raw i k n else x.a.raw i n k

/-- A tile of the stationary operand over its cap counts as invalid (R112). -/
def ArrayIn.aCell (x : ArrayIn) (i n k : Nat) : Cell :=
  let t := (dMode x.d).tile
  if x.badTiles.any fun b => decide (b = (i, n / t, k / t)) then Cell.invalid else x.aAt i n k
def ArrayIn.bCell (x : ArrayIn) (i m k : Nat) : Cell :=
  if x.badVecs.any fun b => decide (b = (i, m, k / 128)) then Cell.invalid else x.bAt i m k

/-- Stationary tiles with more than 64 nuggets (R112). -/
def ArrayIn.overTiles (x : ArrayIn) : List (Nat × Nat × Nat) :=
  let t := (dMode x.d).tile
  if !x.a.ps.any (fun p => p.2.nugget) then []
  else (triples (oBatch x.d) (ceilDiv (oN x.d) t) (ceilDiv (oK x.d) t)).filter fun p =>
    let n := ((runAt (oN x.d) t p.2.1).flatMap fun n => (runAt (oK x.d) t p.2.2).filter fun k => (x.aAt p.1 n k).nug.isSome).length
    decide (64 < n)

/-- Streamed vectors of 128 elements with more than 16 nuggets (R112). -/
def ArrayIn.overVecs (x : ArrayIn) : List (Nat × Nat × Nat) :=
  if !x.b.ps.any (fun p => p.2.nugget) then []
  else (triples (oBatch x.d) (oM x.d) (ceilDiv (oK x.d) 128)).filter fun p =>
    decide (16 < ((runAt (oK x.d) 128 p.2.2).filter fun k => (x.bAt p.1 p.2.1 k).nug.isSome).length)

/-- The over-full tiles and vectors found. -/
def ArrayIn.capped (x : ArrayIn) : ArrayIn := { x with badTiles := x.overTiles, badVecs := x.overVecs }

/-! ### Skipped passes and invalid blocks (R113, R114) -/

/-- A pass is skipped (R113): PRODUCT 0 and REDUCE 0, a tile or a chunk of only blank blocks and no nugget; a gathered
batch's chunk holds every member's rows (R108). -/
def ArrayIn.skips (x : ArrayIn) (p : Pass) : Bool :=
  let md := dMode x.d
  let ks := runAt (oK x.d) md.tile p.kTile
  decide (md.product = 0 ∧ md.reduce = 0) &&
    (((runAt (oN x.d) md.tile p.nTile).all fun n => ks.all fun k => (x.aCell p.problem n k).isBlank) ||
      (((runAt (oM x.d) md.chunk p.chunk).all fun m => ks.all fun k => (x.bCell p.problem m k).isBlank) &&
        x.mates.all fun o => (List.range o.1).all fun m => ks.all fun k => (x.streamed o.2 p.problem m k).isBlank))

/-- Passes skipped. -/
def ArrayIn.skipped (x : ArrayIn) : Nat := ((passList x.d).filter x.skips).length

/-- An element can take part in a product: a blank block's contributes zero to every sum (R111), and takes part in
differences (R113). -/
def ArrayIn.takes (x : ArrayIn) (c : Cell) : Bool := !c.isBlank || memN (dProduct x.d) [1, 2, 3]

/-- Passes that a command makes: a batch's are those of the first member that runs (R108). -/
def ArrayIn.passesMade (x : ArrayIn) : Nat := if x.c.shared then 0 else passCount x.d - x.skipped

/-- Some product is taken from an invalid block of A, and of B (R114): where such a block stands, at some row along K, an
element of the other operand that takes part. -/
def ArrayIn.invalidA (x : ArrayIn) : Bool :=
  (List.range (oBatch x.d)).any fun i => (List.range (oK x.d)).any fun k =>
    ((List.range (oN x.d)).any fun n => (x.aCell i n k).isInvalid) && (List.range (oM x.d)).any fun m => x.takes (x.bCell i m k)
def ArrayIn.invalidB (x : ArrayIn) : Bool :=
  (List.range (oBatch x.d)).any fun i => (List.range (oK x.d)).any fun k =>
    ((List.range (oM x.d)).any fun m => (x.bCell i m k).isInvalid) && (List.range (oN x.d)).any fun n => x.takes (x.aCell i n k)

/-! ### Results -/

/-- The key of an output element. -/
def eltKey (i m n : Nat) : Nat := (i * 2 ^ 32 + m) * 2 ^ 32 + n

/-- Start of an accumulator entry: zero, or C and D under ACC_IN (R102, R117, R122, R127). -/
def ArrayIn.start (x : ArrayIn) (i m n : Nat) : Option (Fx × Fx) :=
  let v (o : Option Operand) : Option Fx := o.map fun o => (o.cell x.c i m n).value
  if dReduce x.d ≠ 0 then match v x.cIn, v x.dIn with
    | some c, some d => some (c, d)
    | _, _ => none
  else
    let rnd := if dPrecision x.d = 3 then rna64 else rna32
    let at0 (o : Option Fx) : Fx := (o.map rnd).getD Fx.zero
    some (at0 (v x.cIn), if oFold x.d then Fx.zero else at0 (v x.dIn))

/-- An accumulator entry after the passes `lo` to `hi` − 1 of its block: sum and error term, or value and index (R102). -/
def ArrayIn.through (x : ArrayIn) (i m n lo hi : Nat) (st : Option (Fx × Fx)) : Option (Fx × Fx) :=
  let md := dMode x.d
  let ps := ((kPasses md (oK x.d)).take hi).drop lo
  if md.reduce ≠ 0 then extreme md (x.aCell i n) (x.bCell i m) (ps.flatMap Prod.fst) (oOrigin x.d) st
  else
    let r := st.getD (Fx.zero, Fx.zero)
    let e := sumPasses md (decide (fmtGeom (dFmt x.d 1) = .block)) (x.aCell i n) (x.bCell i m) (x.aRaw i n) ps ⟨r.1, r.2⟩
    some (e.sum, e.err)

/-- The finished entry of an output element: from its start, or from what a stop saved (R103, R138). -/
def ArrayIn.entry (x : ArrayIn) (i m n : Nat) : Option (Fx × Fx) :=
  let all := blockPasses x.d
  match SMap.get? x.c.saved (eltKey i m n) with
  | some e => x.through i m n (blockDone x.d x.c.made (i, m / (dMode x.d).chunk, n / (dMode x.d).tile)) all (some e)
  | none => x.through i m n 0 all (x.start i m n)

/-- What C takes at a place (R102, R120, R122). -/
def ArrayIn.outC (x : ArrayIn) (i m n : Nat) : Fx :=
  let r := (x.entry i m n).getD (Fx.zero, Fx.zero)
  if dReduce x.d ≠ 0 then rna32 r.1 else if oFold x.d then Fx.add r.1 r.2 else r.1

/-- What D takes at a place (R120, R122). -/
def ArrayIn.outD (x : ArrayIn) (i m n : Nat) : Fx := ((x.entry i m n).getD (Fx.zero, Fx.zero)).2

/-- The output of C rounds stochastically: its GRADIENT bit is set and its value is converted at all (R102, R162). -/
def stochasticC (d : BitVec 1024) : Bool :=
  dGradient d 2 && (oFold d || decide (dPrecision d = 0 ∧ dFmt d 2 ≠ 0x02))

/-- The format in which an output is formed: that of the accumulators, and none for a folded sum (R102, R120). -/
def accFmt (d : BitVec 1024) : Nat := if oFold d then 0 else if dPrecision d = 3 then 0x01 else 0x02

/-! ### What an array holds between two passes -/

/-- The accumulator entries of every block in progress once `n` passes are made (R102, R138). -/
def ArrayIn.accumulators (x : ArrayIn) (n : Nat) : List (Nat × Fx × Fx) :=
  let md := dMode x.d
  ((blockList x.d).filter fun b => decide (0 < blockDone x.d n b ∧ blockDone x.d n b < blockPasses x.d)).foldl (fun l b =>
    (runAt (oM x.d) md.chunk b.2.1).foldl (fun l m => (runAt (oN x.d) md.tile b.2.2).foldl (fun l k =>
      let e := match SMap.get? x.c.saved (eltKey b.1 m k) with
        | some e => x.through b.1 m k (blockDone x.d x.c.made b) (blockDone x.d n b) (some e)
        | none => x.through b.1 m k 0 (blockDone x.d n b) (x.start b.1 m k)
      SMap.put l (eltKey b.1 m k) (e.getD (Fx.zero, Fx.zero))) l) l) []

/-- The element that a weight slot holds for a pass: a nugget's place holds zero (R112), and the modes that split their
elements load one piece or limb (R118, R119). -/
def ArrayIn.weight (x : ArrayIn) (p : Pass) (n k : Nat) : Fx :=
  let v := (x.aCell p.problem n k).v
  if dPrecision x.d = 2 then (pieces v).getD ((piecePairs.getD p.part (0, 0)).1) Fx.zero
  else if dPrecision x.d = 3 then limb v ((limbPairs.getD p.part (0, 0)).1)
  else v

/-- The weight slots of a pass's tile, by sub-array, row and column of the sub-array's multipliers (R95). -/
def ArrayIn.tileSlots (x : ArrayIn) (p : Pass) : List (Nat × Fx) :=
  let t := (dMode x.d).tile
  (runAt (oK x.d) t p.kTile).flatMap fun k => (runAt (oN x.d) t p.nTile).map fun n =>
    ((p.sub * 128 + k % t) * 128 + n % t, x.weight p n k)

/-- The stationary-nugget registers of a pass's tile (R112). -/
def ArrayIn.tileNuggets (x : ArrayIn) (p : Pass) : List (Nat × Fx) :=
  let t := (dMode x.d).tile
  (runAt (oK x.d) t p.kTile).flatMap fun k => (runAt (oN x.d) t p.nTile).filterMap fun n =>
    (x.aCell p.problem n k).nug.map fun v => ((p.sub * 128 + k % t) * 128 + n % t, v)

/-- The tile in the front slots of each sub-array after `n` passes, and the one in the back slots: the next to be used, or the
one used before (R95). A skipped pass loads nothing. -/
def ArrayIn.tilesAfter (x : ArrayIn) (n : Nat) : List Pass × List Pass :=
  let used (u : Nat) : List Pass := ((passList x.d).take n).filter fun p => decide (p.sub = u) && !x.skips p
  let next (u : Nat) : Option Pass := ((passList x.d).drop n).find? fun p => decide (p.sub = u) && !x.skips p
  let subs := List.range (dMode x.d).subs
  (subs.filterMap fun u => (used u).getLast?,
   subs.filterMap fun u => match next u with
     | some p => some p
     | none => (used u).dropLast.getLast?)

/-- A bank (R219). -/
def mkBank (scale : Nat) : BitVec 264 :=
  BitVec.ofNat 264 (scale * 2 ^ 256 + ((List.range 32).map fun j => frac j * 2 ^ (8 * j)).sum)

/-- The scale codes of the activation groups of one row group of a sub-array, in order (R217, R219). -/
def ArrayIn.groupScales (x : ArrayIn) (u g : Nat) : List Nat :=
  let md := dMode x.d
  let perBlock := decide (fmtGeom (dFmt x.d 1) = .block)
  ((passList x.d).filter fun p => decide (p.sub = u)).flatMap fun p =>
    let ms := runAt (oM x.d) md.chunk p.chunk
    (List.range (ceilDiv ms.length (32 <<< md.group))).map fun r =>
      if perBlock then 127
      else match ms[r * (32 <<< md.group)]? with
        | none => 127
        | some m => ((x.bCell p.problem m (p.kTile * md.tile + 32 * g)).code).getD 127

/-- The banks of each row group after a log-mode command: whether the second is in use, and both (R219). -/
def ArrayIn.banks (x : ArrayIn) : List (Nat × Bool × BitVec 264 × BitVec 264) :=
  let md := dMode x.d
  (List.range md.subs).flatMap fun u => (List.range (md.tile / 32)).filterMap fun g =>
    let l := x.groupScales u g
    let bank (odd : Bool) : BitVec 264 :=
      mkBank ((((l.zip (List.range l.length)).filter fun p => decide ((p.2 % 2 = 1) ↔ odd = true)).getLast?.map Prod.fst).getD 127)
    if l.isEmpty then none else some (4 * u + g, decide (l.length % 2 = 0), bank false, bank true)

/-- Row groups that a log-mode command uses on its array. -/
def rowGroups (d : BitVec 1024) : Nat := (dMode d).subs * ((dMode d).tile / 32)

/-- Banks rebuilt by a log-mode command: one per row group and activation group (R217, R219). -/
def bankCount (d : BitVec 1024) : Nat :=
  let md := dMode d
  let perChunk (j : Nat) : Nat := ceilDiv (runAt (oM d) md.chunk j).length (32 <<< md.group)
  let groups := ((List.range (ceilDiv (oM d) md.chunk)).map perChunk).sum
  oBatch d * ceilDiv (oN d) md.tile * ceilDiv (oK d) 32 * groups

/-- The other members of a command's gathered batch that are still in flight (R108); a variant runs alone (R204). -/
def State.batchMates (s : State) (c : Cmd) : List Cmd :=
  if c.batch.isNone ∨ c.variant.isSome then []
  else s.cmds.filter fun x => decide (x.batch = c.batch) && !decide (x.q = c.q ∧ x.slot = c.slot)

/-- Their rows and streamed operands. -/
def State.matesOf (s : State) (c : Cmd) : List (Nat × Operand) :=
  (s.batchMates c).map fun x => (oM x.desc, s.operandNow (dCtx x.desc 1))

/-- The passes of a batch have been counted. -/
def State.shareBatch (s : State) (c : Cmd) : State :=
  (s.batchMates c).foldl (fun s x => s.setCmd { x with shared := true }) s

/-- An ARRAY command's operands as they can be read at this moment. -/
def State.arrayNow (s : State) (c : Cmd) : ArrayIn :=
  let d := c.run
  ArrayIn.capped ⟨d, c, s.operandNow (dCtx d 0), s.operandNow (dCtx d 1),
    if oAccIn d then some (s.operandNow (dCtx d 2)) else none,
    if oAccIn d ∧ dCtx d 3 ≠ 0 then some (s.operandNow (dCtx d 3)) else none, [], [], s.matesOf c⟩

/-- What an array holds once `n` passes of a command are made: its weight slots, its nugget registers and the running results;
no bank of log mode is kept over a stop (R220). -/
def ArraySt.stopped (a : ArraySt) (x : ArrayIn) (n : Nat) : ArraySt :=
  let t := x.tilesAfter n
  { a with front := t.1.flatMap x.tileSlots, back := t.2.flatMap x.tileSlots, nugFront := t.1.flatMap x.tileNuggets
           nugBack := t.2.flatMap x.tileNuggets, store := x.accumulators n, save := x.accumulators n, banks := [] }

/-- What an array holds when a command's last block has left the tray. -/
def ArraySt.finished (a : ArraySt) (x : ArrayIn) : ArraySt :=
  let t := x.tilesAfter (passCount x.d)
  { a with front := t.1.flatMap x.tileSlots, back := t.2.flatMap x.tileSlots, nugFront := t.1.flatMap x.tileNuggets
           nugBack := t.2.flatMap x.tileNuggets, store := [], banks := if dProduct x.d = 4 then x.banks else a.banks }

end Sys2Proof.Machine
end

