-- ==== Sys2Proof/Machine/Streams.lean ====
section
/-! DEFINITION. Stream contexts and commands in flight (chapter 08): who uses a context, its generations, halts and
their causes, tallies and trace records of a command, how a queue halts (R473) and how a completion record is written
(R79, R472); and the commands of the stream engine that are about one context. -/

namespace Sys2Proof.Machine

/-! ### Records and tallies of a command -/

/-- Trace source and unit of a command's engine (R445). -/
def State.cmdSource (s : State) (c : Cmd) : Nat × Nat :=
  match s.qDie c.q with
  | .f n => (7, n.val)
  | _ => (dEngine c.desc, dShaft c.desc)

/-- A safelight record about a command. -/
def State.traceCmd (s : State) (c : Cmd) (kind a0 a1 : Nat) : State :=
  s.trace (s.qDie c.q) kind (s.cmdSource c).1 (s.cmdSource c).2 (dOperator c.desc) (dLayer c.desc) a0 a1

/-- An engine of a logical shaft is selected and the full-exposure trace is armed (R448). -/
def State.fullOn (s : State) (t g e : Nat) : Bool :=
  decide (s.ob 0x9200 1 = 1) && bit (s.domNat 0x920002 (8 * t) 8) (4 * g + e)

/-- TRACED of a command's completion record (R448). -/
def State.traced (s : State) (c : Cmd) : Bool :=
  match s.qDie c.q with
  | .t n => s.fullOn n.val (dShaft c.desc) (dEngine c.desc)
  | _ => false

/-- A full-exposure record of an engine (R446, R448): its cycle and its time are not modelled, and stand as open values
(log entry 38); how many records its share of the port dropped beside it is open too (R452). -/
def State.fullTrace (s : State) (t g e : Nat) (kind op layer a0 a1 : Nat) : State :=
  if s.fullOn t g e then
    let n := (s.traceBuf t).seq
    let s := s.bumpOpen (okey (0xA000 + 0x100 * t + 0x90) 3)
    s.writeTrace t ⟨BitVec.ofNat 32 a1, BitVec.ofNat 32 a0, BitVec.ofNat 16 op, BitVec.ofNat 16 layer, kind, e, g, true, false,
      s.tickNo % 2 ^ 32, Config.cycles 0x920001 (2 * n) % 2 ^ 32, Config.cycles 0x920001 (2 * n + 1) % 2 ^ 32, 0⟩
  else s

/-- A full-exposure record of a command's engine. -/
def State.fullCmd (s : State) (c : Cmd) (kind a0 a1 : Nat) : State :=
  match s.qDie c.q with
  | .t n => s.fullTrace n.val (dShaft c.desc) (dEngine c.desc) kind (dOperator c.desc) (dLayer c.desc) a0 a1
  | _ => s

/-- An event about a command: its die, operator and layer stand in the record (R64). -/
def State.raiseCmd (s : State) (c : Cmd) (code sev a0 a1 : Nat) : State :=
  s.raiseAt code sev (unitOfDie (s.qDie c.q)) (dOperator c.desc) (dLayer c.desc) a0 a1

/-- A fresh tally. -/
def Tally.fresh : Tally := ⟨0, 0, 0, 0, 0, 0, false⟩

/-- Key of tally k of logical shaft g of Trify die t. -/
def tallyKey (t g k : Nat) : Nat := (t * 16 + g) * 64 + k

/-- Selector of a tally (R439). -/
def State.tallySel (s : State) (t g k : Nat) : Nat :=
  s.domNat (okey (0xA000 + 0x100 * t + 0x80) 1) (4 * (64 * g + k)) 4

/-- The tallies of one engine: change each enabled one with the given function of its event (R441). -/
def State.tallyMap (s : State) (t g engine : Nat) (f : Nat → Tally → Tally) : State :=
  (List.range 64).foldl (fun s k =>
    let e := s.tallySel t g k
    if bit e 21 ∧ bits e 23 22 = engine then
      { s with obs := { s.obs with tallies := SMap.upd Tally.fresh s.obs.tallies (tallyKey t g k) (f (bits e 31 24)) } }
    else s) s

/-- A command's engine tallies; a Fixer die has none. -/
def State.tallyCmd (s : State) (c : Cmd) (f : Nat → Tally → Tally) : State :=
  match s.qDie c.q with
  | .t n => s.tallyMap n.val (dShaft c.desc) (dEngine c.desc) f
  | _ => s

/-- Count events of a command: live saturates at 2^48 − 1 (R441). -/
def State.tally (s : State) (c : Cmd) (ev n : Nat) : State :=
  s.tallyCmd c fun e x => if e = ev then { x with live := satN 48 (x.live + n) } else x

/-- The first cycle of a command resets live (R442). -/
def State.tallyStart (s : State) (c : Cmd) : State := s.tallyCmd c fun _ x => { x with live := 0 }

/-- A command boundary: print takes live and the tags of the completed command (R442). -/
def State.tallyPrint (s : State) (c : Cmd) (desc : BitVec 1024) (dropped : Bool) : State :=
  s.tallyCmd c fun _ x =>
    { x with print := x.live, tag := BitVec.ofNat 64 (dTag desc), step := BitVec.ofNat 32 (dStep desc),
             layer := BitVec.ofNat 16 (dLayer desc), op := BitVec.ofNat 16 (dOperator desc), dropped := dropped }

/-! ### Causes of the round (R194) -/

/-- Post a verdict cause to the round in progress (R193, R194). -/
def State.postCause (s : State) (b : Nat) : State :=
  { s with step := { s.step with causes := s.step.causes ||| 2 ^ b } }

/-! ### Contexts in use -/

/-- A command that has been admitted and is not complete. -/
def Cmd.active (c : Cmd) : Bool :=
  match c.phase with
  | .fetched => false
  | .gathered => false
  | _ => true

/-- The command is bound to a context. -/
def Cmd.names (c : Cmd) (ctx : Nat) : Bool := c.bound.any fun b => decide (b.1 = ctx)

/-- The commands in flight that are bound to a context. -/
def State.users (s : State) (ctx : Nat) : List Cmd := s.cmds.filter fun c => c.active && c.names ctx

/-- A context's current generation is outstanding (R232). -/
def State.outstanding (s : State) (ctx : Nat) : Bool :=
  decide (0 < (s.ctx ctx).tags) || !(s.heldRemote ctx).isEmpty || !(s.users ctx).isEmpty

/-- A generation that stops being outstanding retires (R232); with a shadow, the shadow takes effect in a step of its
own (R233). -/
def State.retire (s : State) (ctx : Nat) : State :=
  let x := s.ctx ctx
  if s.outstanding ctx ∨ x.shadow.isSome then s else s.setCtx ctx { x with doneGen := x.gen }

/-- The contexts of a command that has left the machine: each is IDLE again unless another command uses it. -/
def State.releaseCtxs (s : State) (c : Cmd) : State :=
  c.bound.foldl (fun s b =>
    let x := s.ctx b.1
    if (s.users b.1).isEmpty then
      (s.setCtx b.1 { x with state := .idle, causes := [], reserved := 0, got := [], faultPage := none }).retire b.1
    else s) s

/-- A descriptor takes effect (R232): GENERATION increments, STATE is IDLE, POSITION and HALT_CAUSE are 0. -/
def Ctx.arm (x : Ctx) (d : BitVec 364) (draw : Option (BitVec 84)) : Ctx :=
  { x with desc := d, draw := draw.getD x.draw, gen := x.gen + 1, state := .idle, position := 0, causes := [] }

/-- The descriptor that checks use: the shadow where one is pending (R238). -/
def Ctx.newest (x : Ctx) : BitVec 364 := match x.shadow with
  | some d => d.1
  | none => x.desc

/-! ### Time on an engine (R83) -/

/-- The engine a command runs on. -/
def State.engineOf (s : State) (c : Cmd) : Nat := ekey (s.qDie c.q) (dShaft c.desc) (dEngine c.desc)

/-- MHz at which a die's cycles are counted: the granted array clock; 4,000 for a Fixer die. -/
def State.clockMHz (s : State) (d : Die) : Nat := if d.kind = 1 then s.reg (dkeyOf d 0x20 1) else 4000

/-- The commands admitted for an engine. -/
def State.onEngine (s : State) (k : Nat) : List Cmd := s.cmds.filter fun c => decide (c.phase = .admitted) && decide (s.engineOf c = k)

/-- ns since the boundary that a moment of this tick names; the work window opens at 2 µs. -/
def State.sinceNow (s : State) (m : Nat × Nat) : Nat := if m.1 = s.tickNo then max 2000 m.2 else 2000

/-- Cycles that an admitted command has run by `now` ns in the tick: an engine runs its commands in the order of their
admission, each from when the one before it left. DEDUCED (log 51). -/
def State.elapsed (s : State) (c : Cmd) (now : Nat) : Nat :=
  let k := s.engineOf c
  if c.phase ≠ .admitted ∨ (s.onEngine k).any (fun x => decide (x.turn < c.turn)) then 0
  else (now - max (s.sinceNow c.since) (s.sinceNow (s.engine k).freed)) * s.clockMHz (s.qDie c.q) / 1000

/-- An engine is left at this moment. -/
def State.freeEngine (s : State) (c : Cmd) : State :=
  let k := s.engineOf c
  s.setEngine k { s.engine k with freed := (s.tickNo, s.tick.now) }

/-- A command begins on its engine at this moment, after those admitted before it. -/
def State.begin (s : State) (c : Cmd) : Cmd :=
  { c with since := (s.tickNo, s.tick.now)
           turn := (s.cmds.filter fun x => decide (s.engineOf x = s.engineOf c)).foldl (fun n x => max n x.turn) 0 + 1 }

/-! ### Halting (R245–R249) -/

/-- The physical shaft a command runs on. -/
def State.physCmd (s : State) (c : Cmd) : Nat × Nat := ((s.qDie c.q).num, s.physOf (s.qDie c.q).num (dShaft c.desc))

/-- The key of the physical array that a command runs on. -/
def State.arrayOf (s : State) (c : Cmd) : Nat := akey (s.physCmd c).1 (s.physCmd c).2 (dEngine c.desc)

/-- Cycles of a stop bath out of an old setting (R134). -/
def bathCc (setting : Nat) : Nat :=
  match bits setting 10 9 with
  | 0 => 280
  | 1 => 152
  | _ => 88

/-- The setting that the first tile of a command needs a stop bath out of: the one that the physical array last ran, where it
differs in gang, precision, product, reduce or partition (R133). -/
def State.bathFrom (s : State) (c : Cmd) : Option Nat :=
  (s.array (s.arrayOf c)).setting.filter fun old => !decide (bits old 10 0 = bits (dSetting c.run) 10 0)

/-- Before the first tile of a command its array takes its setting, by a stop bath where it differs (R133, R134); the banks of
log mode are built anew after one (R220). -/
def State.stopBath (s : State) (c : Cmd) : State :=
  let k := s.arrayOf c
  let new := dSetting c.run
  match s.bathFrom c with
  | none => s.setArray k { s.array k with setting := some new }
  | some old =>
    let s' := s.setArray k { s.array k with setting := some new, banks := [] }
    let s := ((s'.bump (okey 0x3900 1) 1).bump (okey 0x3900 2) (bathCc old)).tally c 4 (bathCc old)
    s.traceCmd c 7 old new

/-- A command has begun to run: it is the first of those admitted to its engine. -/
def State.begun (s : State) (c : Cmd) : Bool :=
  decide (c.phase = .admitted) && !c.worked && !(s.onEngine (s.engineOf c)).any fun x => !x.worked && decide (x.turn < c.turn)

/-- Units finished when a command stops (R246): one that has not begun has finished no more, another some number of them (a
free value) short of the unit that needs the plate at fault, or of the last. -/
def State.stopMade (s : State) (c : Cmd) (begun : Bool) (fault : Option (Nat × Nat)) : Nat :=
  if begun then
    let top := match fault with
      | some f => s.unitOf c f.1 (f.2 - (s.tensorOf f.1).base)
      | none => s.unitCount c - 1
    max c.made (min top (Config.unitsMade s.tickNo c.q c.slot))
  else c.made

/-- What a stop leaves in the array of a command whose work has not run (R135, R138): a stop bath under way completes, and the
entries of the blocks in progress are saved. -/
def State.stopWork (s : State) (c : Cmd) (begun : Bool) (fault : Option (Nat × Nat)) : State × Cmd :=
  if c.worked then (s, c)
  else
    let n := s.stopMade c begun fault
    if dOpcode c.run = opArray ∧ begun then
      let s := s.stopBath c
      let x := s.arrayNow c
      let k := s.arrayOf c
      (s.setArray k ((s.array k).stopped x n), { c with made := n, saved := x.accumulators n })
    else (s, { c with made := n })

/-- A context at a stop (R247): POSITION is the first plate of the first unit that has not finished, and what had arrived
beyond it is discarded. -/
def State.stopCtx (s : State) (c : Cmd) (k : Nat) : Ctx :=
  let x := s.ctx k
  let n := if c.worked then s.unitCount c else c.made
  let base := (ctxTensor x.desc).base
  { x with position := s.positionAt c k n
           got := if x.got.isEmpty then [] else
             let used := s.usedLines c k n
             x.got.filter fun g => memN (g.1 - base) used }

/-- A command that a stop caught under way goes on: its array takes back the entries saved (R138), and in log mode builds the bank
of each row group anew (R220). -/
def State.restoreArray (s : State) (c : Cmd) : State :=
  if dOpcode c.run = opArray ∧ !c.worked ∧ 0 < c.made then
    let k := s.arrayOf c
    let s := s.setArray k { s.array k with store := c.saved }
    if dProduct c.run = 4 then s.bump (okey 0x3800 4) (rowGroups c.run) else s
  else s

/-- The command is to run again from unit `n` on (R247): its outputs from there, with their draws and contributions, are still to
come, and the POSITION of each of the contexts given moves back. -/
def State.rerun (s : State) (c : Cmd) (n : Nat) (ctxs : List Nat) : State :=
  let s := ctxs.foldl (fun s k => s.setCtx k { s.ctx k with position := s.positionAt c k n }) s
  s.setCmd { c with worked := false, made := n, saved := [], draws := [], posts := [] }

/-- A halt stops the whole command at its next stopping point (R246, R247): every context shows HALTED, `hit` records the
cause, and the reservation is given up. `fault` is the context and address of a plate at fault. -/
def State.haltCmd (s : State) (c : Cmd) (hit : Nat) (cause : Cause) (fault : Option (Nat × Nat)) : State :=
  let s := if c.phase = .halted then s else (s.bump (okey 0x4130 1) 1).tally c 0x10 1
  let (s, c) := s.stopWork c (s.begun c) fault
  let s := c.bound.foldl (fun s b =>
    let x := { s.stopCtx c b.1 with state := .halted, reserved := 0 }
    (s.unwant b.1).setCtx b.1 (if b.1 = hit then { x with causes := if x.causes.any (fun k => decide (k = cause)) then x.causes
                                                       else cause :: x.causes } else x)) s
  let s := (s.setCmd { c with phase := .halted, haltTick := some (c.haltTick.getD s.tickNo)
                              consumed := c.consumed + s.elapsed c s.tick.now }).freeEngine c
  s.traceCmd c 5 hit (highestCause (s.ctx hit).causes)

/-- A translation fault (R265): the stream halts with TRANSLATION and waits for the page; with no backing STREAM_FAULT is raised,
and it waits for the host (R250). -/
def State.haltPage (s : State) (c : Cmd) (ctx addr : Nat) (write : Bool) : State :=
  let s := s.haltCmd c ctx .translation (some (ctx, addr))
  let s := s.traceCmd c 0x0B ctx (addrHi addr)
  if s.access addr write = .noBacking then s.raiseCmd c 0x4101 1 ctx (addrHi addr)
  else
    let x := s.ctx ctx
    s.setCtx ctx { x with faultPage := some (s.pageStart addr) }

/-- A memory error (R249): the stream halts with MEMORY, its command is to complete with DISCARDED_FOR_REPLAY, and the
MEMORY cause is posted. -/
def State.haltMemory (s : State) (c : Cmd) (ctx addr : Nat) : State :=
  let s := s.haltCmd c ctx .memory (some (ctx, addr))
  let s := s.setCmd { (s.cmd? c.q c.slot).getD c with phase := .done, status := 0x23, worked := false }
  (s.postCause 5).raiseCmd c 0x4102 2 ctx (addrHi addr)

/-- A request that finds its page not present: a page that could not be copied out halts with MEMORY (R266), any other
with TRANSLATION. -/
def State.haltFault (s : State) (c : Cmd) (ctx addr : Nat) (write : Bool) : State :=
  if memN (s.pageStart addr) s.page.dead then s.haltMemory c ctx addr else s.haltPage c ctx addr write

/-- What a failed check of a plate counts and raises before its stream halts (R159, R271): check 0 is a stored
uncorrectable error. Arguments: context and address. -/
def State.badPlate (s : State) (c : Cmd) (ctx addr check : Nat) : State :=
  match check with
  | 0 => s.memUe addr
  | 6 => s.stopeUe ctx addr
  | 1 => (s.bump (okey 0x3000 2) 1).raiseCmd c 0x3001 2 (bits addr 51 39 * 2 ^ 18 + ctx) (bits addr 38 7)
  | k => (s.bump (okey 0x3000 3) 1).raiseCmd c 0x3002 2 ((k - 2) * 2 ^ 16 + bits addr 51 39) (bits addr 38 7)

/-- Clear one cause of a context. -/
def State.clearCause (s : State) (ctx : Nat) (cause : Cause) : State :=
  let x := s.ctx ctx
  s.setCtx ctx { x with causes := x.causes.filter fun k => !decide (k = cause) }

/-- Every cause of a command has cleared (R245). -/
def State.causesClear (s : State) (c : Cmd) : Bool := c.bound.all fun b => (s.ctx b.1).causes.isEmpty

/-! ### Tags (R241, R254) -/

/-- Tags a context asks for at admission in a class: 0 read, 1 write, 2 remote (R254). -/
def State.tagNeed (s : State) (ctx cls : Nat) : Nat :=
  let d := (s.ctx ctx).desc
  if cStope d then 0
  else if cModule d ≠ s.moduleId then (if cls = 2 then (if cDir d = 2 then 16 else 8) else 0)
  else if cls = 0 then (if cDir d = 1 then 0 else 8)
  else if cls = 1 then (if cDir d = 0 then 0 else 8)
  else 0

/-- Tags of each class (R241). -/
def tagClass (cls : Nat) : Nat := if cls = 0 then 1536 else if cls = 1 then 512 else 2048

/-- The command in progress of a context reads local memory. -/
def State.readsLocal (s : State) (ctx : Nat) : Bool :=
  decide (s.tagNeed ctx 0 ≠ 0) && (s.users ctx).any fun c => decide (c.phase = .admitted) && !c.worked

/-- Read tags that a context holds at this moment: how many plates are on their way, the model does not time (log 193). -/
def State.heldRead (s : State) (ctx : Nat) : Nat :=
  if s.readsLocal ctx then Config.cycles 0x412001 ((s.tickNo * 2 ^ 32 + s.tick.now) * 2 ^ 18 + ctx) % 1537 else 0

/-- Tags that a context holds in a class (R241): a plate written holds one until it is acknowledged, as far as there are. -/
def State.heldIn (s : State) (ctx cls : Nat) : Nat :=
  if cls = 0 then s.heldRead ctx else if cls = 1 then min (s.ctx ctx).tags 512 else (s.heldRemote ctx).length

/-- OUTSTANDING_TAGS (R257). -/
def State.heldTags (s : State) (ctx : Nat) : Nat := min 4096 (s.heldIn ctx 0 + s.heldIn ctx 1 + s.heldIn ctx 2)

/-- Tags reserved or held in a class by the contexts of an engine (R254). -/
def State.tagsUsed (s : State) (t g cls : Nat) : Nat :=
  min (tagClass cls) (s.ctxs.map fun (p : Nat × Ctx) =>
    if ctxDie p.1 = t ∧ ctxShaft p.1 = g then
      max (if p.2.reserved = 0 then 0 else s.tagNeed p.1 cls) (s.heldIn p.1 cls)
    else 0).sum

/-- The tags a command needs can be reserved (R254). -/
def State.tagsFree (s : State) (t g : Nat) (ctxs : List Nat) : Bool :=
  [0, 1, 2].all fun cls =>
    let need := (ctxs.map fun c => s.tagNeed c cls).sum
    decide (need = 0 ∨ s.tagsUsed t g cls + need ≤ tagClass cls)

/-- Reserve a command's tags and show its contexts RUNNING. -/
def State.runCtxs (s : State) (c : Cmd) : State :=
  c.bound.foldl (fun s b =>
    let x := s.ctx b.1
    s.setCtx b.1 { x with state := .running, causes := [],
                          reserved := s.tagNeed b.1 0 + s.tagNeed b.1 1 + s.tagNeed b.1 2 }) s

/-! ### Queues that halt (R473) -/

/-- A queue's STATE becomes 2: REFUSED_SLOT and the event (R473), with the operator and layer of the command it is for. -/
def State.haltQueueAt (s : State) (q reason slot ev op layer : Nat) : State :=
  let s := (s.setReg (qkey q 6) 2).setReg (qkey q 9) slot
  s.raiseAt 0x4001 2 (unitOfDie (s.qDie q)) op layer (reason * 256 + q) ev

/-- A queue halts for no one command. -/
def State.haltQueue (s : State) (q reason slot ev : Nat) : State := s.haltQueueAt q reason slot ev 0 0

/-- The batches being gathered with the members that stay; a batch left without one is gone. -/
def gatherKeep (p : Nat × Nat → Bool) (l : List Gather) : List Gather :=
  (l.map fun g => { g with members := g.members.filter p }).filter fun g => !g.members.isEmpty

/-- Fetched commands of a queue that are not admitted are put back: HEAD returns to the first of them (R78). -/
def State.putBack (s : State) (q : Nat) : State :=
  let mine (c : Cmd) : Bool := decide (c.q = q) && !c.active
  match s.cmds.find? mine with
  | none => s
  | some c =>
    let slot := (s.cmds.filter mine).foldl
      (fun a x => if (s.qHead q + 2 ^ 32 - a) % 2 ^ 32 < (s.qHead q + 2 ^ 32 - x.slot) % 2 ^ 32 then x.slot else a) c.slot
    let s := { s with cmds := s.cmds.filter fun c => !mine c
                      eng := s.eng.map fun (p : Nat × EngineSt) =>
                        (p.1, { p.2 with gather := gatherKeep (fun g => decide (g.1 ≠ q)) p.2.gather }) }
    s.setReg (qkey q 8) slot

/-- A running queue halts with what it had fetched put back: REFUSED_SLOT is HEAD. -/
def State.stopQueue (s : State) (q reason : Nat) : State :=
  if s.qState q = 1 then
    let s := s.putBack q
    s.haltQueue q reason (s.qHead q) (s.qHead q)
  else s

/-! ### Completion records (R79, R472) -/

/-- Address of the record of a slot. -/
def State.recordAddr (s : State) (q slot : Nat) : Nat := s.qCompl q + 16 * (slot % s.qSize q)

/-- The 128 bits of a completion record (R472). -/
def State.recordBytes (s : State) (c : Cmd) (status : Nat) : Bytes :=
  leBytes 16 (dTag c.desc * 2 ^ 64 + (s.tickNo % 2 ^ 32) * 2 ^ 32 + min c.overruns 255 * 2 ^ 24 + b2n (s.traced c) * 2 ^ 23 +
    b2n (decide (c.slot / s.qSize c.q % 2 = 0)) * 2 ^ 15 + status)

/-- Write the completion record of a command: count and interrupt when its page serves; lost, with the queue halted,
when it cannot be served (R472). -/
def State.writeRecord (s : State) (c : Cmd) (status : Nat) : State :=
  let a := s.recordAddr c.q c.slot
  match s.access a true, s.physLine a with
  | .served, some p =>
    let s := (s.store (p.data + a % 128) (s.recordBytes c status)).markDirty a
    let s := s.setQst c.q { s.qst c.q with count := (s.qst c.q).count + 1 }
    if dIrq c.desc then s.msix (s.qob c.q 5) else s
  | _, _ =>
    let s := s.putBack c.q
    s.haltQueue c.q 3 (s.qHead c.q) c.slot

/-- A completion record has to wait for its page (R472). -/
def State.recordWaits (s : State) (q slot : Nat) : Bool := decide (s.access (s.recordAddr q slot) true = .absent)

/-- The draws that a command took move its contexts' INDEX and count (R169, R177). -/
def State.takeDraws (s : State) (c : Cmd) : State :=
  let s := c.draws.foldl (fun s d =>
    let x := s.ctx d.1
    (s.setCtx d.1 { x with draw := mkDraw (drawIndex x.draw + d.2) (drawStep x.draw) (drawOrdinal x.draw) }).bump
      (okey 0x3000 4) d.2) s
  c.draws.foldl (fun s d => s.tally c 0x16 d.2) s

/-- Bytes of a held row (R307). -/
def heldBytes (e fmt : Nat) : Nat :=
  let c2 := match fmt with
    | 0x12 => 1
    | 0x10 => 2
    | 0x02 => 8
    | _ => 0
  128 * ceilDiv ((12 + c2) * gCols e * 9) (16 * 128) + 128

/-- With no step muster no verdict ends an attempt (R308): an applied UPDATE that leaves the machine, completed or not, gives up
what it held in its die's hold area. DEDUCED (log 195). -/
def State.leaveFixer (s : State) (c : Cmd) : State :=
  if dOpcode c.desc ≠ opUpdate ∨ c.passes ≠ 3 ∨ s.stepMuster.isSome then s
  else
    let f := (s.qDie c.q).num
    let die := Die.ofIx (48 + f)
    let e := s.group f (oGroup c.desc)
    let x := s.fixer f
    let s := s.setFixer f { x with holds := x.holds.filter fun h => !decide (h.group = oGroup c.desc) }
    let s := s.setReg (dkeyOf die 0x41 1) (s.reg (dkeyOf die 0x41 1) - 1)
    if gTouched e then
      s.setReg (dkeyOf die 0x41 2) (s.reg (dkeyOf die 0x41 2) - oRowCount c.desc * heldBytes e (SMap.get 0 c.expo 0))
    else s

/-- The record of a command is out and the command leaves the machine: its tallies print (R442), its draws move INDEX
(R169), its contexts are released. -/
def State.leave (s : State) (c : Cmd) (status : Nat) : State :=
  let s := s.traceCmd c 2 c.q status
  let s := (((s.leaveFixer c).dropCmd c.q c.slot).freeEngine c).takeDraws c
  let last := match c.batch with
    | none => true
    | some b => !s.cmds.any fun x => decide (x.batch = some b)
  let s := if last then s.tallyPrint c ((c.batch.map fun b => b.2.2).getD c.desc) (decide (status = 0x23 ∨ status = 0x20))
           else s
  s.releaseCtxs c

/-- A command that completes without more work of its own (a fence, the end of a job, a broken muster, a retired shaft):
its record is written, or waits for its page with the status kept. -/
def State.finish (s : State) (c : Cmd) (status : Nat) : State :=
  if s.recordWaits c.q c.slot then s.setCmd { c with phase := .done, status := status }
  else (s.writeRecord c status).leave c status

/-! ### Commands about one context -/

/-- The command bound to a context that is the one in progress. -/
def State.userOf (s : State) (ctx : Nat) : Option Cmd := (s.users ctx).head?

/-- A shadow takes effect when the old generation has retired (R233). -/
def shadowTakeEffect (ctx : Nat) (s : State) : State :=
  let x := s.ctx ctx
  match x.shadow with
  | none => s
  | some (d, draw) =>
    if s.outstanding ctx then s
    else
      let old := x.gen
      s.setCtx ctx { x.arm d draw with shadow := none, doneGen := old }

def execShadowTakeEffect (ctx : BitVec 18) (s : State) : Answer := done s (shadowTakeEffect ctx.toNat s)

/-- The offset of an address within a context's tensor, when a line of it stands there. -/
def lineOffset (t : Tensor) (addr : Nat) : Option Nat := (tensorLines t).find? fun off => decide (t.base + off = addr)

/-- A corrected read is counted; an HBM3E line is rewritten with what it held (R270, R274). -/
def State.corrected (s : State) (addr : Nat) : State :=
  s.bump (if eTier (s.entryAt addr) = 0 then okey 0x4430 1 else okey 0x4430 3) 1

/-- TAG_ISSUE and TAG_RETURN of one plate read, on the stream engine of the context (R446). The tags of the module's own memory
have no numbers in this model: such a tag and the round trip are open values. -/
def State.tagRecords (s : State) (c : Cmd) (ctx addr : Nat) (tag : Option Nat) : State :=
  let t := ctxDie ctx
  let g := ctxShaft ctx
  if s.fullOn t g 3 then
    let n := (s.traceBuf t).seq
    let tag := tag.getD (Config.cycles 0x41 n % 2048)
    (s.fullTrace t g 3 0x43 (dOperator c.desc) (dLayer c.desc) tag (bits addr 38 7)).fullTrace t g 3 0x44 (dOperator c.desc)
      (dLayer c.desc) tag (Config.cycles 0x0E n % 2 ^ 32)
  else s

/-- An exposed plate of a discarded attempt (R352): its epoch lies 1 to 8 behind. -/
def State.stale (s : State) (pl : Plate) : Bool :=
  let d := (s.epoch + 32 - pl.epoch) % 32
  isExposed pl.fmt && decide (1 ≤ d ∧ d ≤ 8)

/-- A reply to a read over a link (R239, R241): its tag is free; a plate that is still wanted is checked and kept, one of a discarded
attempt is dropped and counted (R352). One that fails its check is counted and told, and its tag waits for the link's retry (R159). -/
def State.remoteReply (s₀ : State) (e n : Nat) (u : TagUse) (b : Bytes) : State :=
  let s := s₀.freeRtag e n
  let x := s.ctx u.ctx
  let t := ctxTensor x.desc
  match s.userOf u.ctx, lineOffset t u.addr with
  | some c, some off =>
    let s := s.tagRecords c u.ctx u.addr (some n)
    let p := Plate.ofBytes b 0
    if !u.want ∨ !s.remote t ∨ c.phase = .done then s
    else if s.stale p then s.bump (okey 0x5120 5) 1
    else match plateCheck t.fmt none (lineInBlock t off) p with
      | 0 => s.setCtx u.ctx { s.ctx u.ctx with got := SMap.put (s.ctx u.ctx).got u.addr b }
      | k => s₀.badPlate c u.ctx u.addr k
  | _, _ => s

/-- A plate of the module's own memory or stope is read for command `c` (R247, R270, R271, R277): an error it cannot correct, or a failed check of
the plate (R159), halts the command. -/
def State.localRead (s : State) (c : Cmd) (ctx addr : Nat) (ecc : Ecc) (t : Tensor) (off : Nat) : State :=
  if c.phase = .done then s
  else if t.stope then match ecc with
    | .clean => s
    | .corrected => s.bump (okey (0xA000 + 0x100 * ctxDie ctx + 0x70) 3) 1
    | .uncorrectable => (s.stopeUe ctx addr).haltMemory c ctx addr
  else if s.remote t then s
  else match s.physLine addr with
    | none => s
    | some pl =>
      match ecc with
      | .uncorrectable => (s.memUe addr).haltMemory c ctx addr
      | _ =>
        let s := if ecc = .corrected then s.corrected addr else s
        if s.lineErr pl.data then (s.memUe addr).haltMemory c ctx addr
        else
          let s := s.sawWhere fun k => decide (k = pl.data)
          match plateCheck t.fmt (some addr) (lineInBlock t off) (s.plateAt pl) with
          | 0 => s
          | k => (s.badPlate c ctx addr k).haltMemory c ctx addr

/-- A reply over a link is taken for the tag its reuse count names (R251), when that tag is held for a read of this plate. -/
def State.remoteRead (s : State) (ctx addr : Nat) (held : Option (Nat × Nat × TagUse)) (b : Bytes) : State :=
  match held with
  | some (e, n, u) => if u.ctx = ctx ∧ u.addr = addr ∧ u.write = false then s.remoteReply e n u b else s
  | none => s

/-- A plate read from a tier or over a link arrives for the command bound to a context (R239): a reply of another reuse
count is discarded (R251); an uncorrectable error or a failed check halts the stream. -/
def plateReadReply (ctx addr : Nat) (ecc : Ecc) (rem : Option RemReply) (s : State) : State :=
  match rem with
  | some r => s.remoteRead ctx addr (s.tagOf (streamReqId ctx r.tag.toNat r.reuse)) r.bytes
  | none =>
    let t := ctxTensor (s.ctx ctx).desc
    match s.userOf ctx, lineOffset t addr with
    | some c, some off =>
      (s.tagRecords c ctx addr none).localRead c ctx addr ecc t off
    | _, _ => s

def execPlateReadReply (ctx : BitVec 18) (addr : BitVec 52) (ecc : Ecc) (rem : Option RemReply) (s : State) :
    Answer := done s (plateReadReply ctx.toNat addr.toNat ecc rem s)

/-- One plate of a context's command is acknowledged (R240). -/
def State.plateAcked (s : State) (ctx : Nat) : State :=
  match s.userOf ctx with
  | none => s.retire ctx
  | some c => s.setCmd { c with unacked := c.unacked - 1 }

/-- A write of a plate has failed after the command's stop or while it ran (R247): the command, halted by now, stays halted, and
POSITION moves back to the start of that plate's unit. -/
def State.lateFault (s : State) (c : Cmd) (ctx addr : Nat) : State :=
  match s.cmd? c.q c.slot with
  | none => s
  | some h => if h.phase = .done then s else s.rerun h (s.unitOf h ctx (addr - (s.tensorOf ctx).base)) [ctx]

/-- A tier acknowledges a plate (R240), or the write faults late: the cause is recorded and the command halts (R247). -/
def writeAck (ctx addr : Nat) (faulted : Bool) (s : State) : State :=
  let x := s.ctx ctx
  if x.tags = 0 then s
  else
    let s := (s.setCtx ctx { x with tags := x.tags - 1 }).plateAcked ctx
    match s.userOf ctx with
    | none => s
    | some c => if faulted ∧ c.phase ≠ .done then (s.haltFault c ctx addr true).lateFault c ctx addr else s

def execWriteAck (ctx : BitVec 18) (addr : BitVec 52) (faulted : Bool) (s : State) : Answer :=
  done s (writeAck ctx.toNat addr.toNat faulted s)

/-- A deadlock's cause clears once every other command of the set has left (R256). -/
def State.deadlockOver (s : State) (c : Cmd) : Bool := c.waitsFor.all fun w => (s.cmd? w.1 w.2).isNone

/-- The causes of a halted command that its surroundings have ended: DEADLOCK once the others have left (R256), LINK where
the route is usable again (R251). -/
def State.dropCleared (s : State) (c : Cmd) : State :=
  let s := if s.deadlockOver c then c.bound.foldl (fun s b => s.clearCause b.1 .deadlock) s else s
  c.bound.foldl (fun s b => if s.routeUsable (cModule (s.ctx b.1).desc) then s.clearCause b.1 .link else s) s

/-- A halted command may resume: nothing holds it but the tags it needs (R245, R248). -/
def State.mayGoOn (s : State) (c : Cmd) : Bool := decide (c.phase = .halted) && (s.dropCleared c).causesClear c

/-- A halted command whose causes have cleared resumes (R245, R248): it reserves tags again, is admitted, and issues again what
had not arrived. -/
def streamResume (q slot : Nat) (s : State) : State :=
  match s.cmd? q slot with
  | none => s
  | some c =>
    if c.phase ≠ .halted then s
    else
      let s := s.dropCleared c
      if s.causesClear c ∧ s.tagsFree (s.qDie q).num (dShaft c.desc) (c.bound.map Prod.fst) then
        let c := s.begin { c with phase := .admitted, haltTick := none, staleTold := false, waitsFor := [] }
        let s := ((s.runCtxs c).setCmd c).restoreArray c
        let s := c.bound.foldl (fun s b => s.askRemote b.1) s
        match c.bound with
        | [] => s
        | b :: _ => s.traceCmd c 6 b.1 0
      else s

def execStreamResume (q : Fin 128) (slot : BitVec 32) (s : State) : Answer := done s (streamResume q.val slot.toNat s)

/-- A halt that has not cleared after HALT_STALE_TICKS raises STREAM_HALT_STALE once (R250). -/
def streamHaltStale (ctx : Nat) (s : State) : State :=
  match s.userOf ctx with
  | none => s
  | some c =>
    if c.phase = .halted ∧ !c.staleTold ∧ (c.haltTick.getD s.tickNo) + s.ob 0x4100 3 ≤ s.tickNo ∧
        !(s.ctx ctx).causes.isEmpty then
      (s.setCmd { c with staleTold := true }).raiseCmd c 0x4105 2 ctx (highestCause (s.ctx ctx).causes)
    else s

def execStreamHaltStale (ctx : BitVec 18) (s : State) : Answer := done s (streamHaltStale ctx.toNat s)

/-- A lost link or a late remote tag halts a stream with LINK (R251). -/
def State.haltLink (s : State) (c : Cmd) (ctx : Nat) : State :=
  (s.haltCmd c ctx .link none).raiseCmd c 0x4104 2 ctx (cModule (s.ctx ctx).desc)

/-- A remote tag without a reply in time: counted, its reuse count moves on, the stream halts (R251). Of a context's tags the
one with the lowest number is meant, a wanted one before another; one that is not wanted is only free again. -/
def remoteTimeout (ctx : Nat) (s : State) : State :=
  let l := s.heldRemote ctx
  match (l.filter fun u => u.2.want) ++ l with
  | [] => s
  | (n, u) :: _ =>
    let s := (s.freeRtag (streamKey ctx) n).bump (okey 0x4130 6) 1
    match s.userOf ctx with
    | none => s.retire ctx
    | some c =>
      if !u.want ∨ c.phase = .done then s
      else
        let s := s.haltLink c ctx
        if u.write then s.lateFault c ctx u.addr else s

def execRemoteTimeout (ctx : BitVec 18) (s : State) : Answer := done s (remoteTimeout ctx.toNat s)

/-- The highest context number a command is bound to. -/
def Cmd.topCtx (c : Cmd) : Nat := c.bound.foldl (fun a b => max a b.1) 0

/-- What the state shows of a command that has been blocked on space through two windows (R255): it was there before them, and some
plate of its contexts has still to move. The rest of the judgement is the engine's (log 194). -/
def State.blockedLong (s : State) (c : Cmd) : Bool := decide (c.fetchTick + 2 ≤ s.tickNo) && (!c.worked || decide (c.unacked ≠ 0))

/-- A deadlocked set of commands of one engine: the one with the highest context number halts with DEADLOCK (R255,
R256). -/
def deadlockDetect (t g : Nat) (blocked : List (Fin 128 × BitVec 32)) (s : State) : State :=
  let set := blocked.filterMap fun b => s.cmd? b.1.val b.2.toNat
  let here (c : Cmd) : Bool :=
    decide (c.phase = .admitted) && decide (s.qDie c.q = Die.ofIx t) && decide (dShaft c.desc = g) && !c.bound.isEmpty
  if set.length < 2 ∨ set.length ≠ blocked.length ∨ !set.all here ∨ !set.all s.blockedLong then s
  else
    let top := set.foldl (fun a c => max a c.topCtx) 0
    match set.find? fun c => decide (c.topCtx = top) with
    | none => s
    | some c =>
      let others := (set.filter fun x => !decide (x.q = c.q ∧ x.slot = c.slot)).map fun x => (x.q, x.slot)
      let c := { c with waitsFor := others, unacked := 0 }
      let s := c.bound.foldl (fun s b => let x := s.ctx b.1; s.setCtx b.1 { x with tags := 0 }) s
      let s := (s.haltCmd c top .deadlock none).bump (okey 0x4130 2) 1
      let s := match s.cmd? c.q c.slot with
        | some h => if h.worked then s.rerun h (min (s.unitCount h - 1) (Config.unitsMade s.tickNo h.q h.slot)) (h.bound.map Prod.fst) else s
        | none => s
      s.raiseCmd c 0x4103 1 top set.length

def execDeadlockDetect (die : Fin 32) (shaft : Fin 16) (blocked : List (Fin 128 × BitVec 32)) (s : State) : Answer :=
  done s (deadlockDetect die.val shaft.val blocked s)

end Sys2Proof.Machine
end

