-- ==== Sys2Proof/Machine/Steering.lean ====
section
/-! DEFINITION. Statistics, the step muster's rider, the step verdict, exposure and precision steering (chapter 06). -/

namespace Sys2Proof.Machine

/-! ### Records -/

/-- The steering record of a layer (R207). -/
def State.steer (s : State) (l : Nat) : Nat := if l < 4096 then s.domNat 0x315001 (32 * l) 32 else 0
def State.setSteer (s : State) (l v : Nat) : State := s.setDomNat 0x315001 (32 * l) 32 v

def stSteered (r : Nat) : Bool := bit r 79
def stPin (r : Nat) : Bool := bit r 80
def stThresh (r : Nat) : Nat := bits r 83 81
def stGap (r : Nat) : Nat := bits r 87 84
def stRung (r : Nat) (bwd : Bool) : Nat := if bwd then bits r 59 56 else bits r 55 52
def stMin (r : Nat) (bwd : Bool) : Nat := if bwd then bits r 71 68 else bits r 63 60
def stMax (r : Nat) (bwd : Bool) : Nat := if bwd then bits r 75 72 else bits r 67 64
def stHigh (r : Nat) (bwd : Bool) : Nat := if bwd then bits r 103 96 else bits r 95 88
def stQuiet (r : Nat) (bwd : Bool) : Nat := if bwd then bits r 143 128 else bits r 127 112
def stSustain (r : Nat) : Nat := bits r 111 104
def stQuietPeriod (r : Nat) : Nat := bits r 159 144
def stHeld (r : Nat) : Nat := bits r 191 160
def stCount (r : Nat) : Nat := bits r 203 199
def stPtr (r : Nat) : Nat := bits r 255 204

/-- The nugget gap of a statistics layer (R183). -/
def State.gapOf (s : State) (l : Nat) : Nat := if l < 4096 then stGap (s.steer l) else 3

/-- A threshold of a set at a rung, as a number: base 1 UP, 6 DOWN, 11 BRACKET (R208). -/
def State.threshold (s : State) (set base rung : Nat) : Fx := f32.decode (s.ob (0x3160 + set) (base + rung))

/-- The exposure slot entry (R188). -/
def State.expo (s : State) (k : Nat) : Nat := s.domNat 0x312001 (8 * k) 8
def State.setExpo (s : State) (k v : Nat) : State := s.setDomNat 0x312001 (8 * k) 8 v
def exCode (e : Nat) : Nat := bits e 63 56
def exStart (e : Nat) : Nat := bits e 55 48
def exWindow (e : Nat) : Nat := bits e 47 44
def exHeadroom (e : Nat) : Nat := bits e 43 42
def exGrad (e : Nat) : Bool := bit e 41
def exFirst (e : Nat) : Bool := bit e 40
def exEnabled (e : Nat) : Bool := bit e 39
def exFill (e : Nat) : Nat := bits e 38 34

/-! ### Statistics (R180–R182) -/

/-- rna_f32(F64(SUM_ERR2) ÷ F64(SUM_X2)), none when the divisor is zero (R182, R209). -/
def relMse (err2 x2 : BitVec 64) : Option Fx :=
  let d := dec64 x2
  if d.isZero then none else some (rna32 (Fx.div (dec64 err2) d))

/-- A sum rounded RNA to F64. -/
def sumF64 (x : Dy) : BitVec 64 := enc64 (rna64 x.toFx)

/-- The 64 bytes of a layer statistics record (R182). -/
def Stat.record (a : Stat) : Bytes :=
  let e := sumF64 a.err2
  let x := sumF64 a.x2
  let rel := (relMse e x).getD Fx.zero
  leBytes 4 (satN 32 a.nonfinite) ++ leBytes 4 (satN 32 a.nugOver) ++ leBytes 4 (satN 32 a.nuggets) ++
    leBytes 4 (satN 32 a.overs) ++ leBytes 4 (satN 32 a.under) ++ leBytes 4 (satN 32 a.overBlk) ++
    leBytes 4 (satN 32 a.blank) ++ leBytes 4 (satN 32 a.blocks) ++ leBytes 4 (enc32 rel).toNat ++
    leBytes 4 (enc32 (upF32 a.amax)).toNat ++ leBytes 8 (satN 64 a.values) ++ leBytes 8 x.toNat ++ leBytes 8 e.toNat

/-- The home Drift die has frozen this module's part and the next attempt has not begun. -/
def State.partFrozen (s : State) : Bool := s.step.part.isSome

/-- A contribution joins the tables, its totals and the NONFINITE cause (R181, R194). -/
def State.join (s : State) (p : Post) : State :=
  let s := if 0 < p.stat.nonfinite then s.postCause 2 else s
  let s := if 0 < p.stat.nuggets then s.bump (okey 0x3130 1) p.stat.nuggets else s
  let s := if 0 < p.stat.nugOver then s.bump (okey 0x3130 2) p.stat.nugOver else s
  let st := s.step
  let stats := if p.layer < 4096 then SMap.upd Stat.zero st.stats (8 * p.layer + p.role) (fun a => a.join p.stat)
               else st.stats
  let slots := match p.slot with
    | none => st.slots
    | some k => SMap.upd Stat.zero st.slots k (fun a => a.join p.stat)
  { s with step := { st with stats := stats, slots := slots } }

/-- A late statistic (R193): the LATE cause, the count and the event. -/
def State.lateStat (s : State) (unit : BitVec 32) (op step layer : Nat) : State :=
  ((s.postCause 8).bump (okey 0x3100 0x0C) 1).raiseAt 0x3106 2 unit op layer step layer

/-- Opcodes that the step gate holds (R197). -/
def stepGated (op : Nat) : Bool := memN op [opArray, opVector, opMove, opUpdate]

/-- What a conversion counts beside its statistics: clamped scales, non-finite values written as zero (R153, R165). -/
def State.convCounts (s : State) (o : TensorOut) : State :=
  let s := if 0 < o.clamps then s.bump (okey 0x3000 6) o.clamps else s
  if 0 < o.zeroed then s.bump (okey 0x3000 7) o.zeroed else s

/-- Post one contribution of a command (R181, R193): one of another attempt, or after the module's part, is late; a command that no
attempt holds posts to the round in progress. -/
def State.postOne (s : State) (c : Cmd) (p : Post) : State :=
  let late := s.stepMuster.isSome && stepGated (dOpcode c.desc) && (s.partFrozen || !decide (dStep c.desc = s.curStep))
  (if late then s.lateStat (unitOfDie (s.qDie c.q)) (dOperator c.desc) (dStep c.desc) p.layer else s).join p

/-- Post a completed command's contributions (R181) and count them in its tallies (R440). -/
def State.postStats (s : State) (c : Cmd) : State :=
  c.posts.foldl (fun s p =>
    ((((s.postOne c p).tally c 0x12 p.stat.blank).tally c 0x13 p.stat.under).tally c 0x14 p.stat.overs).tally c 0x15
      p.stat.nuggets) s

/-- Set the bracket or escalation flag of a layer and direction in the round (R204, R205). -/
def State.postFlag (s : State) (layer : Nat) (bwd bracket : Bool) : State :=
  { s with step := { s.step with flags := (layer, bwd, bracket, !bracket) :: s.step.flags } }

/-! ### The rider (R193) -/

/-- The statistics of a layer's direction: roles 0 and 1 forward, 2 and 3 backward (R179). -/
def State.dirStat (s : State) (l : Nat) (bwd : Bool) : Stat :=
  let r := if bwd then 2 else 0
  (SMap.get Stat.zero s.step.stats (8 * l + r)).join (SMap.get Stat.zero s.step.stats (8 * l + r + 1))

/-- The layers with STEERED set. -/
def State.steered (s : State) : List Nat := (List.range 4096).filter fun l => stSteered (s.steer l)

/-- This module's rider part (R193). -/
def State.riderPart (s : State) : Rider :=
  { flags := BitVec.ofNat 32 s.step.causes
    slots := s.step.slots.map fun p =>
      { slot := p.1, amax := enc32 (upF32 p.2.amax), values := p.2.values, nonzero := p.2.nonzero, overs := p.2.overs,
        under := p.2.under }
    layers := s.steered.flatMap fun l => [false, true].map fun b =>
      let a := s.dirStat l b
      { layer := l, backward := b, err2 := sumF64 a.err2, x2 := sumF64 a.x2
        bracket := s.step.flags.any fun f => decide (f.1 = l ∧ f.2.1 = b) && f.2.2.1
        escalated := s.step.flags.any fun f => decide (f.1 = l ∧ f.2.1 = b) && f.2.2.2 } }

/-- Freeze the table into the module's part, copy it to LAYER_STATS and clear it (R182, R193). -/
def State.freezePart (s : State) (round : Nat) : State :=
  let part := s.riderPart
  let s := s.step.stats.foldl (fun s p => s.setDom 0x314001 (64 * p.1) p.2.record) (s.clearDom 0x314001)
  let s := s.setReg (okey 0x3140 2) round
  { s with step := { s.step with stats := [], slots := [], causes := 0, flags := [], part := some part } }

/-- The larger of two F32 magnitudes. -/
def maxF32 (a b : BitVec 32) : BitVec 32 := if Fx.lt (dec32 a) (dec32 b) then b else a

/-- Two riders combined: flags OR, slots by maximum and sum, layers one RNA addition at a time (R193). -/
def riderJoin (a b : Rider) : Rider :=
  { flags := a.flags ||| b.flags
    slots := b.slots.foldl (fun l y =>
      if l.any fun x => decide (x.slot = y.slot) then
        l.map fun x => if x.slot = y.slot then
            { x with amax := maxF32 x.amax y.amax, values := x.values + y.values, nonzero := x.nonzero + y.nonzero,
                     overs := x.overs + y.overs, under := x.under + y.under }
          else x
      else l ++ [y]) a.slots
    layers := b.layers.foldl (fun l y =>
      if l.any fun x => decide (x.layer = y.layer ∧ x.backward = y.backward) then
        l.map fun x => if x.layer = y.layer ∧ x.backward = y.backward then
            { x with err2 := enc64 (rna64 (Fx.add (dec64 x.err2) (dec64 y.err2)))
                     x2 := enc64 (rna64 (Fx.add (dec64 x.x2) (dec64 y.x2)))
                     bracket := x.bracket || y.bracket, escalated := x.escalated || y.escalated }
          else x
      else l ++ [y]) a.layers }

/-- Parts by module ID, ascending. -/
def partInsert (p : Nat × Rider) : List (Nat × Rider) → List (Nat × Rider)
  | [] => [p]
  | q :: t => if p.1 ≤ q.1 then p :: q :: t else q :: partInsert p t

/-- The combined rider at the root (R193). -/
def combineParts (l : List (Nat × Rider)) : Rider :=
  match l.foldr partInsert [] with
  | [] => ⟨0, [], []⟩
  | p :: t => t.foldl (fun a q => riderJoin a q.2) p.2

/-! ### The release (R189, R195, R209) -/

/-- OVEREXPOSED above SAT_THRESHOLD × VALUES, exactly (R195). -/
def overThreshold (n total : Nat) (t : Fx) : Bool :=
  Dy.lt (Dy.mul (Fx.toDy t) (Dy.ofNat total)) (Dy.ofNat n)

/-- Entries of a slot's exposure record, newest first (R189). -/
def State.expoRecord (s : State) (k : Nat) : List (BitVec 32) :=
  (List.range (exFill (s.expo k))).map fun i => BitVec.ofNat 32 (s.domNat 0x312002 (64 * k + 4 * i) 4)

/-- Push an AMAX into a slot's record (R189). -/
def State.pushExpo (s : State) (k : Nat) (amax : BitVec 32) : State :=
  let l := (amax :: s.expoRecord k).take 16
  let s := s.setDom 0x312002 (64 * k) (l.flatMap fun v => leBytes 4 v.toNat)
  s.setExpo k (setBits (s.expo k) 38 34 l.length)

/-- The largest of a list of F32 magnitudes. -/
def maxList (l : List (BitVec 32)) : BitVec 32 := l.foldl maxF32 0

/-- The code of R189 for a maximum and a headroom: none when the maximum is zero; whether it was clamped. -/
def expoCode (grad : Bool) (m : BitVec 32) (h : Nat) : Option (Nat × Bool) :=
  match dec32 m with
  | .inf _ => some (254, true)
  | .nan => none
  | x =>
    let d := Fx.toDy x
    if d.m = 0 then none
    else
      let e := leastExp (d.scale h) (Dy.ofNat (if grad then 57344 else 448))
      if e < -126 then some (1, true) else if 127 < e then some (254, true) else some ((e + 127).toNat, false)

/-- Verdict kinds (R211). -/
def vPass : Nat := 1
def vReplay : Nat := 2
def vAbandon : Nat := 3

/-- The causes and the verdict of a round (R195): touched slots that saturate, that underflow. -/
def State.verdictOf (s : State) (r : Rider) : Nat × Nat × List Nat × List Nat :=
  let st := f32.decode (s.ob 0x3110 1)
  let ut := f32.decode (s.ob 0x3110 2)
  let sat := (r.slots.filter fun x => overThreshold x.overs x.values st).map RiderSlot.slot
  let und := (r.slots.filter fun x => overThreshold x.under x.nonzero ut).map RiderSlot.slot
  let first := r.slots.any fun x => exFirst (s.expo x.slot) && decide (exFill (s.expo x.slot) = 0)
  let causes := r.flags.toNat ||| (if sat.isEmpty then 0 else 1) ||| (if und.isEmpty then 0 else 2) |||
    (if first then 128 else 0)
  let v := if causes = 0 then vPass
           else if s.step.forceAbandon then vAbandon
           else if s.ordinal < s.ob 0x3100 3 then vReplay else vAbandon
  (v, causes, sat, und)

/-- One layer's direction under the default policy (R209): the counters and the rung that follow. -/
def State.policy (s : State) (v : Nat) (y : RiderLayer) : Nat × Nat × Nat :=
  let r := s.steer y.layer
  let b := y.backward
  let m := relMse y.err2 y.x2
  let rung := stRung r b
  let up := s.threshold (stThresh r) 1 rung
  let down := s.threshold (stThresh r) 6 rung
  let high := match m with
    | some m => if v = vPass then (if Fx.lt up m then min (stHigh r b + 1) 255 else 0) else stHigh r b
    | none => stHigh r b
  let upNow := y.bracket || y.escalated || (decide (v = vPass) && m.isSome && decide (stSustain r ≤ high))
  if upNow then (0, 0, if !stPin r ∧ rung < stMax r b then rung + 1 else rung)
  else match m with
    | some m =>
      if v ≠ vPass then (high, stQuiet r b, rung)
      else if Fx.lt m down then
        let q := stQuiet r b + 1
        if stQuietPeriod r ≤ q then (high, 0, if !stPin r ∧ stMin r b < rung then rung - 1 else rung)
        else (high, q, rung)
      else (high, 0, rung)
    | none => (high, stQuiet r b, rung)

/-- One layer's direction under the policy that runs: the default one, or a policy image's, whose choice is open within
the layer's limits (R209). -/
def State.policyRun (s : State) (v : Nat) (y : RiderLayer) : Nat × Nat × Nat :=
  match s.sec.policy with
  | none => s.policy v y
  | some ver =>
    let r := s.steer y.layer
    let b := y.backward
    let m := Config.policyMove ver s.curStep (2 * y.layer + b2n b)
    (m.1 % 256, m.2.1 % 65536, if stPin r then stRung r b else max (stMin r b) (min (stMax r b) m.2.2))

/-- The codes of every touched slot at a release (R189), each record pushed and each clamp counted. -/
def State.exposeAt (s : State) (v : Nat) (sat und : List Nat) (r : Rider) : State × List (Nat × Nat) :=
  r.slots.foldl (fun (acc : State × List (Nat × Nat)) x =>
    let s := acc.1.pushExpo x.slot x.amax
    let e := s.expo x.slot
    let (m, h) :=
      if v = vReplay ∧ memN x.slot sat then (x.amax, exHeadroom e)
      else if v = vReplay ∧ memN x.slot und then (x.amax, 0)
      else (maxList ((s.expoRecord x.slot).take (exWindow e + 1)), exHeadroom e)
    match expoCode (exGrad e) m h with
    | none => (s, acc.2)
    | some (code, clamped) =>
      ((if clamped then s.bump (okey 0x3000 6) 1 else s), acc.2 ++ [(x.slot, code)])) (s, [])

/-- SLOT_ROUND of the round that ends (R211). -/
def State.showSlots (s : State) (r : Rider) : State :=
  r.slots.foldl (fun s x =>
    s.setDom 0x312003 (40 * x.slot) (leBytes 8 x.values ++ leBytes 8 x.nonzero ++ leBytes 8 x.overs ++ leBytes 8 x.under ++
      leBytes 4 x.amax.toNat ++ leBytes 4 0)) (s.clearDom 0x312003)

/-- The release of a step-muster round: verdict, codes and steering are fixed here and take effect at the next boundary
(R195, R196). -/
def State.stepRelease (s : State) (r : Rider) : State :=
  let (v, causes, sat, und) := s.verdictOf r
  let moves := if v = vAbandon then [] else
    (r.layers.filter fun y => stSteered (s.steer y.layer)).map fun y => (y, s.policyRun v y)
  let (s, codes) := s.exposeAt v sat und r
  let s := s.showSlots r
  { s with step := { s.step with
      combined := some r
      verdict := some { kind := v, step := s.curStep, causes := causes, codes := codes
                        rungs := (moves.filter fun m => !decide (m.2.2.2 = stRung (s.steer m.1.layer) m.1.backward)).map
                          fun m => (m.1.layer, m.1.backward, m.2.2.2)
                        counters := moves.map fun m => (m.1.layer, m.1.backward, m.2.1, m.2.2.1) } } }

/-! ### Taking effect (R196, R198, R235) -/

/-- New exposure codes become current and EPOCH advances (R190, R196). -/
def State.applyCodes (s : State) (v : Verdict) : State :=
  let s := v.codes.foldl (fun s p =>
    let e := s.expo p.1
    if exCode e = p.2 then s else (s.setExpo p.1 (setBits e 63 56 p.2)).bump (okey 0x3120 4) 1) s
  s.setReg (okey 0x3100 6) ((s.epoch + 1) % 32)

/-- Steering counters and rungs change; each rung change is counted and told (R210). -/
def State.applyRungs (s : State) (v : Verdict) : State :=
  let s := v.counters.foldl (fun s c =>
    let r := s.steer c.1
    let r := if c.2.1 then setBits (setBits r 103 96 c.2.2.1) 143 128 c.2.2.2
             else setBits (setBits r 95 88 c.2.2.1) 127 112 c.2.2.2
    s.setSteer c.1 r) s
  v.rungs.foldl (fun s c =>
    let r := s.steer c.1
    let s := s.setSteer c.1 (if c.2.1 then setBits r 59 56 c.2.2 else setBits r 55 52 c.2.2)
    (s.bump (okey 0x3150 6) 1).raiseAt 0x3107 0 0 0 c.1 c.1 (b2n c.2.1 * 256 + c.2.2)) s

/-- A context returns to what it held when the failed attempt began (R235). -/
def Ctx.rewind (x : Ctx) : Ctx :=
  { x with desc := x.saved.1, shadow := x.saved.2.1, gen := x.gen + 1, doneGen := x.gen
           state := if x.saved.2.2 then .empty else .idle, causes := [], position := 0, tags := 0, reserved := 0
           faultPage := none, got := [] }

/-- A context remembers what it holds at the boundary at which an attempt begins (R235). -/
def Ctx.save (x : Ctx) : Ctx := { x with saved := (x.desc, x.shadow, decide (x.state = .empty)) }

/-- A command belongs to the step that is replayed. -/
def State.ofStep (s : State) (c : Cmd) : Bool := decide (dStep c.desc = s.curStep)

/-- A VERDICT command that waits for the verdict of the step in progress (R199). -/
def State.waitingVerdict (s : State) (c : Cmd) : Bool :=
  decide (dOpcode c.desc = opVerdict ∧ c.phase = .fetched) && s.ofStep c

/-- Queues rewind (R198): unfinished commands of the step are stopped without a record, every running queue's HEAD
returns to its STEP_START, and what it had fetched past it is put back; a waiting VERDICT stays, to discard what is held
(R199). -/
def State.rewindQueues (s : State) : State :=
  let start (q : Nat) : Option Nat := if s.qState q = 1 then SMap.get? (s.qst q).starts s.curStep else none
  let s' := { s with cmds := s.cmds.filter fun c =>
                       (!s.ofStep c && (c.active || (start c.q).isNone)) || s.waitingVerdict c
                     }
  let s' := { s' with eng := s'.eng.map fun (p : Nat × EngineSt) =>
                        (p.1, { p.2 with gather := gatherKeep (fun g => (s'.cmd? g.1 g.2).isSome) p.2.gather }) }
  (List.range 128).foldl (fun s q =>
    match start q with
    | some h => s.setReg (qkey q 8) h
    | none => s) s'

/-- Contexts rewind, and no reply to a tag of the attempt is used (R235). -/
def State.rewindCtxs (s : State) : State :=
  { s with ctxs := s.ctxs.map fun (p : Nat × Ctx) => (p.1, p.2.rewind), eng := s.eng.map fun (p : Nat × EngineSt) => (p.1, p.2.discard)
           step := { s.step with rewinds := s.step.rewinds + 1 } }

/-- A new attempt begins: contexts are saved, the round's rider is forgotten, its tick is noted (R235, R323). -/
def State.beginAttempt (s : State) : State :=
  { s with ctxs := s.ctxs.map fun (p : Nat × Ctx) => (p.1, p.2.save)
           step := { s.step with part := none, others := [], combined := none, attemptTick := s.tickNo, ratios := []
                                 history := s.step.history ++ [(s.curStep, s.tickNo)] }
           fix := s.fix.map fun (p : Nat × FixSt) => (p.1, { p.2 with admitted := [] }) }

/-- The results of the attempt that ends are not to be committed (R309). -/
def State.dropApplied (s : State) : State :=
  { s with fix := s.fix.map fun (p : Nat × FixSt) => (p.1, { p.2 with applied := [] }) }

/-- The update-to-weight ratio of a layer, none when nothing was posted for it (R314). -/
def ratioOf (d w : Dy) : Fx :=
  if w.m = 0 then (if d.m = 0 then Fx.zero else .inf false)
  else rna32 (rna64 (Fx.sqrt (rna64 (Fx.div (rna64 d.toFx) (rna64 w.toFx)))))

/-- The ratios of the step that passes, with their limits (R314). -/
def State.passRatios (s : State) : State :=
  s.step.ratios.foldl (fun s p =>
    let r := enc32 (ratioOf p.2.1 p.2.2)
    let s := s.setDom 0x604001 (8 * p.1) (leBytes 4 r.toNat ++ leBytes 4 (s.curStep % 2 ^ 32))
    let lim := s.domNat 0x604002 (4 * p.1) 4
    if !(f32.decode lim).isZero ∧ Fx.lt (f32.decode lim) (dec32 r) then s.raise 0x6006 1 p.1 r.toNat else s) s

/-- The tables that a module section holds (R327): exposure slots, exposure records, steering. -/
def sectionTables : List Nat := [0x312001, 0x312002, 0x315001]

/-- The home Drift die copies the module section of the step that passes; two copies alternate (R329). -/
def State.copySection (s : State) (step : Nat) : State :=
  let cells := s.dom.filter fun c => memN (c.1 / 16777216) sectionTables
  { s with step := { s.step with sections := SMap.put s.step.sections (step % 2) (step, s.epoch, cells) } }

/-- A PASS takes effect: CURRENT_STEP increments, ORDINAL is 0, queues start the next step (R196, R198). -/
def State.stepPass (s : State) : State :=
  let s := (s.passRatios).setReg (okey 0x3100 4) ((s.curStep + 1) % 2 ^ 32)
  let s := s.setReg (okey 0x3100 5) 0
  let s := { s with que := s.que.map fun (p : Nat × QueueSt) =>
                      (p.1, { p.2 with starts := p.2.starts.filter fun (x : Nat × Nat) => decide (s.curStep ≤ x.1) }) }
  s.beginAttempt

/-- A REPLAY takes effect (R196, R198, R235). -/
def State.stepReplay (s : State) : State :=
  let s := s.setReg (okey 0x3100 5) (s.ordinal + 1)
  let s := (s.rewindQueues.rewindCtxs.dropApplied).bump (okey 0x3100 0x0A) 1
  s.beginAttempt

/-- Commands that a predicate picks are given a phase. -/
def State.rephase (s : State) (p : Cmd → Bool) (f : Phase) : State :=
  { s with cmds := s.cmds.map fun (c : Cmd) => if p c then { c with phase := f } else c }

/-- An ABANDON takes effect: every queue halts with reason 5 (R196, R473); a waiting VERDICT is not put back, for it
discards at this boundary (R199). -/
def State.stepAbandon (s : State) (v : Verdict) : State :=
  let keep : List (Nat × Nat) := (s.cmds.filter fun c => s.waitingVerdict c).map fun c => (c.q, c.slot)
  let s := s.rephase (fun c => s.waitingVerdict c) .admitted
  let s := (List.range 128).foldl (fun s q => s.stopQueue q 5) s
  let s := s.rephase (fun c => keep.any fun k => decide (k = (c.q, c.slot))) .fetched
  let s := s.dropApplied.bump (okey 0x3100 0x0B) 1
  (s.raise 0x3102 3 v.step v.causes).beginAttempt

/-- The verdict record in objects 0x3100.07–0x3100.09 and the VERDICT trace record (R196, R446). -/
def State.showVerdict (s : State) (v : Verdict) : State :=
  let s := ((s.setReg (okey 0x3100 7) v.kind).setReg (okey 0x3100 8) v.step).setReg (okey 0x3100 9) v.causes
  let home := match s.stepMuster with
    | some m => Die.ofIx (32 + bits (s.domNat 0x401001 (8 * m) 8) 39 36)
    | none => Die.ofIx 32
  let s := s.trace home 0x0A 6 home.num 0 0 v.step v.causes
  if v.kind = vReplay then s.raise 0x3101 1 v.step v.causes else s

/-- The verdict fixed at the release takes effect (R196). -/
def State.verdictEffect (s : State) : State :=
  match s.step.verdict with
  | none => { s with step := { s.step with inEffect := none } }
  | some v =>
    let s := { s with step := { s.step with verdict := none, inEffect := some (v.kind, v.step) } }
    let s := s.applyCodes v
    let s := if v.kind = vPass then s.stepPass else if v.kind = vReplay then s.stepReplay else s.stepAbandon v
    let s := s.applyRungs v
    let s := if v.kind = vPass then s.copySection v.step else s
    s.showVerdict v

/-! ### Rows that write an object -/

/-- INJECT_REPLAY posts the INJECTED cause (R201). -/
def State.injectReplay (s : State) : State := s.postCause 9

/-- HELD_STEP_WRITE sets one layer's HELD_STEP (R211). -/
def State.heldStepWrite (s : State) (v : Nat) : State :=
  let l := bits v 43 32
  s.setSteer l (setBits (s.steer l) 191 160 (bits v 31 0))

/-! ### The bracket test (R202) -/

/-- The command's direction is backward when any operand has its GRADIENT bit set. -/
def dBackward (d : BitVec 1024) : Bool := [0, 1, 2, 3].any fun j => dGradient d j

/-- The bracket triggers: the layer is steered and the record of the attempt in progress exceeds the threshold of its
present rung (R202). -/
def State.bracketTriggers (s : State) (c : Cmd) : Bool :=
  let l := dLayer c.desc
  let r := s.steer l
  let b := dBackward c.desc
  let a := SMap.get Stat.zero s.step.stats (8 * l + if b then 2 else 0)
  decide (dOpcode c.desc = opArray ∧ l < 4096) && stSteered r &&
    (match relMse (sumF64 a.err2) (sumF64 a.x2) with
      | some m => Fx.lt (s.threshold (stThresh r) 11 (stRung r b)) m
      | none => false)

/-! ### Formats and rungs (R206, R210) -/

/-- The rung's format class of R206. -/
def rungFormats (rung : Nat) (bwd : Bool) : List Nat :=
  match rung with
  | 0 => [0x0E, 0x08, 0x09, 0x0A, 0x10, 0x11, 0x12, 0x13, 0x14, 0x15, 0x16, 0x17]
  | 1 => [0x12, 0x13]
  | 2 => if bwd then [0x11, 0x15] else [0x10, 0x14]
  | 3 => [0x04]
  | 4 => [0x02]
  | _ => []

/-- An operand is out of its rung (R206, R210): an ARRAY's A or B in another class than the rung's, at rung 0 A in other than L4 or B
in L4; any other operand in a scaled format of the ladder that is another rung's. A gradient is held against the backward
formats. DEDUCED (log 25). -/
def offRung (op rung : Nat) (grad : Bool) (fmt j : Nat) : Bool :=
  if op = opArray ∧ j < 2 then
    !memN fmt (rungFormats rung grad) || (decide (rung = 0) && !decide ((fmt = 0x0E) ↔ (j = 0)))
  else memN fmt [0x0E, 0x10, 0x11, 0x12, 0x13, 0x14, 0x15] && !memN fmt (rungFormats rung grad)

/-- A command of a steered layer whose formats disagree with its rung is counted once (R210). -/
def State.countRung (s : State) (d : BitVec 1024) : State :=
  let l := dLayer d
  let r := s.steer l
  if l < 4096 ∧ stSteered r ∧ memN (dOpcode d) [opArray, opVector, opMove, opUpdate] ∧
      (([0, 1, 2, 3] : List Nat).any fun j => decide (dFmt d j ≠ 0) && offRung (dOpcode d) (stRung r (dBackward d)) (dGradient d j) (dFmt d j) j) then
    s.bump (okey 0x3150 4) 1
  else s

end Sys2Proof.Machine
end

