-- ==== Sys2Proof/Machine/Reduce.lean ====
section
/-! DEFINITION. Routes and messages of the Drift links (R345–R347, R358), in-flight reduction (R362–R365), and where the
plates that a command writes go (R240, R362). -/

namespace Sys2Proof.Machine

/-! ### Ports and routes -/

/-- REQUEST_ID of a Drift die about a muster. -/
def musterReqId (home muster : Nat) : Nat := 2 * 2 ^ 29 + home * 2 ^ 24 + muster

/-! ### The reduction table (R362) -/

def rBase (e : Nat) : Nat := bits e 255 204
def rLines (e : Nat) : Nat := bits e 203 188
def rContrib (e : Nat) : Nat := bits e 187 176 + 1
def rSlot (e : Nat) : Nat := bits e 175 164
def rLayer (e : Nat) : Nat := bits e 163 152
def rGrad (e : Nat) : Bool := bit e 151
def rEnabled (e : Nat) : Bool := bit e 150

/-- Entry k of Drift die d. -/
def State.redEntry (s : State) (d k : Nat) : Nat := s.domNat (okey (0xC000 + 0x80 * d + 0x40) 1) (32 * k) 32

/-- The Drift die and entry whose range holds a line address (R362): ranges of enabled entries never overlap. -/
def State.reduceAt (s : State) (a : Nat) : Option (Nat × Nat) :=
  (List.range 16).findSome? fun d => (List.range 256).findSome? fun k =>
    let e := s.redEntry d k
    if rEnabled e ∧ rBase e ≤ a ∧ a < rBase e + 128 * rLines e then some (d, k) else none

/-- Key of a line accumulator. -/
def redKey (d k line : Nat) : Nat := (d * 256 + k) * 16384 + line

/-- A clear accumulator. -/
def RedLine.fresh : RedLine := ⟨List.replicate 128 0, List.replicate 4 false, 0, 0⟩

/-- The integer v × 2^q of an element (R363). -/
def redInt (grad : Bool) (raw : Nat) : Int :=
  match decodeElt (if grad then .e5m2 else .e4m3) raw with
  | .fin sg m e =>
    let n := shl m (e + if grad then 16 else 9)
    if sg then -(n : Int) else n
  | _ => 0

/-- A scale code takes part in the sum: blank, or the slot's current code (R363). -/
def codeFits (code current : Nat) : Bool := decide (code ≠ 255 ∧ (code = 0 ∨ code = current))

/-- One arriving plate added to its line (R363). -/
def redAdd (grad epochOk : Bool) (current : Nat) (p : Plate) (l : RedLine) : RedLine :=
  let code (j : Nat) : Nat := bits p.scale (8 * j + 7) (8 * j)
  { l with
    acc := (List.range 128).map fun i =>
      let a := l.acc.getD i 0
      if epochOk ∧ codeFits (code (i / 32)) current ∧ code (i / 32) ≠ 0 then
        a + redInt grad (bits p.data (8 * i + 7) (8 * i))
      else a
    inv := (List.range 4).map fun j => l.inv.getD j false || !epochOk || !codeFits (code j) current
    cnt := l.cnt + 1 }

/-- The draws of a Drift reduction engine's line (R364). -/
def State.redDraws (s : State) (d k round line : Nat) : DrawKey × Nat :=
  (⟨s.ob 0x3000 1, keyWord1 s.moduleId d s.ordinal, s.curStep⟩, 2 ^ 44 + k * 2 ^ 36 + round * 2 ^ 28 + 128 * line)

/-- A full line converted (R363): each block's outcome. -/
def State.redBlocks (s : State) (d k line : Nat) (e : Nat) (l : RedLine) : List BlockOut :=
  let grad := rGrad e
  let current := exCode (s.expo (rSlot e))
  let cv : Conv := { fmt := if grad then 0x17 else 0x16, sr := if grad then some (s.redDraws d k l.rounds line) else none
                     gap := 0, expo := current, epoch := s.epoch }
  (List.range 4).map fun j =>
    let bad := l.inv.getD j false || decide (256 ≤ l.rounds)
    convertBlock cv (fun _ _ => false) ((List.range 32).map fun x =>
      let i := 32 * j + x
      let a := l.acc.getD i 0
      ⟨0, i, i, some (if bad then .nan
                      else .fin (decide (a < 0)) a.natAbs (((current : Int) - 127) - (if grad then 16 else 9)))⟩)

/-- The plate of a written-out line. -/
def redPlate (grad : Bool) (epoch addr : Nat) (bl : List BlockOut) : Plate :=
  let p := ((List.range 4).zip bl).foldl (fun (p : Plate) b =>
    b.2.elts.foldl (fun (p : Plate) x => { p with data := p.data ||| (x.2.2 <<< (8 * x.2.1)) })
      { p with scale := p.scale ||| ((b.2.code.getD 0) <<< (8 * b.1)) }) Plate.empty
  p.finish (if grad then 0x17 else 0x16) epoch addr

/-- A full line is written out: converted, posted, its accumulator cleared, its round counted (R363, R364). -/
def State.redWriteOut (s : State) (d k line : Nat) (e : Nat) (l : RedLine) : State :=
  let addr := rBase e + 128 * line
  let bl := s.redBlocks d k line e l
  let grad := rGrad e
  let p : Post := { layer := rLayer e, role := 4, slot := some (rSlot e)
                    stat := bl.foldl (fun a b => a.join b.stat) Stat.zero }
  let s := if 256 ≤ l.rounds then s.raiseAt 0x5108 2 (unitId (Die.ofIx (32 + d)) 5 0) 0 (rLayer e) (d * 256 + k) line else s
  let s := (if s.stepMuster.isSome ∧ s.partFrozen then
      s.lateStat (unitId (Die.ofIx (32 + d)) 5 0) 0 s.curStep (rLayer e) else s).join p
  let s := match s.physLine addr with
    | none => s
    | some pl => (s.putPlate pl (redPlate grad s.epoch addr bl)).markDirty addr
  { s with red := SMap.put s.red (redKey d k line) { RedLine.fresh with rounds := l.rounds + 1 } }

/-- A plate that fails a check where it arrives (R159): counted, and told with its unit, context and address. -/
def State.badArrival (s : State) (unit : BitVec 32) (ctx addr check : Nat) : State :=
  if check = 1 then
    (s.bump (okey 0x3000 2) 1).raiseAt 0x3001 2 unit 0 0 (bits addr 51 39 * 2 ^ 18 + ctx) (bits addr 38 7)
  else
    (s.bump (okey 0x3000 3) 1).raiseAt 0x3002 2 unit 0 0 ((check - 2) * 2 ^ 16 + bits addr 51 39) (bits addr 38 7)

/-- Format of the plates that a reduction line takes (R362). -/
def rFmt (e : Nat) : Nat := if rGrad e then 0x17 else 0x16

/-- A plate for an enabled reduction line, once checked (R159, R160), is added; a full line is written out (R363). One that fails
adds nothing. -/
def State.reduceAdd (s : State) (d k addr : Nat) (p : Plate) : State :=
  let e := s.redEntry d k
  let check := plateCheck (rFmt e) none 0 p
  if check ≠ 0 then s.badArrival (unitId (Die.ofIx (32 + d)) 5 0) 0 addr check
  else
  let line := (addr - rBase e) / 128
  let ok := decide (p.epoch = s.epoch)
  let s := if ok then s else s.postCause 3
  let l := redAdd (rGrad e) ok (exCode (s.expo (rSlot e))) p (SMap.get RedLine.fresh s.red (redKey d k line))
  if rContrib e ≤ l.cnt then s.redWriteOut d k line e l
  else { s with red := SMap.put s.red (redKey d k line) l }

/-- At an epoch advance every reduction engine clears its lines and tells of partial ones (R365). -/
def State.redClear (s : State) : State :=
  let partials (d : Nat) : Nat :=
    (s.red.filter fun (x : Nat × RedLine) => decide (x.1 / 16384 / 256 = d ∧ 0 < x.2.cnt)).length
  let told := (List.range 16).filter fun d => decide (0 < partials d)
  let s' := { s with red := [] }
  told.foldl (fun s d => s.raiseAt 0x5107 2 (unitId (Die.ofIx (32 + d)) 5 0) 0 0 d (partials d)) s'

/-! ### Where a command's plates go -/

/-- The first of some plates that a reduction engine takes and whose epoch is not the current one: its engine, entry and epoch. -/
def State.epochHit (s : State) (ps : List (Nat × Plate)) : Option (Nat × Nat × Nat) :=
  ps.findSome? fun p => if p.2.epoch = s.epoch then none else (s.reduceAt p.1).map fun x => (x.1, x.2, p.2.epoch)

/-- EPOCH_MISMATCH of a reduction engine, once for the command whose plates it meets (R190). -/
def State.tellEpoch (s : State) (told : Bool) (hit : Option (Nat × Nat × Nat)) : State :=
  match hit with
  | some (d, k, ep) =>
    let e := s.redEntry d k
    if told then s else s.raiseAt 0x3103 2 (unitId (Die.ofIx (32 + d)) 5 0) 0 (rLayer e) (rSlot e) (ep * 256 + s.epoch)
  | none => s

/-- The plates of an output that reach the module's own memory, by device address. -/
def State.ownPlates (s : State) (t : Tensor) (ps : List (Nat × Plate)) : List (Nat × Plate) :=
  if t.stope ∨ s.remote t then [] else ps.map fun p => (t.base + p.1, p.2)

/-- A written plate goes to its stope, to its tier, to a reduction line, or to another module (R240, R362). -/
def State.emit (s : State) (ctx : Nat) (t : Tensor) (off : Nat) (p : Plate) : State :=
  if s.remote t then
    s.sendPlate ctx (t.base + off) p.bytes
  else if t.stope then
    match s.tensorPlace ctx t off with
    | none => s
    | some pl => s.putPlate pl p
  else
    match s.reduceAt (t.base + off) with
    | some (d, k) => s.reduceAdd d k (t.base + off) p
    | none =>
      match s.physLine (t.base + off) with
      | none => s
      | some pl => (s.putPlate pl p).markDirty (t.base + off)

/-- The plates of a command's output leave its stream engine (R239): each line's SEQ, tag and CRC are written; the plates
of a tier or of another module hold a tag until they are acknowledged (R240, R241). -/
def State.emitTensor (s : State) (ctx : Nat) (t : Tensor) (ps : List (Nat × Plate)) : State :=
  let s := ps.foldl (fun s p => s.emit ctx t p.1 p.2) s
  if t.stope ∨ s.remote t then s
  else
    let x := s.ctx ctx
    s.setCtx ctx { x with tags := x.tags + ps.length }

/-- Acknowledgements that a tensor's plates will bring. -/
def ackCount (t : Tensor) (ps : List (Nat × Plate)) : Nat := if t.stope then 0 else ps.length

end Sys2Proof.Machine
end

