-- ==== Sys2Proof/Machine/Failures.lean ====
section
/-! DEFINITION. Reporting failed units (R16–R18, R33, R470) and what their results make suspect (R322, R323). -/

namespace Sys2Proof.Machine

/-- A field defect list entry (R26). -/
def State.listEntry (s : State) (source cause : Nat) (unit : BitVec 32) : BitVec 128 :=
  BitVec.ofNat 128 (s.ob 0x1200 9 % 2 ^ 32 * 2 ^ 96 + (if s.jobRuns then s.ob 0x7002 2 else 0) % 2 ^ 32 * 2 ^ 64 +
    source * 2 ^ 40 + cause * 2 ^ 32 + unit.toNat)

/-- The unit an entry names. -/
def entryUnit (e : BitVec 128) : BitVec 32 := e.setWidth 32

/-- An entry waits to be appended to the list (R28). -/
def State.noteEntry (s : State) (source cause : Nat) (unit : BitVec 32) : State :=
  { s with num := { s.num with append := s.num.append ++ [s.listEntry source cause unit] } }

/-- T_pass of a physical shaft (R322). -/
def State.tPass (s : State) (t p : Nat) : Nat := s.domNat 0x710006 (8 * (18 * t + p)) 8

/-- The step whose attempt was running in a tick (R323); ticks before the first attempt give STEP_FIRST. -/
def State.stepAtTick (s : State) (tick : Nat) : Nat :=
  s.step.history.foldl (fun (a : Nat) (h : Nat × Nat) => if h.2 ≤ tick then h.1 else a) (s.ob 0x3100 2)

/-- This module's part of the round is frozen, and its verdict has not taken effect yet (R323). -/
def State.judgedAhead (s : State) : Bool := s.step.part.isSome || s.step.verdict.isSome

/-- Steps below this count as committed: with a frozen part or a verdict on its way, the step in progress too (R323). -/
def State.committedBelow (s : State) : Nat := if s.judgedAhead then s.curStep + 1 else s.curStep

/-- Committed results since T_pass are suspect (R323): SUSPECT_COMMITTED, and with SUSPECT_POLICY 1 the step in progress
is abandoned. -/
def State.suspectCommitted (s : State) (tPass : Nat) : State :=
  let step := s.stepAtTick tPass
  if (!s.judgedAhead ∧ s.step.attemptTick ≤ tPass) ∨ s.committedBelow ≤ step then s
  else
    let s := s.raise 0x7103 3 step (tPass % 2 ^ 32)
    if s.ob 0x7100 5 = 1 then { s with step := { s.step with forceAbandon := true } } else s

/-- PHYS_STATE of a physical shaft (R32). -/
def State.physState (s : State) (t p : Nat) : Nat := s.ob (0xA000 + 0x100 * t + 0x12) (p + 1)

/-- A shaft is reported failed: it is retired at the next boundary (R33), an entry is noted (R470), and unless it is a
spare the step replays (R322). -/
def State.failShaft (s : State) (t p source cause : Nat) : State :=
  if (s.num.fails.any fun f => decide (f = (t, p))) ∨ 16 ≤ s.physState t p then s
  else
    let s := { s with num := { s.num with fails := s.num.fails ++ [(t, p)] } }
    let s := s.noteEntry source cause (unitId (Die.ofIx t) 1 p)
    if s.physState t p = 1 ∨ !s.jobRuns then s
    else (s.postCause 4).suspectCommitted (s.tPass t p)

/-- A unit other than a shaft failed in service: the attempt in progress replays, and what it gave is suspect from its start on
(R322, R323; log 200). -/
def State.unitSuspect (s : State) : State :=
  if s.jobRuns then (s.postCause 4).suspectCommitted s.step.attemptTick else s

/-- A die is to be fenced at the next boundary; `lost` as for R336's die declared lost. -/
def State.fenceNext (s : State) (d : Die) (lost : Bool) : State :=
  if s.num.fences.any fun f => decide (f.1 = d) then s
  else { s with num := { s.num with fences := s.num.fences ++ [(d, lost)] } }

/-- Units of a class of a die that have failed. -/
def State.failedUnits (s : State) (d : Die) (cls : Nat) : List (BitVec 32) :=
  s.num.unitFails.filter fun u => decide (dieOfUnit u = d ∧ bits u.toNat 23 20 = cls)

/-- The failed units of a die are so many that the whole die is fenced (R16–R18). -/
def State.dieUnfit (s : State) (d : Die) : Bool :=
  let n (cls : Nat) : Nat := (s.failedUnits d cls).length
  decide (0 < n 0) || match d with
    | .t _ => decide (2 < n 2) || decide (2 ≤ n 3)
    | .d _ => decide (4 < n 4)
    | .f _ => decide (0 < n 6) || decide (2 < n 7)

/-- A failed reduction engine while any entry of its die is enabled: the job ends at the next boundary (R365). -/
def State.loseStore (s : State) (d : Die) (cls : Nat) : State :=
  match d with
  | .d n => if cls = 5 ∧ s.jobRuns ∧ ((List.range 256).any fun k => rEnabled (s.redEntry n.val k)) then
      { s with num := { s.num with storeLost := s.num.storeLost ++ [n.val] } } else s
  | _ => s

/-- A unit other than a shaft fails in service (R16–R18, R320, R322, R365): it is noted, and a die that has too few good
units left is to be fenced. -/
def State.failUnit (s : State) (d : Die) (cls idx source cause : Nat) : State :=
  let u := unitId d cls idx
  if memN u.toNat (s.num.unitFails.map BitVec.toNat) then s
  else
    let s := { s with num := { s.num with unitFails := s.num.unitFails ++ [u] } }
    let s := s.noteEntry source cause u
    let s := s.unitSuspect.loseStore d cls
    if s.dieUnfit d then s.fenceNext d false else s

end Sys2Proof.Machine
end

