-- ==== Sys2Proof/Machine/Musters.lean ====
section
/-! DEFINITION. Musters (R89–R94, R192): arrivals, rounds and their release, and a command's completion (R79, R181, R90)
with the arrival it makes. -/

namespace Sys2Proof.Machine

/-! ### The muster table (R89) -/

def State.mEntry (s : State) (m : Nat) : Nat := s.domNat 0x401001 (8 * m) 8
def mPod (e : Nat) : Nat := bits e 63 52
def mRoot (e : Nat) : Nat := bits e 51 40
def mHome (e : Nat) : Nat := bits e 39 36
def mImmediate (e : Nat) : Bool := bit e 35
def mEnabled (e : Nat) : Bool := bit e 34
def mExpected (e : Nat) : Nat := bits e 31 16

/-- The muster is the step muster. -/
def State.isStep (s : State) (m : Nat) : Bool := decide (s.stepMuster = some m)

/-- A wait on muster m for round w is satisfied (R94); at the step muster, once a PASS of step w has taken effect
(R192). -/
def State.waitMet (s : State) (m w : Nat) : Bool :=
  let r := if s.isStep m then s.curStep % 65536 else (s.mst m).round
  let d := (r + 65536 - w % 65536) % 65536
  decide (1 ≤ d ∧ d ≤ 32768)

/-! ### Release (R93) -/

/-- A round is released: R + 1 is in progress and its held arrivals open (R93); at the step muster the verdict is fixed
(R195). DESIGN CHOICE (log 178): a round that opens with held arrivals has its first arrival as it opens. -/
def State.releaseRound (s : State) (m : Nat) : State :=
  let e := s.mEntry m
  let x := s.mst m
  let s := s.trace (Die.ofIx (32 + mHome e)) 9 6 (mHome e) 0 0 m x.round
  let next := (x.round + 1) % 65536
  let open_ := (x.held.filter fun r => decide (r = next)).length
  let s := s.setMst m
    { x with round := next, count := open_, held := x.held.filter fun r => !decide (r = next), partDone := false
             parts := [], complete := none, released := false, timedOut := false
             firstTick := if open_ = 0 then none else some s.tickNo }
  if s.isStep m then
    let r := match s.step.combined with
      | some r => r
      | none => s.step.part.getD ⟨0, [], []⟩
    s.stepRelease r
  else s

/-- A round is complete at `now` ns in the tick: an immediate one is released at once (R93), and the root tells the other
modules (R91). -/
def State.completeRound (s : State) (m now : Nat) : State :=
  if !s.jobRuns then s else
  let e := s.mEntry m
  let x := s.mst m
  let s := if s.isStep m ∧ 1 < mPod e then
      { s with step := { s.step with combined := some (combineParts s.step.others) } } else s
  let others := x.parts.filter fun i => decide (i ≠ s.moduleId)
  let s := others.foldl (fun s i =>
    if s.isStep m then
      s.sendDrift 2 (mkMsg i s.moduleId 0 2 0 (musterReqId (mHome e) m) m x.round) [] s.step.combined
    else s.sendDrift 6 (mkMsg i s.moduleId 0 0 0 (musterReqId (mHome e) m) m x.round) [] none) s
  if mImmediate e then s.releaseRound m else s.setMst m { x with complete := some now }

/-- A part reaches the root (R91). -/
def State.rootPart (s : State) (m module now : Nat) : State :=
  let x := s.mst m
  if memN module x.parts then s
  else
    let s := s.setMst m { x with parts := module :: x.parts }
    if mPod (s.mEntry m) ≤ (s.mst m).parts.length then s.completeRound m now else s

/-- This module's part of a round is complete (R91): at the step muster the home Drift die freezes its table (R182). -/
def State.partComplete (s : State) (m now : Nat) : State :=
  let e := s.mEntry m
  let x := s.mst m
  let s := s.setMst m { x with partDone := true }
  let s := if s.isStep m then s.freezePart x.round else s
  if mPod e ≤ 1 then s.completeRound m now
  else if mRoot e = s.moduleId then
    let s := if s.isStep m then
        { s with step := { s.step with others := (s.moduleId, s.step.part.getD ⟨0, [], []⟩) :: s.step.others } } else s
    s.rootPart m s.moduleId now
  else if s.isStep m then
    s.sendDrift 2 (mkMsg (mRoot e) s.moduleId 0 2 0 (musterReqId (mHome e) m) m x.round) [] s.step.part
  else s.sendDrift 5 (mkMsg (mRoot e) s.moduleId 0 0 0 (musterReqId (mHome e) m) m x.round) [] none

/-- The module's part of the round in progress is complete when its count reaches LOCAL_EXPECTED (R91); with no job, no
round is (R38). -/
def State.checkPart (s : State) (m now : Nat) : State :=
  let x := s.mst m
  let e := s.mEntry m
  if s.jobRuns ∧ mEnabled e ∧ !x.partDone ∧ mExpected e ≤ x.count then s.partComplete m now else s

/-- Arrivals that were held may complete the rounds that open (R93): each round in turn. -/
def State.settle (s : State) (m now : Nat) : State :=
  (List.range ((s.mst m).held.length + 1)).foldl (fun s _ => s.checkPart m now) s

/-! ### Arrivals (R90) -/

/-- What an arrival meets. -/
inductive Arrival where
  | counts
  | held
  | late
deriving DecidableEq, Repr

/-- Classify the arrival of a command (R90, R192). -/
def State.arrival (s : State) (m r : Nat) : Arrival :=
  let x := s.mst m
  if s.isStep m then (if s.partFrozen then .late else .counts)
  else
    let d := (r + 65536 - x.round) % 65536
    if d = 0 then (if x.partDone then .late else .counts)
    else if d ≤ 32767 then .held
    else .late

/-- An arrival that counts or is held (R90). -/
def State.arrive (s : State) (c : Cmd) (now : Nat) : State :=
  let m := dArriveMuster c.desc
  let r := dArriveRound c.desc
  let x := s.mst m
  match s.arrival m r with
  | .late => s
  | .held => (s.setMst m { x with held := r :: x.held }).traceCmd c 8 m r
  | .counts =>
    let s := s.setMst m { x with count := x.count + 1, firstTick := some (x.firstTick.getD s.tickNo) }
    (s.traceCmd c 8 m r).settle m now

/-- The status a completion records: LATE_ARRIVAL in place of OK when its round is over (R82, R90). -/
def State.arrivalStatus (s : State) (c : Cmd) (status : Nat) : Nat :=
  if dArriveEn c.desc ∧ status = 0 ∧ s.arrival (dArriveMuster c.desc) (dArriveRound c.desc) = .late then 0x22 else status

/-- A command completes with a status (R79, R181, R90): its contributions are posted, its record is written, it leaves,
and it arrives. A record that has to wait for its page keeps the whole completion waiting. -/
def State.complete (s : State) (c : Cmd) (status now : Nat) : State :=
  if s.recordWaits c.q c.slot then s.setCmd { c with phase := .done, status := status }
  else
    let status := s.arrivalStatus c status
    let s := s.postStats c
    let s := (s.writeRecord c status).leave c status
    if dArriveEn c.desc then s.arrive c now else s

/-- A command completed because its shaft was retired: nothing of it is posted, and it arrives (R86, R192). -/
def State.discard (s : State) (c : Cmd) : State := s.complete { c with posts := [], draws := [] } 0x23 s.tick.now

/-- A command completed with DIE_FENCED or JOB_ENDED: it makes no arrival (R90). -/
def State.cutOff (s : State) (c : Cmd) (status : Nat) : State := s.finish { c with posts := [], draws := [] } status

/-! ### Lost participants and time-outs (R92) -/

/-- A command that waits, not admitted, on an unreleased round of a muster. -/
def State.waitsOn (s : State) (c : Cmd) (m : Nat) : Bool :=
  decide (c.phase = .fetched ∨ c.phase = .gathered) && dWaitEn c.desc && decide (dWaitMuster c.desc = m) &&
    !s.waitMet m (dWaitRound c.desc)

/-- Every waiter on an unreleased round completes with MUSTER_BROKEN (R92). -/
def State.breakMuster (s : State) (m : Nat) : State :=
  let s := s.setMst m { s.mst m with broken := true }
  s.eachCmd (fun c => s.waitsOn c m) fun s c => s.complete c 0x21 s.tick.now

/-- The enabled musters. -/
def State.mustersOn (s : State) : List Nat := (List.range 4096).filter fun m => mEnabled (s.mEntry m)

/-- A module that takes part in a muster is declared lost: its waiters complete with MUSTER_BROKEN (R92); where it is the
step muster, the job ends at the next boundary (R336). -/
def State.loseModule (s : State) (m : Nat) : State :=
  if s.jobRuns ∧ mEnabled (s.mEntry m) ∧ 1 < mPod (s.mEntry m) then s.breakMuster m else s

/-- The step muster is broken, and the job still runs. -/
def State.stepBroken (s : State) : Bool :=
  s.jobRuns && match s.stepMuster with
    | none => false
    | some m => (s.mst m).broken

/-- A round not complete after MUSTER_TIMEOUT_TICKS from its first arrival is told once (R92), in a job (R38). `lost` says that
a module taking part has been declared lost (log 186). -/
def musterTimeout (m : Nat) (lost : Bool) (s : State) : State :=
  if lost then s.loseModule m
  else
  let x := s.mst m
  match x.firstTick with
  | none => s
  | some t =>
    if s.jobRuns ∧ mEnabled (s.mEntry m) ∧ !x.timedOut ∧ x.complete.isNone ∧ t + s.ob 0x4010 3 ≤ s.tickNo then
      (s.setMst m { x with timedOut := true }).raise 0x4003 1 m x.round
    else s

def execMusterTimeout (m : MusterCheck) (s : State) : Answer := doneMem s (musterTimeout m.muster.val m.lost s)

/-- A round whose root's release came at `t` ns in a tick of `len` ns was complete 15 µs before that tick's end: surely when
the message came so early; when it came in the last 15 µs the message does not say (a free value). -/
def State.inTime (s : State) (m : Nat) (x : Muster) (t len : Nat) : Bool :=
  decide (t + 15000 ≤ len) || (x.released && Config.releasedInTime s.tickNo m)

/-- Tick-aligned rounds that are due at a boundary are released (R76 step 6, R93): complete for 15 µs by then. `len` is
the length in ns of the tick that ends. -/
def State.releaseDue (s : State) (len : Nat) : State :=
  s.mus.foldl (fun s p =>
    let x := s.mst p.1
    match x.complete with
    | none => s
    | some t => if s.inTime p.1 x t len then (s.releaseRound p.1).settle p.1 0 else s.setMst p.1 { x with complete := some 0 }) s

end Sys2Proof.Machine
end

