-- ==== Sys2Proof/Machine/Work.lean ====
section
/-! DEFINITION. What the rows that do a command's work share: reading its operands with their checks (R239), exposure
epochs (R190), converting and writing an output (R171, R172, R240), and the end of the work. A row whose command is not
running, or whose work has run, changes nothing (log entry 5). -/

namespace Sys2Proof.Machine

/-- What reading or writing leads to: a value, or the state in which the command stops. -/
abbrev Try := Except State

/-- Read the tensor of a context for a command (R239): a translation fault, a memory error or a failed check halts the
stream; a plate that has not arrived leaves the state as it is. -/
def State.readOperand (s : State) (c : Cmd) (ctx : Nat) : Try Operand :=
  match s.readTensor ctx with
  | .plates ps => .ok ⟨ctx, ctxTensor (s.ctx ctx).desc, ps⟩
  | .fault a => .error (s.haltFault c ctx a false)
  | .bad a k => .error ((s.badPlate c ctx a k).haltMemory c ctx a)
  | .waits => .error s

/-- The first plate of the operands whose epoch does not match posts the EPOCH cause and is told once (R190). -/
def State.checkEpochs (s : State) (c : Cmd) (os : List Operand) : State × Cmd :=
  match os.findSome? fun o => (o.ps.find? fun p => !epochOk c o.t p.2).map fun p => (o, p.2) with
  | none => (s, c)
  | some (o, p) =>
    let s := s.postCause 3
    (if c.epochTold then s else s.raiseCmd c 0x3103 2 (cSlot (s.ctx o.ctx).desc) (p.epoch * 256 + c.epoch),
     { c with epochTold := true })

/-- Elements of a tensor: the draws a stochastic conversion into it takes (R169). -/
def Tensor.count (t : Tensor) : Nat := t.dim2 * (t.dim1 * t.dim0)

/-- The key and start of a command's draws into a context (R167, R169). -/
def State.drawsOf (s : State) (c : Cmd) (ctx : Nat) : DrawKey × Nat :=
  (⟨s.ob 0x3000 1, keyWord1 s.moduleId ctx c.ordinal, dStep c.desc⟩,
   drawIndex (s.ctx ctx).draw + SMap.get 0 c.draws ctx)

/-- The draws would pass the end of INDEX: the stream halts with DRAWS_EXHAUSTED (R169). -/
def State.checkDraws (s : State) (c : Cmd) (ctx : Nat) (sr : Bool) : Try Unit :=
  let n := (ctxTensor (s.ctx ctx).desc).count
  if sr ∧ 2 ^ 44 < (s.drawsOf c ctx).2 + n then
    .error (((s.haltCmd c ctx .drawsExhausted none).bump (okey 0x3000 5) 1).raiseCmd c 0x3003 2 ctx (dStep c.desc))
  else .ok ()

/-- The output of a command can be reached: else its stream halts (R265). -/
def State.checkWrite (s : State) (c : Cmd) (ctx : Nat) : Try Unit :=
  let t := ctxTensor (s.ctx ctx).desc
  match s.writeFault t (tensorLines t) with
  | some a => .error (s.haltFault c ctx a true)
  | none => .ok ()

/-- How a command converts into a context (R162, R171, R183). -/
def State.convOf (s : State) (c : Cmd) (ctx : Nat) (sr : Bool) : Conv :=
  let d := (s.ctx ctx).desc
  { fmt := cFmt d, sr := if sr then some (s.drawsOf c ctx) else none, gap := s.gapOf (cStatLayer d)
    expo := SMap.get (exCode (s.expo (cSlot d))) c.expo ctx, epoch := c.epoch }

/-- The contribution a conversion into a context posts (R179, R181). -/
def State.postOf (s : State) (ctx : Nat) (st : Stat) : Post :=
  let d := (s.ctx ctx).desc
  { layer := cStatLayer d, role := cStatRole d, slot := if isExposed (cFmt d) then some (cSlot d) else none, stat := st }

/-- What the densitometer sees of an output: its whole conversion; where the values were formed in the target's own format
nothing is converted (R162), and only non-finite values are seen. DEDUCED (log 21). -/
def TensorOut.seen (o : TensorOut) (same : Bool) : Stat := if same then { Stat.zero with nonfinite := o.stat.nonfinite } else o.stat

/-- Give each plate its tag and CRC for its line (R157, R160). -/
def finishPlates (t : Tensor) (epoch : Nat) (ps : List (Nat × Plate)) : List (Nat × Plate) :=
  ps.map fun p => (p.1, p.2.finish t.fmt epoch (t.base + p.1))

/-- The plates of a LOCATION 0 tensor pass through the window of its context, used as a ring in the order in which the engine
issues them (R230): it keeps the last of them. -/
def State.fillWindow (s : State) (c : Cmd) (ctx : Nat) (ps : List (Nat × Plate)) : State :=
  let d := (s.ctx ctx).desc
  let order := s.usedLines c ctx (s.unitCount c)
  if cStope d then s
  else ((order.zip (List.range order.length)).filter fun p => decide (order.length ≤ p.2 + cStopeLines d)).foldl (fun s p =>
    match SMap.get? ps p.1 with
    | some pl => s.putPlate (stopePlace (ctxDie ctx) (s.physOf (ctxDie ctx) (ctxShaft ctx)) (128 * (cStopeBase d + p.2 % cStopeLines d))) pl
    | none => s) s

/-- Convert and write one output (R171, R172, R240), whose values were formed in format `form` (0: in none): its plates go out, its
totals count, its contribution and draws are kept with the command until it completes. -/
def State.writeOutput (s : State) (c : Cmd) (ctx : Nat) (sr : Bool) (form : Nat) (src : Nat → Nat → Nat → Fx) : State × Cmd :=
  let t := ctxTensor (s.ctx ctx).desc
  let o := convertTensor t (s.convOf c ctx sr) src
  let lines := tensorLines t
  let ps := lines.map fun l => (l, SMap.get Plate.empty o.plates l)
  let st := o.seen (decide (form = t.fmt))
  let post := s.postOf ctx st
  let s := s.convCounts o
  let s := s.tally c (if s.remote t then 0x0D else 0x0C) (if t.stope then 0 else ps.length)
  let fs := finishPlates t c.epoch ps
  let hit := s.epochHit (s.ownPlates t fs)
  let s := ((s.emitTensor ctx t fs).tellEpoch c.epochTold hit).fillWindow c ctx fs
  (s, { c with epochTold := c.epochTold || hit.isSome
               unacked := c.unacked + ackCount t ps
               posts := c.posts ++ (if 0 < st.values ∨ 0 < st.nonfinite then [post] else [])
               draws := if sr then SMap.upd 0 c.draws ctx (· + t.count) else c.draws })

/-- The read plates of a command count in its tallies (R440), and what their reads corrected (R270). -/
def State.tallyReads (s : State) (c : Cmd) (os : List Operand) : State :=
  os.foldl (fun s o =>
    let s := s.sawLines o.ctx o.t (o.ps.map Prod.fst)
    if o.t.stope then s else s.tally c (if s.remote o.t then 0x0D else 0x0B) o.ps.length) s

/-- The read plates of a command have passed through the windows of their contexts (R230). -/
def State.fillWindows (s : State) (c : Cmd) (os : List Operand) : State := os.foldl (fun s o => s.fillWindow c o.ctx o.ps) s

/-- What the port and the stope count while a command moves plates: requests that waited for a tag, slots lent, cycles lost to bank
conflicts and locks (R241, R243, R283). -/
def State.portCounts (s : State) (c : Cmd) : State :=
  let uses (stope : Bool) : Bool := c.bound.any fun b => decide (cStope (s.ctx b.1).desc = stope)
  let s := if uses false then (s.bumpOpen (okey 0x4130 4)).bumpOpen (okey 0x4130 5) else s
  if uses true then s.bumpOpen (okey (0xA000 + 0x100 * (s.qDie c.q).num + 0x70) 1) else s

/-- The work of a command has run. -/
def State.workDone (s : State) (c : Cmd) : State := (s.portCounts c).setCmd { c with worked := true, made := 0, saved := [] }

/-- The running command of a slot whose work has still to run and whose opcode is `op`. -/
def State.running (s : State) (q slot op : Nat) : Option Cmd :=
  (s.cmd? q slot).filter fun c => decide (c.phase = .admitted ∧ dOpcode c.desc = op) && !c.worked

/-- Unwrap: the state the work leads to. -/
def Try.state : Try State → State
  | .ok s => s
  | .error s => s

end Sys2Proof.Machine
end

