-- ==== Sys2Proof/Machine/Array.lean ====
section
/-! DEFINITION. The fusible cell array (chapters 04 and 07): the work of an ARRAY command, one row of the table per mode,
with what it counts and tells, and its parity faults. -/

namespace Sys2Proof.Machine

/-- ARG0 of the array's events: logical shaft and engine (R143). -/
def engineArg (d : BitVec 1024) : Nat := dShaft d * 16 + dEngine d

/-! ### Telling -/

/-- PASS_START and PASS_END of every pass made (R446). -/
def State.passRecords (s : State) (x : ArrayIn) : State :=
  if !s.traced x.c then s
  else
    let l := (passList x.d).filter fun p => !x.skips p
    (l.zip (List.range l.length)).foldl (fun s p =>
      (s.fullCmd x.c 0x40 p.2 (p.1.kTile % 65536)).fullCmd x.c 0x41 p.2
        (runAt (oM x.d) (dMode x.d).chunk p.1.chunk).length) s

/-- Raise INVALID_BLOCK once per operand and count the command (R114). -/
def State.tellInvalid (s : State) (c : Cmd) (a b : Bool) : State :=
  let s := if a ∨ b then s.bump (okey 0x3900 4) 1 else s
  let s := if a then s.raiseCmd c 0x3901 2 (engineArg c.desc) 0 else s
  if b then s.raiseCmd c 0x3901 2 (engineArg c.desc) 1 else s

/-- Raise NUGGET_CAP for a tile and for a vector (R112). -/
def State.tellCaps (s : State) (x : ArrayIn) : State :=
  let s := if x.badTiles.isEmpty then s else s.raiseCmd x.c 0x3903 2 (engineArg x.d) 0
  if x.badVecs.isEmpty then s else s.raiseCmd x.c 0x3903 2 (engineArg x.d) 1

/-- A parity fault stops the command, which stays stopped until its shaft is retired: nothing of it leaves the tray, and
its shaft is reported failed with the test group of R470 (R139, R220). -/
def State.parityFault (s : State) (c : Cmd) (code arg group : Nat) : State :=
  let p := s.physCmd c
  ((s.raiseCmd c code 2 (engineArg c.desc) arg).setCmd { c with phase := .suspended }).failShaft p.1 p.2 4 group

/-- The other command whose last results still cross the array (R133). -/
def State.crossing (s : State) (c : Cmd) : Option Cmd :=
  s.cmds.find? fun x => decide (x.phase = .admitted ∧ dOpcode x.desc = opArray ∧ s.arrayOf x = s.arrayOf c) && x.worked &&
    !decide (x.q = c.q ∧ x.slot = c.slot)

/-- A parity error of the array (R139). One found during the stop bath that the command needs leaves the new setting unapplied,
and stops the old command too (R136); any other is found under the new setting. -/
def State.arrayParity (s : State) (c : Cmd) (hit : ArrayHit) : State :=
  let p := hit.what
  let bath := hit.inBath && (s.bathFrom c).isSome
  let s := if bath then s else s.stopBath c
  let s := match s.crossing c with
    | some x => if bath then s.setCmd { x with phase := .suspended } else s
    | none => s
  (s.parityFault c 0x3902 p.val (if p = 0 then 1 else if p = 1 then 7 else 6)).bump (okey 0x3900 5) 1

/-! ### The work -/

/-- Read what an ARRAY command needs (R239). -/
def State.arrayIn (s : State) (c : Cmd) : Try ArrayIn := do
  let d := c.run
  let a ← s.readOperand c (dCtx d 0)
  let b ← s.readOperand c (dCtx d 1)
  let cIn ← if oAccIn d then (s.readOperand c (dCtx d 2)).map some else .ok none
  let dIn ← if oAccIn d ∧ dCtx d 3 ≠ 0 then (s.readOperand c (dCtx d 3)).map some else .ok none
  .ok (ArrayIn.capped ⟨d, c, a, b, cIn, dIn, [], [], s.matesOf c⟩)

/-- Feed stalls (R112, R219), where there were any. -/
def State.stalls (s : State) (c : Cmd) (key ev source stall : Nat) : State :=
  if 0 < stall then ((s.bump key stall).tally c ev stall).fullCmd c 0x42 stall source else s

/-- What an ARRAY command's run counts and tells beside its outputs: invalid blocks and caps (R112, R114), the passes skipped
and made, once for a batch (R113, R108), its products, its stalls (R112, R219), its trace records (R446), its reads. -/
def State.arrayCounts (s : State) (c : Cmd) (x : ArrayIn) (stall : LogStall) : State :=
  let d := c.run
  let s := (s.tellInvalid c x.invalidA x.invalidB).tellCaps x
  let sk := if c.shared then 0 else x.skipped
  let s := if 0 < sk then (s.bump (okey 0x3900 3) sk).tally c 3 sk else s
  let s := (s.tally c 2 (x.passesMade)).tally c 5 (oBatch d * oM d * oN d * oK d)
  let s := if c.shared then s else s.passRecords x
  let s := s.stalls c (okey 0x3900 8) 6 1 stall.nugget
  let s := s.stalls c (okey 0x3800 5) 7 2 stall.bank
  s.tallyReads c ([x.a, x.b] ++ x.cIn.toList ++ x.dIn.toList)

/-- The work of an ARRAY command, from its first tile to the tray (R99–R122): stop bath, operands, results, outputs. -/
def State.arrayRun (s : State) (c : Cmd) (stall : LogStall) : Try State := do
  let d := c.run
  s.checkDraws c (dCtx d 2) (stochasticC d)
  let s := s.stopBath c
  let x ← s.arrayIn c
  s.checkWrite c (dCtx d 2)
  if dCtx d 3 ≠ 0 then s.checkWrite c (dCtx d 3)
  let (s, c) := s.checkEpochs c ([x.a, x.b] ++ x.cIn.toList ++ x.dIn.toList)
  let s := (s.arrayCounts c x stall).fillWindows c ([x.a, x.b] ++ x.cIn.toList ++ x.dIn.toList)
  let (s, c) := s.writeOutput c (dCtx d 2) (stochasticC d) (accFmt d) x.outC
  let (s, c) := if dCtx d 3 ≠ 0 then s.writeOutput c (dCtx d 3) false (accFmt d) x.outD else (s, c)
  let k := s.engineOf c
  let s := s.setEngine k { s.engine k with held := [], waiting := [] }
  let s := (s.setArray (s.arrayOf c) ((s.array (s.arrayOf c)).finished x)).shareBatch c
  .ok (s.workDone { c with passes := c.passes + x.passesMade })

/-- The work of one ARRAY mode: on its own commands, and stopped by a parity fault (R139). -/
def State.arrayWork (s : State) (q slot stall : Nat) (parity : Option ArrayHit) (mine : Mode → Bool) : State :=
  match s.running q slot opArray with
  | none => s
  | some c =>
    if !mine (dMode c.run) then s
    else match parity with
      | some p => s.arrayParity c p
      | none => (s.arrayRun c ⟨stall, 0⟩).state

/-- The plain modes of PRECISION 0 and REDUCE 0 with a product. -/
def plainMode (product : Nat) (m : Mode) : Bool := decide (m.precision = 0 ∧ m.reduce = 0 ∧ m.product = product)

def execArrayProduct (q : Fin 128) (slot : BitVec 32) (stall : Nat) (parity : Option ArrayHit) (s : State) : Answer :=
  doneMem s (s.arrayWork q.val slot.toNat stall parity (plainMode 0))

def execArrayDifference (q : Fin 128) (slot : BitVec 32) (stall : Nat) (parity : Option ArrayHit) (s : State) : Answer :=
  doneMem s (s.arrayWork q.val slot.toNat stall parity (plainMode 1))

def execArrayAbsDifference (q : Fin 128) (slot : BitVec 32) (stall : Nat) (parity : Option ArrayHit) (s : State) : Answer :=
  doneMem s (s.arrayWork q.val slot.toNat stall parity (plainMode 2))

def execArraySquaredDifference (q : Fin 128) (slot : BitVec 32) (stall : Nat) (parity : Option ArrayHit) (s : State) :
    Answer := doneMem s (s.arrayWork q.val slot.toNat stall parity (plainMode 3))

def execArrayReduceMin (q : Fin 128) (slot : BitVec 32) (stall : Nat) (parity : Option ArrayHit) (s : State) : Answer :=
  doneMem s (s.arrayWork q.val slot.toNat stall parity fun m => decide (m.reduce = 1))

def execArrayReduceMax (q : Fin 128) (slot : BitVec 32) (stall : Nat) (parity : Option ArrayHit) (s : State) : Answer :=
  doneMem s (s.arrayWork q.val slot.toNat stall parity fun m => decide (m.reduce = 2))

def execArrayPaired (q : Fin 128) (slot : BitVec 32) (stall : Nat) (parity : Option ArrayHit) (s : State) : Answer :=
  doneMem s (s.arrayWork q.val slot.toNat stall parity fun m => decide (m.precision = 1))

def execArrayFp32Accurate (q : Fin 128) (slot : BitVec 32) (stall : Nat) (parity : Option ArrayHit) (s : State) : Answer :=
  doneMem s (s.arrayWork q.val slot.toNat stall parity fun m => decide (m.precision = 2))

def execArrayFp64 (q : Fin 128) (slot : BitVec 32) (stall : Nat) (parity : Option ArrayHit) (s : State) : Answer :=
  doneMem s (s.arrayWork q.val slot.toNat stall parity fun m => decide (m.precision = 3))

/-- Log mode (R215): banks rebuilt are counted; a parity fault of a bank (R220) or of the array (R139) stops the command. -/
def State.logWork (s : State) (q slot : Nat) (stall : LogStall) (parity : Option LogHit) : State :=
  match s.running q slot opArray with
  | none => s
  | some c =>
    if !plainMode 4 (dMode c.run) then s
    else match parity with
      | some (.bank g b) => (s.stopBath c).parityFault c 0x3801 (g.val * 2 + b.val) 5
      | some (.array p) => s.arrayParity c p
      | none => (s.arrayRun c stall >>= fun s => .ok (s.bump (okey 0x3800 4) (bankCount c.run))).state

def execArrayLogMode (q : Fin 128) (slot : BitVec 32) (stall : LogStall) (bankParity : Option LogHit) (s : State) :
    Answer := doneMem s (s.logWork q.val slot.toNat stall bankParity)

/-- A pass that has not ended 2,048 cc after it began ends early; its remaining vectors form a further pass, which
reloads nothing (R101). -/
def passSplit (q slot : Nat) (s : State) : State :=
  match s.running q slot opArray with
  | none => s
  | some c => (s.setCmd { c with passes := c.passes + 1 }).tally c 2 1

def execPassSplit (q : Fin 128) (slot : BitVec 32) (s : State) : Answer := done s (passSplit q.val slot.toNat s)

/-- Multipliers held by the sub-arrays. -/
def heldSum (l : List (Nat × Nat)) : Nat := (l.map Prod.snd).sum

/-- Serve waiting swaps in the order in which they arose, as long as the pool of 64 has room (R112). -/
def servePool : List (Nat × Nat) → List (Nat × Nat) → List (Nat × Nat) × List (Nat × Nat)
  | held, [] => (held, [])
  | held, w :: t => if heldSum held + w.2 ≤ 64 then servePool (SMap.put held w.1 w.2) t else (held, w :: t)

/-- A tile swap asks the pool for its stationary-nugget multipliers; the sub-array's last tile has released its own
(R112). A tile of more than 64 is over the cap and takes none, and a swap that needs none does not wait. -/
def nuggetPoolSwap (die shaft engine sub need : Nat) (s : State) : State :=
  let k := ekey (Die.ofIx die) shaft engine
  let e := s.engine k
  let held := SMap.del e.held sub
  let want := if 64 < need then 0 else need
  let others := e.waiting.filter fun w => decide (w.1 ≠ sub)
  let r := servePool held (if want = 0 then others else others ++ [(sub, want)])
  s.setEngine k { e with held := r.1, waiting := r.2 }

def execNuggetPoolSwap (die : Fin 32) (shaft : Fin 16) (engine : Fin 2) (sub : Fin 16) (need : Nat) (s : State) : Answer :=
  done s (nuggetPoolSwap die.val shaft.val engine.val sub.val need s)

end Sys2Proof.Machine
end

