-- ==== Sys2Proof/Machine/FixMath.lean ====
section
/-! DEFINITION. The update arithmetic (R298–R303, R306) and the schedule engine (R312, R313), as functions of numbers. -/

namespace Sys2Proof.Machine

/-- One, as an exact value. -/
def Fx.one : Fx := .fin false 1 0

/-- fma of R299: one rounding. -/
def fma (x y z : Fx) : Fx := rna32 (Fx.add (Fx.mul x y) z)

/-- F64 steps (R299). -/
def dadd (x y : Fx) : Fx := rna64 (Fx.add x y)
def dsub (x y : Fx) : Fx := rna64 (Fx.sub x y)
def dmul (x y : Fx) : Fx := rna64 (Fx.mul x y)
def ddiv (x y : Fx) : Fx := rna64 (Fx.div x y)

/-- pow_f64 of R299: bits of the exponent from 31 down. -/
def powBits (b : Fx) (e : Nat) : Nat → Fx → Fx
  | 0, p => p
  | i + 1, p =>
    let p := dmul p p
    powBits b e i (if bit e i then dmul p b else p)
def pow64 (b : Fx) (e : Nat) : Fx := powBits b e 32 Fx.one

/-! ### Parameter sets (R298) -/

/-- A parameter set. -/
structure Params where
  beta1     : Fx
  beta2     : Fx
  eps       : Fx
  decay     : Fx
  epsFactor : Fx
  clip      : Fx
  u3Moment  : Bool
  lookahead : Bool
deriving DecidableEq, Repr

/-- The fields of a parameter set's 512 bits. -/
def paramsOf (v : Nat) : Params :=
  { beta1 := f32.decode (bits v 511 480), beta2 := f32.decode (bits v 479 448), eps := f32.decode (bits v 447 416)
    decay := f32.decode (bits v 415 384), epsFactor := f32.decode (bits v 383 352), clip := f32.decode (bits v 351 320)
    u3Moment := bit v 281, lookahead := bit v 280 }

/-! ### Schedules (R312, R313) -/

def sBase (v : Nat) : Nat := bits v 511 448
def sMin (v : Nat) : Nat := bits v 447 384
def sOrigin (v : Nat) : Nat := bits v 383 352
def sWarmup (v : Nat) : Nat := bits v 351 320
def sPeriod (v : Nat) : Nat := bits v 319 288
def sStepSize (v : Nat) : Nat := bits v 287 256
def sGamma (v : Nat) : Nat := bits v 255 192
def sWarmStart (v : Nat) : Nat := bits v 191 128
def sKind (v : Nat) : Nat := bits v 127 124
def sWarmExp (v : Nat) : Bool := bit v 123
def sMult (v : Nat) : Nat := bits v 122 120

/-- Cycles of restarts (R313): position and length of the cycle reached; a multiplier of 2 or more passes every position
in fewer than 64 cycles. -/
def cycleAt (mult : Nat) : Nat → Nat → Nat → Nat × Nat
  | 0, pos, len => (pos, len)
  | n + 1, pos, len => if pos < len then (pos, len) else cycleAt mult n (pos - len) (len * mult)

/-- A published F64 value used where it lies within 1 ulp of the exact one, else the nearest value (R313). -/
def within64 (bitsOut : BitVec 64) (exact : Fx) : Fx := withinUlps 1 (ulpOf 53 (-1074)) rna64 (dec64 bitsOut) exact

/-- cos(π x), exp2 and log2: the bits of the published vectors, within 1 ulp, with IEEE 754's special values (R313). -/
def cosPi (x : Fx) : Fx := match x with
  | .fin s m e => within64 (Config.cosPiBits (enc64 x)) (cosPiDy (Fx.toDy (.fin s m e))).toFx
  | _ => .nan
def exp2d (x : Fx) : Fx := match x with
  | .nan => .nan
  | .inf true => Fx.zero
  | .inf false => .inf false
  | x => within64 (Config.exp2Bits (enc64 x)) (exp2Dy (Fx.toDy x)).toFx
def log2d (x : Fx) : Fx := match x with
  | .nan => .nan
  | .inf s => if s then .nan else .inf false
  | .fin s m e =>
    if m = 0 then .inf true
    else if s then .nan
    else within64 (Config.log2Bits (enc64 x)) (log2Dy (Fx.toDy (.fin s m e))).toFx

/-- The learning rate of a schedule at a step (R313): every operation is one F64 step (log entry 32). -/
def learningRate (v step : Nat) : Fx :=
  let one := Fx.one
  let s := step - sOrigin v
  let w := sWarmup v
  let base := f64.decode (sBase v)
  if s < w then
    let x := ddiv (Fx.ofNat s) (Fx.ofNat w)
    let ws := f64.decode (sWarmStart v)
    let f := if sWarmExp v then exp2d (dmul (log2d ws) (dsub one x)) else dadd ws (dmul (dsub one ws) x)
    rna32 (dmul base f)
  else
    let pos := s - w
    let len := sPeriod v
    let (pos, len) :=
      if sMult v = 0 then (min pos len, len)
      else if sMult v = 1 then (pos % len, len)
      else cycleAt (sMult v) 64 pos len
    let x := ddiv (Fx.ofNat pos) (Fx.ofNat len)
    let mw := max w 1
    let f := match sKind v with
      | 0 => one
      | 1 => dsub one x
      | 2 => ddiv (dadd one (cosPi x)) (Fx.ofNat 2)
      | 3 => pow64 (f64.decode (sGamma v)) (pos / sStepSize v)
      | _ => rna64 (Fx.sqrt (ddiv (Fx.ofNat mw) (Fx.ofNat (mw + pos))))
    let lo := f64.decode (sMin v)
    rna32 (dadd lo (dmul (dsub base lo) f))

/-! ### The rules (R299–R303) -/

/-- What is computed once per command (R299, R301). -/
structure Prologue where
  rule : Nat
  p    : Params
  lr   : Fx
  ob1  : Fx
  ob2  : Fx
  dec  : Fx
  a1   : Fx
  k2   : Fx
deriving DecidableEq, Repr

/-- The prologue of a command: rule, parameters, rate and n = UPDATES + 1. -/
def prologue (rule : Nat) (p : Params) (lr : Fx) (n : Nat) : Prologue :=
  { rule := rule, p := p, lr := lr, ob1 := fsub Fx.one p.beta1, ob2 := fsub Fx.one p.beta2, dec := fmul lr p.decay
    a1 := rna32 (ddiv lr (dsub Fx.one (pow64 p.beta1 n)))
    k2 := rna32 (ddiv Fx.one (rna64 (Fx.sqrt (dsub Fx.one (pow64 p.beta2 n))))) }

/-- sign of R302. -/
def signOf (x : Fx) : Fx := match x with
  | .nan => .nan
  | .inf s => .fin s 1 0
  | .fin s m _ => if m = 0 then Fx.zero else .fin s 1 0

/-- What an element becomes. -/
structure EltUpd where
  w : Fx
  m : Fx
  r : Fx
deriving DecidableEq, Repr

/-- One element under U0, U1 or U2; under U3, `g` is u' (R300–R303). -/
def updElt (q : Prologue) (g w m r : Fx) : EltUpd :=
  let w1 := fma q.dec.negate w w
  match q.rule with
  | 0 =>
    let m' := fma q.p.beta1 m g
    let d := if q.p.lookahead then fma q.p.beta1 m' g else m'
    ⟨fma q.lr.negate d w1, m', r⟩
  | 1 =>
    let m' := fma q.p.beta1 m (fmul q.ob1 g)
    let v' := fma q.p.beta2 (fmul r r) (fmul q.ob2 (fmul g g))
    let r' := rna32 (Fx.sqrt v')
    let d := fdiv m' (fma r' q.k2 q.p.eps)
    ⟨fma q.a1.negate d w1, m', r'⟩
  | 2 =>
    let d := signOf (fma q.p.beta1 m (fmul q.ob1 g))
    ⟨fma q.lr.negate d w1, fma q.p.beta2 m (fmul q.ob2 g), r⟩
  | _ =>
    let m' := fma q.p.beta1 m (fmul q.ob1 g)
    ⟨fma q.lr.negate (if q.p.u3Moment then m' else g) w1, m', r⟩

/-- An exact sum of values: any NaN or infinity joins under IEEE 754 (R303). -/
def exactSum (l : List Fx) : Fx := l.foldl Fx.add Fx.zero

/-- The factors of U3 and its clip (R303). -/
structure Factors where
  fr : List Fx
  fc : List Fx
  fm : Fx
  sc : Fx
deriving DecidableEq, Repr

/-- u of R303. -/
def u3u (f : Factors) (g : Fx) (i j : Nat) : Fx :=
  fdiv g (rna32 (Fx.sqrt (fdiv (fmul (f.fr.getD i Fx.zero) (f.fc.getD j Fx.zero)) f.fm)))

/-- Passes 1 and 2 of U3 on the rows of a group's gradient (R303). -/
def factors (q : Prologue) (g : List (List Fx)) (fr fc : List Fx) (cols : Nat) : Factors :=
  let rows := g.length
  let sq := g.map fun row => row.map fun x => fadd (fmul x x) q.p.epsFactor
  let mean (l : List Fx) (n : Nat) : Fx := rna32 (Fx.div (exactSum l) (Fx.ofNat n))
  let fr' := (sq.zip fr).map fun p => fma q.p.beta2 p.2 (fmul q.ob2 (mean p.1 cols))
  let fc' := ((List.range cols).zip fc).map fun p =>
    fma q.p.beta2 p.2 (fmul q.ob2 (mean (sq.map fun row => row.getD p.1 Fx.zero) rows))
  let fm := mean fr' rows
  let f : Factors := ⟨fr', fc', fm, Fx.one⟩
  let us := ((List.range rows).zip g).flatMap fun p => ((List.range cols).zip p.2).map fun c =>
    let u := u3u f c.2 p.1 c.1
    fmul u u
  let rms := rna32 (rna64 (Fx.sqrt (rna64 (Fx.div (exactSum us) (Fx.ofNat (rows * cols))))))
  { f with sc := fdiv Fx.one (Fx.maximum Fx.one (fdiv rms q.p.clip)) }

/-- The whole of a dense update (R299–R303): rows of g, w, m and r give rows of results and the new factors. -/
def updDense (q : Prologue) (g w m r : List (List Fx)) (fr fc : List Fx) (cols : Nat) :
    List (List EltUpd) × List Fx × List Fx :=
  let f := if q.rule = 3 then factors q g fr fc cols else ⟨[], [], Fx.zero, Fx.one⟩
  let elt (i j : Nat) (x y z t : Fx) : EltUpd :=
    updElt q (if q.rule = 3 then fmul (u3u f x i j) f.sc else x) y z t
  let row (i : Nat) : List EltUpd := (List.range cols).map fun j =>
    let at' (l : List (List Fx)) : Fx := (l.getD i []).getD j Fx.zero
    elt i j (at' g) (at' w) (at' m) (at' r)
  ((List.range g.length).map row, f.fr, f.fc)

/-- The decay of a touched row's moments for the `gap` steps it missed (R306). -/
def decayRow (q : Prologue) (gap : Nat) (m r : Fx) : Fx × Fx :=
  let p1 := rna32 (pow64 q.p.beta1 gap)
  let p2 := rna32 (pow64 q.p.beta2 gap)
  match q.rule with
  | 0 => (fmul m p1, r)
  | 1 => (fmul m p1, rna32 (Fx.sqrt (fmul (fmul r r) p2)))
  | _ => (fmul m p2, r)

end Sys2Proof.Machine
end

