-- ==== Sys2Proof/Machine/VectorUnit.lean ====
section
/-! DEFINITION. The vector unit (R128–R132): the work of a VECTOR command, one row of the table per function. -/

namespace Sys2Proof.Machine

/-- What a VECTOR command works on: A and B as F32 rows. -/
structure VecIn where
  d    : BitVec 1024
  a    : Nat → Nat → Fx
  b    : Nat → Nat → Fx

/-- A row of A. -/
def VecIn.row (x : VecIn) (r : Nat) : List Fx := (List.range (oCols x.d)).map (x.a r)
/-- The gains: B as one row (R129). -/
def VecIn.gains (x : VecIn) : List Fx := (List.range (oCols x.d)).map (x.b 0)

/-- A function of the vector unit: what C and D take at a row and column (R129). -/
structure VecFn where
  c : VecIn → Nat → Nat → Fx
  d : VecIn → Nat → Nat → Fx

/-- No second output. -/
def noD : VecIn → Nat → Nat → Fx := fun _ _ _ => Fx.zero

/-- A function of one element. -/
def VecFn.map1 (f : Fx → Fx) : VecFn := ⟨fun x r k => f (x.a r k), noD⟩
/-- A function of two elements. -/
def VecFn.map2 (f : VecIn → Fx → Fx → Fx) : VecFn := ⟨fun x r k => f x (x.a r k) (x.b r k), noD⟩
/-- A function of a row. -/
def VecFn.row (f : VecIn → List Fx → List Fx) : VecFn := ⟨fun x r k => (f x (x.row r)).getD k Fx.zero, noD⟩
/-- The TOPK functions. -/
def VecFn.topk (mx : Bool) : VecFn :=
  let at' (x : VecIn) (r k : Nat) : Fx × Nat := (topK mx (oTopK x.d) (x.row r)).getD k (Fx.zero, 0)
  ⟨fun x r k => (at' x r k).1, fun x r k => Fx.ofNat (at' x r k).2⟩

/-- A descriptor's F32 constant. -/
def f32Const (v : Nat) : Fx := f32.decode v

/-- AXPBY: t := BETA × B; C := ALPHA × A + t, the second step with one rounding (R129). -/
def axpby (x : VecIn) (a b : Fx) : Fx :=
  rna32 (Fx.add (Fx.mul (f32Const (oAlpha x.d)) a) (fmul (f32Const (oBeta x.d)) b))

def fnAdd : VecFn := .map2 fun _ a b => fadd a b
def fnMul : VecFn := .map2 fun _ a b => fmul a b
def fnAxpby : VecFn := .map2 axpby
def fnExp : VecFn := .map1 vExpOf
def fnRecip : VecFn := .map1 vRecipOf
def fnRsqrt : VecFn := .map1 vRsqrtOf
def fnSigmoid : VecFn := .map1 vSigmoidOf
def fnRowSum : VecFn := .row fun _ l => [rowSum l]
def fnRowMax : VecFn := ⟨fun x r _ => (rowMax (x.row r)).1, fun x r _ => Fx.ofNat (rowMax (x.row r)).2⟩
def fnSoftmax : VecFn := .row fun _ l => softmax l
def fnRmsnorm : VecFn := .row fun x l => rmsnorm (f32Const (oEps x.d)) l x.gains
def fnLayernorm : VecFn := .row fun x l => layernorm (f32Const (oEps x.d)) l x.gains
def fnConvert : VecFn := .map1 fun a => a

/-- An operand converts to F32 on its way in, stochastically when its GRADIENT bit is set and its format is another
(R128, R162; log entry 27). -/
def stochasticIn (d : BitVec 1024) (j : Nat) : Bool := dGradient d j && decide (dFmt d j ≠ 0x02)

/-- An element of an operand as F32. -/
def State.toF32 (s : State) (c : Cmd) (o : Operand) (sr : Bool) (r k : Nat) : Fx :=
  let v := (o.cell c 0 r k).value
  if o.t.fmt = 0x02 then v
  else
    let ks := s.drawsOf c o.ctx
    f32.round (if sr then some (drawNo ks.1 (ks.2 + (r * o.t.dim0 + k))) else none) v

/-- The draws of an operand's conversion are taken (R169). -/
def Cmd.tookDraws (c : Cmd) (ctx n : Nat) (sr : Bool) : Cmd :=
  if sr then { c with draws := SMap.upd 0 c.draws ctx (· + n) } else c

/-- The work of a VECTOR command (R128, R129). -/
def State.vectorRun (s : State) (c : Cmd) (f : VecFn) : Try State := do
  let d := c.desc
  let srC := dGradient d 2 && decide (dFmt d 2 ≠ 0x02)
  s.checkDraws c (dCtx d 0) (stochasticIn d 0)
  if dCtx d 1 ≠ 0 then s.checkDraws c (dCtx d 1) (stochasticIn d 1)
  s.checkDraws c (dCtx d 2) srC
  if dCtx d 3 ≠ 0 then s.checkDraws c (dCtx d 3) (dGradient d 3 && decide (dFmt d 3 ≠ 0x02))
  let a ← s.readOperand c (dCtx d 0)
  let b ← if dCtx d 1 ≠ 0 then (s.readOperand c (dCtx d 1)).map some else .ok none
  s.checkWrite c (dCtx d 2)
  if dCtx d 3 ≠ 0 then s.checkWrite c (dCtx d 3)
  let (s, c) := s.checkEpochs c (a :: b.toList)
  let s := (s.tallyReads c (a :: b.toList)).fillWindows c (a :: b.toList)
  let x : VecIn :=
    { d := d, a := s.toF32 c a (stochasticIn d 0)
      b := match b with
        | some b => s.toF32 c b (stochasticIn d 1)
        | none => fun _ _ => Fx.zero }
  let (s, c) := s.writeOutput c (dCtx d 2) srC 0x02 (fun _ r k => f.c x r k)
  let (s, c) := if dCtx d 3 ≠ 0 then
      s.writeOutput c (dCtx d 3) (dGradient d 3 && decide (dFmt d 3 ≠ 0x02)) 0x02 (fun _ r k => f.d x r k) else (s, c)
  let c := c.tookDraws a.ctx a.t.count (stochasticIn d 0)
  let c := match b with
    | some b => c.tookDraws b.ctx b.t.count (stochasticIn d 1)
    | none => c
  .ok (s.workDone c)

/-- The work of one VECTOR function, on its own commands. -/
def State.vectorWork (s : State) (q slot func : Nat) (f : VecFn) : State :=
  match s.running q slot opVector with
  | none => s
  | some c => if oFunc c.desc = func then (s.vectorRun c f).state else s

def execVAdd (q : Fin 128) (slot : BitVec 32) (s : State) : Answer :=
  doneMem s (s.vectorWork q.val slot.toNat 0x01 fnAdd)
def execVMul (q : Fin 128) (slot : BitVec 32) (s : State) : Answer :=
  doneMem s (s.vectorWork q.val slot.toNat 0x02 fnMul)
def execVAxpby (q : Fin 128) (slot : BitVec 32) (s : State) : Answer :=
  doneMem s (s.vectorWork q.val slot.toNat 0x03 fnAxpby)
def execVExp (q : Fin 128) (slot : BitVec 32) (s : State) : Answer :=
  doneMem s (s.vectorWork q.val slot.toNat 0x08 fnExp)
def execVRecip (q : Fin 128) (slot : BitVec 32) (s : State) : Answer :=
  doneMem s (s.vectorWork q.val slot.toNat 0x09 fnRecip)
def execVRsqrt (q : Fin 128) (slot : BitVec 32) (s : State) : Answer :=
  doneMem s (s.vectorWork q.val slot.toNat 0x0A fnRsqrt)
def execVSigmoid (q : Fin 128) (slot : BitVec 32) (s : State) : Answer :=
  doneMem s (s.vectorWork q.val slot.toNat 0x0B fnSigmoid)
def execVRowSum (q : Fin 128) (slot : BitVec 32) (s : State) : Answer :=
  doneMem s (s.vectorWork q.val slot.toNat 0x10 fnRowSum)
def execVRowMax (q : Fin 128) (slot : BitVec 32) (s : State) : Answer :=
  doneMem s (s.vectorWork q.val slot.toNat 0x11 fnRowMax)
def execVSoftmax (q : Fin 128) (slot : BitVec 32) (s : State) : Answer :=
  doneMem s (s.vectorWork q.val slot.toNat 0x18 fnSoftmax)
def execVRmsnorm (q : Fin 128) (slot : BitVec 32) (s : State) : Answer :=
  doneMem s (s.vectorWork q.val slot.toNat 0x19 fnRmsnorm)
def execVLayernorm (q : Fin 128) (slot : BitVec 32) (s : State) : Answer :=
  doneMem s (s.vectorWork q.val slot.toNat 0x1A fnLayernorm)
def execVTopkMax (q : Fin 128) (slot : BitVec 32) (s : State) : Answer :=
  doneMem s (s.vectorWork q.val slot.toNat 0x20 (.topk true))
def execVTopkMin (q : Fin 128) (slot : BitVec 32) (s : State) : Answer :=
  doneMem s (s.vectorWork q.val slot.toNat 0x21 (.topk false))
def execVConvert (q : Fin 128) (slot : BitVec 32) (s : State) : Answer :=
  doneMem s (s.vectorWork q.val slot.toNat 0x28 fnConvert)

end Sys2Proof.Machine
end

