-- ==== Sys2Proof/Machine/Moves.lean ====
section
/-! DEFINITION. The MOVE command (R231–R237): COPY, ARM and DUMP. -/

namespace Sys2Proof.Machine

/-! ### COPY -/

/-- Both tensors lay every element at the same offset: their plates move line by line. -/
def sameLayout (a b : Tensor) : Bool :=
  decide (a.fmt = b.fmt ∧ a.pitch1 = b.pitch1 ∧ a.pitch2 = b.pitch2)

/-- One block moved bit by bit to another layout: its elements, its scale code and its nuggets as they stand. -/
def moveBlock (a : Operand) (i : Nat) (l : List (Nat × Nat)) : BlockOut :=
  let cell (p : Nat × Nat) : Cell := cellAt a.t (fun _ => true) a.ps i p.1 p.2
  { code := (l.head?).bind fun p => (cell p).code
    elts := l.map fun p => (p.1, p.2, a.raw i p.1 p.2)
    nugs := l.filterMap fun p => (cell p).nug.map fun v => (p.1, p.2, bf16.encode v)
    stat := Stat.zero, clamps := 0, zeroed := 0 }

/-- The plates of a COPY whose formats are the same (R237): bits, scales, nuggets and epochs unchanged, SEQ and CRC
new. -/
def copyPlates (a : Operand) (c : Tensor) : List (Nat × Plate) :=
  if sameLayout a.t c then a.ps.map fun p => (p.1, p.2.move (c.base + p.1))
  else
    let epoch := (a.ps.head?.map fun p => p.2.epoch).getD 0
    let blocks := (List.range c.dim2).flatMap fun i => (List.range (ceilDiv c.dim1 32)).flatMap fun y =>
      (List.range (ceilDiv c.dim0 128)).flatMap fun x =>
        (bandBlocks c (fun _ _ _ => Fx.zero) i (32 * y) (128 * x)).map fun l =>
          (i, (l.filter fun s => s.x.isSome).map fun s => (s.r, s.c))
    let ps := blocks.foldl (fun ps b => layBlock c b.1 ps (moveBlock a b.1 b.2)) []
    finishPlates c epoch ((tensorLines c).map fun l => (l, SMap.get Plate.empty ps l))

/-- The work of a COPY (R237). -/
def State.copyRun (s : State) (c : Cmd) : Try State := do
  let d := c.desc
  let tC := ctxTensor (s.ctx (dCtx d 2)).desc
  let same := decide (tC.fmt = (ctxTensor (s.ctx (dCtx d 0)).desc).fmt)
  let sr := !same && (dGradient d 0 || dGradient d 2)
  s.checkDraws c (dCtx d 2) sr
  let a ← s.readOperand c (dCtx d 0)
  s.checkWrite c (dCtx d 2)
  let s := (s.tallyReads c [a]).fillWindows c [a]
  if same then
    let ps := copyPlates a tC
    let s := s.tally c (if s.remote tC then 0x0D else 0x0C) (if tC.stope then 0 else ps.length)
    let hit := s.epochHit (s.ownPlates tC ps)
    let s := ((s.emitTensor (dCtx d 2) tC ps).tellEpoch c.epochTold hit).fillWindow c (dCtx d 2) ps
    .ok (s.workDone { c with epochTold := c.epochTold || hit.isSome, unacked := c.unacked + ackCount tC ps })
  else
    let (s, c) := s.writeOutput c (dCtx d 2) sr a.t.fmt (fun i r k => (cellAt a.t (fun _ => true) a.ps i r k).value)
    .ok (s.workDone c)

/-- The running MOVE of a slot with a function. -/
def State.runningMove (s : State) (q slot func : Nat) : Option Cmd :=
  (s.running q slot opMove).filter fun c => decide (oMoveFunc c.desc = func)

def State.copyWork (s : State) (q slot : Nat) : State :=
  match s.runningMove q slot 1 with
  | none => s
  | some c => (s.copyRun c).state

def execCopy (q : Fin 128) (slot : BitVec 32) (s : State) : Answer := doneMem s (s.copyWork q.val slot.toNat)

/-! ### ARM -/

/-- The context number of local context `l` of a command's engine. -/
def State.localCtx (s : State) (c : Cmd) (l : Nat) : Nat :=
  (s.qDie c.q).num * 2 ^ 13 + dShaft c.desc * 2 ^ 9 + l

/-- Record j of an ARM or DUMP table. -/
def State.tableRecord (s : State) (d : BitVec 1024) (j : Nat) : Option (BitVec 512) :=
  (s.devRead (oTable d + 64 * j) 64).map fun b => BitVec.ofNat 512 (leNat b)

/-- The record's descriptor part and, with LOAD_COUNTER, its draw fields (R231). -/
def recordDesc (r : BitVec 512) : BitVec 364 := r.setWidth 364
def recordDraw (r : BitVec 512) : BitVec 84 := (r >>> 428).setWidth 84

/-- One record reaches its context, whose copy lies in the bin (R278, R280; R232, R233): at once when the generation has retired, else into the shadow; `none`
when a shadow is already there and the ARM stalls. -/
def State.armOne (s : State) (ctx : Nat) (d : BitVec 364) (draw : Option (BitVec 84)) : Option State :=
  let s := s.wake (ctxDie ctx) 18
  let x := s.ctx ctx
  if x.shadow.isSome then none
  else if s.outstanding ctx then some ((s.setCtx ctx { x with shadow := some (d, draw) }).bump (okey 0x4130 3) 1)
  else some (s.setCtx ctx (x.arm d draw))

/-- The records from `j` on, in ascending context order, until one stalls; how many have been loaded. -/
def State.armFrom (s : State) (c : Cmd) : List Nat → Nat → State × Nat
  | [], n => (s, n)
  | j :: rest, n =>
    match s.tableRecord c.desc j with
    | none => (s, n)
    | some r =>
      match s.armOne (s.localCtx c (oFirst c.desc + j)) (recordDesc r)
          (if oLoadCounter c.desc then some (recordDraw r) else none) with
      | none => (s, n)
      | some s => s.armFrom c rest (n + 1)

/-- The work of an ARM (R231–R233): it goes on where it stalled. -/
def State.armWork (s : State) (q slot : Nat) : State :=
  match s.runningMove q slot 2 with
  | none => s
  | some c =>
    let rest := (List.range (oCount c.desc)).filter fun j => decide (c.passes ≤ j)
    let (s, n) := s.armFrom c rest c.passes
    let c := { c with passes := n }
    if n = oCount c.desc then s.workDone c else s.setCmd c

/-- ARM: what stalled at the command's admission goes on (R232, R233). -/
def execArm (q : Fin 128) (slot : BitVec 32) (s : State) : Answer := done s (s.armWork q.val slot.toNat)

/-! ### DUMP -/

/-- The first line of a DUMP's table that cannot be written. -/
def State.dumpFault (s : State) (d : BitVec 1024) : Option Nat :=
  ((List.range (oCount d)).map fun j => oTable d + 64 * j).find? fun a => !decide (s.access a true = .served)

/-- The work of a DUMP (R237): the current records go to TABLE_ADDR; a page that is not present halts the engine's service
context (R227, R265). -/
def State.dumpWork (s : State) (q slot : Nat) : State :=
  match s.runningMove q slot 3 with
  | none => s
  | some c =>
    match s.dumpFault c.desc with
    | some a =>
      let svc := s.localCtx c 0
      let c := { c with bound := [(svc, (s.ctx svc).gen.toNat)] }
      (s.setCmd c).haltFault c svc a true
    | none =>
      let s := (List.range (oCount c.desc)).foldl (fun s j =>
        let a := oTable c.desc + 64 * j
        match s.physLine a with
        | none => s
        | some p => (s.store (p.data + a % 128) (leBytes 64 (ctxRecord (s.ctx (s.localCtx c (oFirst c.desc + j)))))).markDirty a) s
      s.workDone c

def execDump (q : Fin 128) (slot : BitVec 32) (s : State) : Answer := doneMem s (s.dumpWork q.val slot.toNat)

/-- A NOP does no work (R80). -/
def State.nopWork (s : State) (q slot : Nat) : State :=
  match s.running q slot opNop with
  | none => s
  | some c => s.setCmd { c with worked := true }

def execNop (q : Fin 128) (slot : BitVec 32) (s : State) : Answer := done s (s.nopWork q.val slot.toNat)

end Sys2Proof.Machine
end

