-- ==== Sys2Proof/Machine/Memory.lean ====
section
/-! DEFINITION. Pages and frames (R262–R267): page-ins, drains, the mapping batch, RESUME and retention. -/

namespace Sys2Proof.Machine

/-! ### Copying a frame -/

/-- Copy `n` bytes inside the one memory list. -/
def Mem.copy (m : List Host.Cell) (src dst n : Nat) : List Host.Cell :=
  let cells := m.filter fun c => decide (src ≤ c.1 ∧ c.1 < src + n)
  cells.foldl (fun m c => Mem.write m (dst + (c.1 - src)) c.2) (Mem.forget m dst (dst + n))

/-- The three parts of a frame or of a host pool slot. -/
structure Parts where
  data   : Nat
  margin : Nat
  nugget : Nat
deriving DecidableEq, Repr

def frameParts (tier unit frame : Nat) : Parts :=
  ⟨frameData tier unit frame, frameMargin tier unit frame, frameNugget tier unit frame⟩
def State.slotParts (s : State) (slot : Nat) : Parts := ⟨s.slotData slot, s.slotMargin slot, s.slotNugget slot⟩

/-- NUGGET of the tag of line l of a frame (R157). -/
def lineNugget (m : List Host.Cell) (p : Parts) (l : Nat) : Bool := bit (leNat (Mem.readN m (p.margin + 16 * l + 8) 4)) 25

/-- A page's nugget part: slots of lines whose tag has NUGGET set, zero elsewhere (R265). -/
def copyNuggets (m : List Host.Cell) (src dst : Parts) : List Host.Cell :=
  let cells := m.filter fun c => decide (src.nugget ≤ c.1 ∧ c.1 < src.nugget + 2 ^ 17) && lineNugget m src ((c.1 - src.nugget) / 8)
  cells.foldl (fun m c => Mem.write m (dst.nugget + (c.1 - src.nugget)) c.2) (Mem.forget m dst.nugget (dst.nugget + 2 ^ 17))

/-- Copy a page between frames: data and margins whole, nugget slots where NUGGET is set (R265); no stored error remains
in the lines written (R272). -/
def State.copyPage (s : State) (src dst : Parts) : State :=
  if src = dst then s
  else
    let m := copyNuggets s.mem src dst
    let m := Mem.copy (Mem.copy m src.data dst.data (2 ^ 21)) src.margin dst.margin (2 ^ 18)
    let s := s.sawWhere fun k => decide (src.data ≤ k ∧ k < src.data + 2 ^ 21)
    ({ s with mem := m }).healLines fun k => decide (dst.data ≤ k ∧ k < dst.data + 2 ^ 21)

/-- A line of a frame whose read fails, by its key. -/
def State.frameErr (s : State) (f : Nat × Nat × Nat) : Option Nat :=
  let lo := frameData f.1 f.2.1 f.2.2
  let here (k : Nat) : Bool := decide (lo ≤ k ∧ k < lo + 2 ^ 21)
  match s.page.ue.find? here with
  | some k => some k
  | none => (s.page.flaws.find? fun x => x.2 && here x.1).map Prod.fst

/-- The backing of an entry (R262). -/
def State.backParts (s : State) (e : Nat) : Option Parts :=
  if eBackTier e = 1 then some (frameParts 1 (eBackUnit e) (eBackFrame e))
  else if eBackTier e = 2 then some (s.slotParts (eBackFrame e))
  else none

/-! ### Who waits for a page -/

/-- Contexts halted on a page. -/
def State.pageWaiters (s : State) (page : Nat) : List Nat :=
  (s.ctxs.filter fun (p : Nat × Ctx) => decide (p.2.faultPage = some page)).map Prod.fst

/-- The die whose translation a queue walks (R472): its Trify die, or for Fixer die f, T2f or T2f + 1. -/
def State.walkDie (s : State) (q : Nat) : Nat :=
  match s.qDie q with
  | .f n => if s.fenced (Die.ofIx (2 * n.val)) then 2 * n.val + 1 else 2 * n.val
  | d => d.num

/-- Address of the descriptor at a slot index (R77, R78). -/
def State.descAddr (s : State) (q slot : Nat) : Nat := s.qBase q + 128 * (slot % s.qSize q)

/-- A running queue that has a descriptor to fetch. -/
def State.fetchDue (s : State) (q : Nat) : Bool :=
  decide (s.qState q = 1 ∧ s.qHead q ≠ s.qTail q) && !s.cmds.any fun c => decide (c.q = q ∧ c.phase = .fetched)

/-- Queues whose fetch waits for a page. -/
def State.fetchWaiters (s : State) (page : Nat) : List Nat :=
  (List.range 128).filter fun q => s.fetchDue q && decide (s.pageStart (s.descAddr q (s.qHead q)) = page)

/-- Completed commands whose record waits for a page. -/
def State.recordWaiters (s : State) (page : Nat) : List Cmd :=
  s.cmds.filter fun c => decide (c.phase = .done) && s.recordWaits c.q c.slot &&
    decide (s.pageStart (s.recordAddr c.q c.slot) = page)

/-- The Trify die that pages in: the first waiter's. -/
def State.pagerDie (s : State) (page : Nat) : Option Nat :=
  match s.pageWaiters page with
  | c :: _ => some (ctxDie c)
  | [] => match s.fetchWaiters page with
    | q :: _ => some (s.walkDie q)
    | [] => (s.recordWaiters page).head?.map fun c => s.walkDie c.q

/-- Fetches and records that wait for a page which cannot be brought in: the queues halt, the records are lost (R472). -/
def State.failWaiters (s : State) (page : Nat) : State :=
  let s := (s.fetchWaiters page).foldl (fun s q => s.haltQueue q 2 (s.qHead q) (s.qHead q)) s
  (s.recordWaiters page).foldl (fun s c =>
    let s := s.putBack c.q
    (s.haltQueue c.q 3 (s.qHead c.q) c.slot).leave c c.status) s

/-! ### Page-in (R265, R250) -/

/-- A page-in into a frame is under way, staged in the bin of a die (R278, R280). -/
def State.startIn (s : State) (page : Nat) (f : Nat × Nat × Nat) (t : Nat) : State :=
  let s := s.wake t 18
  { s with page := { s.page with ins := s.page.ins ++ [⟨page, f.1, f.2.1, f.2.2, t⟩], full := SMap.del s.page.full page } }

/-- A page-in that found no frame is tried again at each boundary (R265), as long as anything waits for its page; MEMORY_FULL is not
raised again. DEDUCED (log 199). -/
def State.retryPageIns (s : State) : State :=
  s.page.full.foldl (fun s p =>
    if s.access p.1 false ≠ .absent ∨ (s.pagerDie p.1).isNone then { s with page := { s.page with full := SMap.del s.page.full p.1 } }
    else if s.draining p.1 ∨ s.page.ins.any (fun i => decide (i.page = p.1)) then s
    else match s.chooseFrame p.2 (s.entryAt p.1) with
      | some f => s.startIn p.1 f p.2
      | none => s) s

/-- A page-in starts: a die manager of the faulting die chooses a frame (R265). -/
def pageIn (addr : Nat) (s : State) : State :=
  let page := s.pageStart addr
  let e := s.entryAt addr
  match s.pagerDie page with
  | none => s
  | some t =>
    if s.access addr false ≠ .absent ∨ s.draining addr ∨ s.page.ins.any (fun i => decide (i.page = page)) then s
    else match s.chooseFrame t e with
      | some f => s.startIn page f t
      | none =>
        let ctx := (s.pageWaiters page).headD 0
        let s := { s with page := { s.page with full := SMap.put s.page.full page t } }
        (s.raiseAt 0x4404 2 (unitOfDie (Die.ofIx t)) 0 0 ctx (addrHi page)).failWaiters page

def execPageIn (addr : BitVec 52) (s : State) : Answer := doneMem s (pageIn addr.toNat s)

/-- A command bound to a context halts with MEMORY (R265). -/
def State.haltWaiter (s : State) (ctx addr : Nat) : State :=
  match s.userOf ctx with
  | none => s
  | some c => s.haltMemory c ctx addr

/-- The page that a context waited for is present: its TRANSLATION cause clears (R250). -/
def State.pageServes (s : State) (ctx : Nat) : State :=
  let s := s.clearCause ctx .translation
  s.setCtx ctx { s.ctx ctx with faultPage := none }

/-- A page-in ends (R265): the copy is installed and its waiters' TRANSLATION cause clears, or, when the read of the
backing failed, nothing is installed and every context waiting on the page halts with MEMORY. -/
def pageInDone (addr : Nat) (readError : Bool) (s : State) : State :=
  let page := s.pageStart addr
  let e := s.entryAt addr
  match s.page.ins.find? fun i => decide (i.page = page) with
  | none => s
  | some i =>
    let s := { s with page := { s.page with ins := s.page.ins.filter fun j => !decide (j.page = page) } }
    let back := (1, eBackUnit e, eBackFrame e)
    let hit := if eBackTier e = 1 then s.frameErr back else none
    if readError ∨ hit.isSome then
      let s := if eBackTier e = 1 then
          let f := back
          (s.foundUe f (hit.getD (frameData 1 f.2.1 f.2.2))).raise 0x4401 2 (ueArg f).1 (ueArg f).2
        else s
      let s := (s.pageWaiters page).foldl (fun s c => s.haltWaiter c page) s
      s.failWaiters page
    else
      match s.backParts e with
      | none => s
      | some src =>
        let s := s.copyPage src (frameParts i.tier i.unit i.frame)
        let e := setBits (setBits (setBits (setBits (setBits e 61 61 1) 59 59 0) 58 58 i.tier) 57 52 i.unit) 51 32 i.frame
        let s := (s.setEntry page e).bump (okey 0x4410 6) 1
        (s.pageWaiters page).foldl (fun s c => s.pageServes c) s

def execPageInDone (addr : BitVec 52) (readError : Bool) (s : State) : Answer :=
  doneMem s (pageInDone addr.toNat readError s)

/-! ### The mapping batch (R264, R266) -/

/-- Bytes of a page of an entry. -/
def pageBytes (e : Nat) : Nat := if eKind e = 3 then 2 ^ 30 else 2 ^ 21

/-- The frames that an entry names, host pool slots beside them under tier 2. -/
def namedFrames (e : Nat) : List Nat :=
  entryFrames e ++ (if eBackTier e = 2 then [frameKey 2 0 0 + eBackFrame e] else [])

/-- The frames that one page takes, each once. -/
def pageFrames (e : Nat) : List Nat :=
  (namedFrames e).foldl (fun l k => if memN k l then l else k :: l) []

/-- An entry's own fields are in range (R261, R262, R264). -/
def State.entryFits (s : State) (a e : Nat) : Bool :=
  let presentOk := !ePresent e ||
    (if eTier e = 0 then decide (eUnit e < 64 ∧ eFrame e + (if eKind e = 3 then 511 else 0) < 15360)
     else decide (eUnit e < 16 ∧ eFrame e + (if eKind e = 3 then 511 else 0) < 212992))
  let backOk := if eBackTier e = 1 then decide (eBackUnit e < 16 ∧ eBackFrame e < 212992)
    else if eBackTier e = 2 then decide (eBackUnit e = 0 ∧ eBackFrame e < s.ob 0x4410 5)
    else true
  inData a && decide (eKind e ≠ 1) && !eDirty e &&
    (decide (eKind e = 0) || (decide (a % pageBytes e = 0) && presentOk && backOk)) &&
    (decide (eKind e ≠ 0) || decide (a % 2 ^ 21 = 0)) &&
    (decide (eKind e ≠ 3) || (ePresent e && decide (eFrame e % 512 = 0))) &&
    !(namedFrames e).any fun k => memN k s.page.retired

/-- The two tables. -/
structure Tables where
  small : List (Nat × BitVec 64)
  large : List (Nat × BitVec 64)
deriving DecidableEq, Repr

/-- A pair put into the tables, drains aside (R264). -/
def Tables.put (t : Tables) (a e : Nat) : Tables :=
  if eKind e = 3 then { t with large := SMap.put t.large (a / 2 ^ 30) (BitVec.ofNat 64 e) }
  else if eKind e = 0 then
    if (SMap.get? t.large (a / 2 ^ 30)).isSome ∧ a % 2 ^ 30 = 0 then { t with large := SMap.del t.large (a / 2 ^ 30) }
    else { t with small := SMap.del t.small (a / 2 ^ 21) }
  else { t with small := SMap.put t.small (a / 2 ^ 21) (BitVec.ofNat 64 e) }

/-- No value occurs twice in a list of lists. -/
def disjoint : List (List Nat) → Bool
  | [] => true
  | l :: t => (t.all fun m => !l.any fun k => memN k m) && disjoint t

/-- The tables that a batch leaves are ones it may leave (R264): no frame shared, nor one of `held`, no 2 MiB page in a 1 GiB page,
level-2 slots enough. -/
def Tables.fit (t : Tables) (held : List (List Nat)) : Bool :=
  let regions := (t.small.map fun p => p.1 / 512).foldl (fun l k => if memN k l then l else k :: l) []
  disjoint (((t.small ++ t.large).map fun p => pageFrames p.2.toNat) ++ held) &&
    (t.small.all fun p => (SMap.get? t.large (p.1 / 512)).isNone) && decide (regions.length ≤ 97792)

/-- An unmapping inside a 1 GiB page names no page. -/
def Tables.names (t : Tables) (a e : Nat) : Bool :=
  !decide (eKind e = 0) || (SMap.get? t.large (a / 2 ^ 30)).isNone || decide (a % 2 ^ 30 = 0)

/-- The entry that stands for an address in two tables. -/
def Tables.entry (t : Tables) (a : Nat) : Nat :=
  match SMap.get? t.large (a / 2 ^ 30) with
  | some e => e.toNat
  | none => (SMap.get 0 t.small (a / 2 ^ 21)).toNat

/-- The tables once the pages that are draining have their new entries (R266). -/
def State.tablesAhead (s : State) : Tables :=
  s.page.drains.foldl (fun t d => (t.put d.page 0).put d.page d.new.toNat) ⟨s.page.small, s.page.large⟩

/-- Frames that are not free though no entry that will stand names them: those that a drain still empties and those that the page-in of
a page outside a batch fills (R265, R266). -/
def State.heldFrames (s : State) (t : Tables) (pairs : List (Nat × Nat)) : List (List Nat) :=
  (s.page.drains.map fun d => (pageFrames d.old.toNat).filter fun k => !memN k (pageFrames (t.entry d.page))) ++
    (s.page.ins.filter fun i => !pairs.any fun p => decide (p.1 = i.page)).map fun i =>
      [frameKey i.tier i.unit i.frame].filter fun k => !memN k (pageFrames (t.entry i.page))

/-- A batch is one that the module accepts (R264). -/
def State.batchOk (s : State) (pairs : List (Nat × Nat)) : Bool :=
  let t := pairs.foldl (fun (acc : Tables × Bool) p => (acc.1.put p.1 p.2, acc.2 && acc.1.names p.1 p.2)) (s.tablesAhead, true)
  (pairs.all fun p => s.entryFits p.1 p.2) && t.2 && t.1.fit (s.heldFrames t.1 pairs)

/-- The pairs of a batch's bytes. -/
def batchPairs : Nat → Bytes → List (Nat × Nat)
  | 0, _ => []
  | n + 1, b => (leNat (b.take 8), leNat ((b.drop 8).take 8)) :: batchPairs n (b.drop 16)

/-- An entry set in either table. -/
def State.putEntry (s : State) (a e : Nat) : State :=
  let t := Tables.put ⟨s.page.small, s.page.large⟩ a e
  { s with page := { s.page with small := t.small, large := t.large } }

/-- An entry names the frame that another has the page in. -/
def sameFrame (a old e : Nat) : Bool := ePresent e && decide (frameOf a old = frameOf a e ∧ eKind old = eKind e)

/-- An entry as it is installed: the same frame named again keeps DIRTY (R264). -/
def keepDirty (a old e : Nat) : Nat := if sameFrame a old e ∧ eDirty old then setBits e 59 59 1 else e

/-- One pair takes effect (R264, R266, R267): a page-in of the page is discarded; a present page that moves or goes
absent drains first, and a later pair for a page that drains says what its entry becomes; the same frame named again keeps DIRTY. -/
def State.mapOne (s : State) (a e : Nat) : State :=
  let old := s.entryAt a
  let page := s.pageStart a
  let s := { s with page := { s.page with
    ins := s.page.ins.filter fun i => !decide (i.page = page ∨ i.page = a), dead := s.page.dead.filter fun p => !decide (p = page) } }
  if a = page ∧ s.page.drains.any (fun d => decide (d.page = page)) then
    { s with page := { s.page with drains := s.page.drains.map fun d =>
      if d.page = page then { d with new := BitVec.ofNat 64 (keepDirty a d.old.toNat e) } else d } }
  else if !ePresent old ∨ sameFrame a old e then s.putEntry a (keepDirty a old e)
  else
    let s := s.putEntry page (setBits old 61 61 0)
    { s with page := { s.page with drains := s.page.drains ++ [⟨page, BitVec.ofNat 64 old, BitVec.ofNat 64 e⟩] } }

/-- A batch takes effect in list order (R264). -/
def State.mapApply (s : State) (pairs : List (Nat × Nat)) : State := pairs.foldl (fun s p => s.mapOne p.1 p.2) s

/-- The frames of an entry's page, in order of address. -/
def presentFrames (e : Nat) : List (Nat × Nat × Nat) :=
  (List.range (if eKind e = 3 then 512 else 1)).map fun j => (eTier e, eUnit e, eFrame e + j)

/-- An entry that maps a page to a frame. -/
def mapsFrame (e : Nat) : Bool := decide (eKind e ≠ 0) && ePresent e

/-- A drained page is copied at all: to its new frame, or when DIRTY to its old backing (R266). -/
def State.copies (s : State) (page old new : Nat) : Bool :=
  if mapsFrame new then !sameFrame page old new else eDirty old && (s.backParts old).isSome

/-- A drained page is copied to its new frame, or when DIRTY to its old backing (R266). -/
def State.copyOut (s : State) (old new : Nat) : State :=
  if mapsFrame new then
    ((presentFrames old).zip (presentFrames new)).foldl (fun s p =>
      s.copyPage (frameParts p.1.1 p.1.2.1 p.1.2.2) (frameParts p.2.1 p.2.2.1 p.2.2.2)) s
  else if eDirty old then
    match s.backParts old with
    | none => s
    | some b => s.copyPage (frameParts (eTier old) (eUnit old) (eFrame old)) b
  else s

/-- The first line that the copy of a page fails to read: one that the command names by its place in the page, or one that holds an
error; its frame and key. -/
def State.drainErr (s : State) (page old : Nat) (bad : Option Nat) : Option ((Nat × Nat × Nat) × Nat) :=
  match bad with
  | some o =>
    let f := frameOf (page + o) old
    some (f, (framePlace f (bits o 20 7)).data)
  | none => (presentFrames old).findSome? fun f => (s.frameErr f).map fun k => (f, k)

/-- What waited for a page during its drain finds the new entry (R265, R266): its frame serves, it asks for a page-in, or it has no
backing and STREAM_FAULT is raised (R250). -/
def State.afterDrain (s : State) (page : Nat) : State :=
  (s.pageWaiters page).foldl (fun s ctx =>
    match s.access page false with
    | .served => s.pageServes ctx
    | .absent => s
    | .noBacking =>
      let s := match s.userOf ctx with
        | some c => s.raiseCmd c 0x4101 1 ctx (addrHi page)
        | none => s
      s.setCtx ctx { s.ctx ctx with faultPage := none }) s

/-- After the drain marker the page is copied out and its new entry installed; an error leaves it unmapped, and whatever faults on it
halts with MEMORY (R266). `bad` is the place in the page of a line whose read shows an uncorrectable error. -/
def pageDrainDone (addr : Nat) (bad : Option Nat) (s : State) : State :=
  let page := s.pageStart addr
  match s.page.drains.find? fun d => decide (d.page = page) with
  | none => s
  | some d =>
    let old := d.old.toNat
    let new := d.new.toNat
    let s := { s with page := { s.page with drains := s.page.drains.filter fun x => !decide (x.page = page) } }
    match (if s.copies page old new then s.drainErr page old bad else none) with
    | some (f, k) =>
      let s := s.putEntry page 0
      let s := { s with page := { s.page with dead := page :: s.page.dead } }
      let s := (s.foundUe f k).raise 0x4401 2 (ueArg f).1 (ueArg f).2
      (s.pageWaiters page).foldl (fun s c => s.haltWaiter c page) s
    | none =>
      let s := if s.copies page old new then s.copyOut old new else s
      ((s.putEntry page 0).putEntry page new).afterDrain page

def execPageDrainDone (addr : BitVec 52) (bad : Option (BitVec 30)) (s : State) : Answer :=
  doneMem s (pageDrainDone addr.toNat (bad.map BitVec.toNat) s)

/-- An entry's present or backing frame lies in a unit. -/
def entryIn (tier unit e : Nat) : Bool :=
  (ePresent e && decide (eTier e = tier ∧ eUnit e = unit)) || (decide (tier = 1) && decide (eBackTier e = 1 ∧ eBackUnit e = unit))

/-- Every entry whose present or backing frame lies in a unit becomes unmapped (R16, R274): a page that drains out of the unit too, and
one that was to move there; a page-in into the unit ends. -/
def State.unmapUnit (s : State) (tier unit : Nat) : State :=
  let gone := (s.page.drains.filter fun d => entryIn tier unit d.old.toNat).map Drain.page
  let s := gone.foldl (fun s a => s.putEntry a 0) s
  { s with page := { s.page with
    small := s.page.small.filter fun p => !entryIn tier unit p.2.toNat
    large := s.page.large.filter fun p => !entryIn tier unit p.2.toNat
    ins := s.page.ins.filter fun i => !decide (i.tier = tier ∧ i.unit = unit)
    drains := (s.page.drains.filter fun d => !memN d.page gone).map fun d =>
      if entryIn tier unit d.new.toNat then { d with new := 0 } else d } }

/-! ### Objects -/

/-- RESUME clears the TRANSLATION cause of a context (R250). -/
def State.resumeCtx (s : State) (ctx : Nat) : State := s.pageServes ctx

/-- A context that RESUME may name: halted with cause TRANSLATION (R250). -/
def State.mayResume (s : State) (ctx : Nat) : Bool :=
  decide ((s.ctx ctx).state = .halted) && (s.ctx ctx).causes.any fun k => decide (k = .translation)

/-! ### Retention (R280) -/

/-- A retained stope, or the bin (18), wakes. -/
def retentionWake (die : Nat) (unit : Nat) (s : State) : State := s.wake die unit

def execRetentionWake (die : Fin 32) (shaft : Option (Fin 18)) (s : State) : Answer :=
  done s (retentionWake die.val (match shaft with
    | none => 18
    | some p => p.val) s)

end Sys2Proof.Machine
end

