-- ==== Sys2Proof/Machine/Validate.lean ====
section
/-! DEFINITION. Validation of a descriptor (R81): the ten checks in their order, with the checks of the chapters that own
the opcodes (R105, R123–R127, R130, R131, R192, R199, R227, R231, R236–R238, R292–R294, R328, R335). -/

namespace Sys2Proof.Machine

/-! ### Checks 1 to 3 -/

/-- The die kinds an opcode runs on (R80): Trify, Fixer. -/
def opKinds (op : Nat) : Bool × Bool :=
  match op with
  | 0x01 => (true, true)
  | 0x10 => (true, false)
  | 0x20 => (true, false)
  | 0x30 => (true, false)
  | 0x40 => (false, true)
  | 0x41 => (false, true)
  | 0x48 => (false, true)
  | 0x49 => (false, true)
  | _ => (false, false)

/-- Check 1: OPCODE is defined and allowed on the die kind. -/
def opcodeOk (die : Die) (d : BitVec 1024) : Bool :=
  match die with
  | .t _ => (opKinds (dOpcode d)).1
  | .f _ => (opKinds (dOpcode d)).2
  | .d _ => false

/-- Every bit of a run of descriptor bits is zero. -/
def zeroBits (d : BitVec 1024) (l : List (Nat × Nat)) : Bool := l.all fun r => decide (dBits d r.1 r.2 = 0)

/-- Reserved bits outside OPERANDS (R80). -/
def reservedDesc : List (Nat × Nat) :=
  [(511, 448), (367, 365), (335, 333), (319, 306), (287, 274), (255, 242), (223, 210), (191, 176), (167, 166), (159, 159),
   (151, 151), (143, 143), (135, 135), (31, 24)]

/-- Bits of OPERANDS that an opcode's layout marks reserved, as OPERANDS bit numbers; all of them for VERDICT (R199) and
for NOP, which has no operands (log entry 28). -/
def reservedOps (op : Nat) : List (Nat × Nat) :=
  match op with
  | 0x10 => [(399, 384), (351, 262), (257, 0)]
  | 0x20 => [(495, 480), (319, 0)]
  | 0x30 => [(503, 500), (430, 0)]
  | 0x40 => [(331, 0)]
  | 0x48 => [(365, 0)]
  | 0x49 => [(413, 0)]
  | _ => [(511, 0)]

/-- Check 2: reserved bits, and fields that R80 requires to be zero. -/
def reservedOk (die : Die) (d : BitVec 1024) : Bool :=
  zeroBits d reservedDesc && zeroBits d ((reservedOps (dOpcode d)).map fun r => (512 + r.1, 512 + r.2)) &&
    (decide (dOpcode d = opArray) || zeroBits d [(23, 11), (175, 168)]) &&
    (decide (die.kind ≠ 3) || decide (dEngine d = 0 ∧ dShaft d = 0))

/-! ### Check 4: formats and operands present (R125, R131, R166, R237, R294) -/

/-- Operand j is there: a format and a context. -/
def opndPresent (d : BitVec 1024) (j : Nat) : Bool := decide (dFmt d j ≠ 0 ∧ dCtx d j ≠ 0)
/-- Operand j is absent: format code 0x00 and context 0 (R125). -/
def opndAbsent (d : BitVec 1024) (j : Nat) : Bool := decide (dFmt d j = 0 ∧ dCtx d j = 0)

/-- D must be there (R125). -/
def arrayNeedsD (d : BitVec 1024) : Bool := decide (dReduce d ≠ 0) || (decide (dPrecision d ≠ 0) && !oFold d)

/-- C's and D's formats (R120, R125). -/
def arrayOutFmts (d : BitVec 1024) : Bool :=
  decide (dFmt d 2 ≠ 0x0E) && (decide (dReduce d = 0) || decide (dFmt d 2 = 0x02 ∧ dFmt d 3 = 0x02)) &&
    (decide (dReduce d ≠ 0 ∨ dPrecision d = 0) || oFold d ||
      (let f := if dPrecision d = 3 then 0x01 else 0x02; decide (dFmt d 2 = f ∧ dFmt d 3 = f)))

/-- The operands that a vector function uses (R129): A, B, C, D. -/
def vecUses (func : Nat) : Option (List Nat) :=
  if memN func [0x01, 0x02, 0x03, 0x19, 0x1A] then some [0, 1, 2]
  else if memN func [0x08, 0x09, 0x0A, 0x0B, 0x10, 0x18, 0x28] then some [0, 2]
  else if memN func [0x11, 0x20, 0x21] then some [0, 2, 3]
  else none

/-- Formats that an UPDATE's gradient may have (R294). -/
def gradFmts : List Nat := [0x17, 0x16, 0x11, 0x15, 0x04, 0x02]

/-- Check 4 of an opcode. -/
def State.formatsOk (s : State) (die : Die) (d : BitVec 1024) : Bool :=
  ([0, 1, 2, 3].all fun j => decide (dFmt d j = 0) || fmtDefined (dFmt d j)) &&
  ([0, 1, 2, 3].all fun j => !(decide (dFmt d j = 0x0E) && dGradient d j)) &&
  (match dOpcode d with
    | 0x10 => [0, 1, 2].all (opndPresent d) && (if arrayNeedsD d then opndPresent d 3 else opndAbsent d 3) && arrayOutFmts d
    | 0x20 => match vecUses (oFunc d) with
      | none => true
      | some us => [0, 1, 2, 3].all fun j => if memN j us then opndPresent d j else opndAbsent d j
    | 0x30 =>
      if oMoveFunc d = 1 then decide (dFmt d 0 ≠ 0 ∧ dFmt d 2 ≠ 0 ∧ dOpnd d 1 = 0 ∧ dOpnd d 3 = 0)
      else [0, 1, 2, 3].all fun j => decide (dOpnd d j = 0)
    | 0x40 => memN (dFmt d 0) gradFmts && dGradient d 0 && ([1, 2, 3].all fun j => decide (dOpnd d j = 0)) &&
      (decide (dFmt d 0 ≠ 0x15) || !gTouched (s.group die.num (oGroup d)))
    | _ => [0, 1, 2, 3].all fun j => decide (dOpnd d j = 0))

/-! ### Check 5: modes (R105, R123, R124, R217, R131, R237) -/

/-- Format families of R123. -/
def fp8Family (f : Nat) : Bool := memN f [0x08, 0x09, 0x0A, 0x10, 0x11, 0x12, 0x13, 0x14, 0x15, 0x16, 0x17]
def intFamily (f : Nat) : Bool := memN f [0x0C, 0x0D, 0x18, 0x19]

/-- The row of R123 for G4: integers with integers, or BF16 with BF16 or the FP8 family, on either side (log entry 29). -/
def g4Pair (a b : Nat) : Bool :=
  (intFamily a && intFamily b) || (decide (a = 0x04) && (decide (b = 0x04) || fp8Family b)) ||
    (decide (b = 0x04) && fp8Family a)

/-- Some row of R123 fits. -/
def allowedSetting (m : Mode) (a b : Nat) : Bool :=
  match m.gang with
  | 0 =>
    (decide (m.precision = 0 ∧ m.product ≤ 3 ∧ m.reduce ≤ 2 ∧ m.partition ≤ 2) && fp8Family a && fp8Family b) ||
    (decide (m.precision = 1 ∧ m.product ≤ 3 ∧ m.reduce = 0 ∧ m.partition ≤ 2) && fp8Family a && fp8Family b) ||
    (decide (m.precision = 0 ∧ m.product = 4 ∧ m.reduce = 0 ∧ m.partition ≤ 1) && decide (a = 0x0E) &&
      fp8Family b && !memN b [0x0A, 0x12, 0x13])
  | 1 =>
    (decide (m.precision = 0 ∧ m.product ≤ 3 ∧ m.reduce ≤ 2 ∧ m.partition ≤ 1) && g4Pair a b) ||
    (decide (m.precision = 1 ∧ m.product ≤ 3 ∧ m.reduce = 0 ∧ m.partition ≤ 1) && g4Pair a b) ||
    decide (m.precision = 2 ∧ m.product = 0 ∧ m.reduce = 0 ∧ m.partition = 0 ∧ a = 0x02 ∧ b = 0x02)
  | 2 =>
    decide (m.precision ≤ 1 ∧ m.product = 0 ∧ m.reduce = 0 ∧ m.partition = 0 ∧ a = 0x03 ∧ b = 0x03) ||
    decide (m.precision = 3 ∧ m.product = 0 ∧ m.reduce = 0 ∧ m.partition = 0 ∧ a = 0x01 ∧ b = 0x01)
  | _ => false

/-- A format with its own blocks: 1D or square. -/
def ownBlocks (f : Nat) : Bool := decide (fmtGeom f = .block ∨ fmtGeom f = .square)

/-- GROUP_SIZE (R124, R217). -/
def groupOk (m : Mode) (a b : Nat) : Bool :=
  decide (m.group ≤ 2) &&
  if m.product = 4 then decide (m.group = 0) || (!ownBlocks b && decide (32 <<< m.group ≤ m.chunk))
  else decide (32 <<< m.group ≤ m.tile) && (decide (m.group = 0) || (!ownBlocks a && !ownBlocks b && decide (m.reduce = 0)))

/-- Check 5 of an opcode. -/
def modeOk (d : BitVec 1024) : Bool :=
  match dOpcode d with
  | 0x10 => decide (dEngine d ≤ 1) && allowedSetting (dMode d) (dFmt d 0) (dFmt d 1) &&
      groupOk (dMode d) (dFmt d 0) (dFmt d 1) &&
      !(oTransA d && decide (fmtGeom (dFmt d 0) = .block)) && !(oTransB d && decide (fmtGeom (dFmt d 1) = .block))
  | 0x20 => decide (dEngine d = 2)
  | 0x30 => decide (dEngine d = 3)
  | _ => true

/-! ### Checks 7 to 9 -/

/-- Check 7: LOGICAL_SHAFT is below LOGICAL_SHAFTS of the die. -/
def State.shaftOk (s : State) (die : Die) (d : BitVec 1024) : Bool :=
  decide (die.kind ≠ 1) || decide (dShaft d < s.reg (dkeyOf die 0x10 1))

/-- Check 8 (R227, R237, R292). -/
def ctxsOk (die : Die) (d : BitVec 1024) : Bool :=
  (if die.kind = 3 then [0, 1, 2, 3].all fun j => decide (dCtx d j = 0)
   else [0, 1, 2, 3].all fun j => let c := dCtx d j
     decide (c = 0) || decide (ctxDie c = die.num ∧ ctxShaft c = dShaft d ∧ ctxLocal c ≠ 0)) &&
  (if dOpcode d = opMove then
     if oMoveFunc d = 1 then decide (dCtx d 0 ≠ 0 ∧ dCtx d 2 ≠ 0 ∧ dCtx d 1 = 0 ∧ dCtx d 3 = 0)
     else [0, 1, 2, 3].all fun j => decide (dCtx d j = 0)
   else true)

/-- Check 9 (R89, R192, R199). -/
def State.mustersOk (s : State) (d : BitVec 1024) : Bool :=
  let one (en : Bool) (m r : Nat) : Bool :=
    !en || (mEnabled (s.mEntry m) && (!s.isStep m || decide (r = dStep d % 65536)))
  one (dWaitEn d) (dWaitMuster d) (dWaitRound d) && one (dArriveEn d) (dArriveMuster d) (dArriveRound d) &&
    (decide (dOpcode d ≠ opVerdict) ||
      (dWaitEn d && s.isStep (dWaitMuster d) && decide (dWaitRound d = dStep d % 65536)))

/-! ### Check 10: contexts (R238) -/

/-- Lines of one unit of a command in a context: a tile for A, a chunk for B, else a band of 32 rows (log entry 30). -/
def unitLines (d : BitVec 1024) (j : Nat) (t : Tensor) : Nat :=
  let md := dMode d
  let (rows, cols) :=
    if dOpcode d = opArray ∧ j = 0 then (min md.tile t.dim1, min md.tile t.dim0)
    else if dOpcode d = opArray ∧ j = 1 then
      (if oTransB d then (t.dim1, min md.chunk t.dim0) else (min md.chunk t.dim1, t.dim0))
    else (min 32 t.dim1, t.dim0)
  if isSquare t.fmt then ceilDiv rows 32 * ceilDiv cols 32 * fmtBits t.fmt
  else rows * ceilDiv (rowBytes t.fmt cols) 128

/-- What an operand's context has to be: problems, rows, columns, direction. -/
structure Want where
  dim2 : Nat
  dim1 : Nat
  dim0 : Nat
  dir  : Nat
deriving DecidableEq, Repr

/-- One named context fits (R238). -/
def State.ctxFits (s : State) (d : BitVec 1024) (j : Nat) (w : Want) : Bool :=
  let x := s.ctx (dCtx d j)
  let r := x.newest
  let t := ctxTensor r
  !(decide (x.state = .empty) && x.shadow.isNone) && decide (t.fmt = dFmt d j) && decide (cDir r = w.dir) &&
    decide (t.dim2 = w.dim2 ∧ t.dim1 = w.dim1 ∧ t.dim0 = w.dim0) &&
    (t.stope || decide (2 * unitLines d j t ≤ cStopeLines r))

/-- Every named context fits what its operand wants; one that the command has no use for never does. -/
def State.ctxsFit (s : State) (d : BitVec 1024) (want : Nat → Option Want) : Bool :=
  [0, 1, 2, 3].all fun j => decide (dCtx d j = 0) ||
    match want j with
    | some w => s.ctxFits d j w
    | none => false

/-- Shapes of an ARRAY command (R238). -/
def arrayWant (d : BitVec 1024) (j : Nat) : Option Want :=
  let out := if oAccIn d then 2 else 1
  match j with
  | 0 => some (if oTransA d then ⟨oBatch d, oK d, oN d, 0⟩ else ⟨oBatch d, oN d, oK d, 0⟩)
  | 1 => some (if oTransB d then ⟨oBatch d, oK d, oM d, 0⟩ else ⟨oBatch d, oM d, oK d, 0⟩)
  | _ => some ⟨oBatch d, oM d, oN d, out⟩

/-- Check 10 of an ARRAY command (R127). -/
def State.arrayOpsOk (s : State) (d : BitVec 1024) : Bool :=
  decide (oM d ≠ 0 ∧ oK d ≠ 0 ∧ oN d ≠ 0 ∧ oBatch d ≠ 0) &&
    decide (if dReduce d = 0 then oOrigin d = 0 else oOrigin d + oK d ≤ 2 ^ 24) &&
    !(oFold d && decide (dPrecision d = 0)) &&
    decide (dGather d = 0 ∨ (oM d ≤ 128 ∧ oBatch d = 1 ∧ dPartition d = 0)) && s.ctxsFit d (arrayWant d)

/-- Shapes of a VECTOR command (R129). -/
def vecWant (d : BitVec 1024) (j : Nat) : Option Want :=
  let f := oFunc d
  let cols := if memN f [0x10, 0x11] then 1 else if memN f [0x20, 0x21] then oTopK d else oCols d
  match j with
  | 0 => some ⟨1, oRows d, oCols d, 0⟩
  | 1 => some (if memN f [0x19, 0x1A] then ⟨1, 1, oCols d, 0⟩ else ⟨1, oRows d, oCols d, 0⟩)
  | _ => some ⟨1, oRows d, cols, 1⟩

/-- Check 10 of a VECTOR command (R131). -/
def State.vecOpsOk (s : State) (d : BitVec 1024) : Bool :=
  let f := oFunc d
  let topk := memN f [0x20, 0x21]
  let finite (v : Nat) : Bool := (f32.decode v).isFinite
  (vecUses f).isSome && decide (oRows d ≠ 0 ∧ oCols d ≠ 0) &&
    (if topk then decide (1 ≤ oTopK d ∧ oTopK d ≤ min 64 (oCols d)) else decide (oTopK d = 0)) &&
    (if f = 0x03 then finite (oAlpha d) && finite (oBeta d) else decide (oAlpha d = 0 ∧ oBeta d = 0)) &&
    (if memN f [0x19, 0x1A] then finite (oEps d) && decide (oEps d ≠ 0 ∧ oEps d < 2 ^ 31) else decide (oEps d = 0)) &&
    decide (oCols d ≤ 2 ^ 24 ∨ memN f [0x11, 0x20, 0x21] = false) && s.ctxsFit d (vecWant d)

/-! ### Check 10: MOVE (R231, R236–R238) -/

/-- Row pitch of a format (R149, R230). -/
def pitchOk (t : Tensor) : Bool :=
  if isSquare t.fmt then decide (t.pitch1 = 0)
  else if isScaled t.fmt ∧ fmtBits t.fmt = 8 then decide (t.pitch1 % 2 = 0) else true

/-- Alignment of a tensor's base (R231). -/
def baseAlign (f : Nat) : Nat := if isSquare f then squareBytes f else 128

/-- A record that ARM may load (R231), whose tensor lies within the data space (R260). -/
def State.armRecordOk (s : State) (r : BitVec 512) (counter : Bool) : Bool :=
  let d : BitVec 364 := r.setWidth 364
  let t := ctxTensor d
  (cStope d || decide (cBase d + tensorSpan t ≤ 2 ^ 48)) &&
  decide (bits d.toNat 87 0 = 0) && fmtDefined t.fmt && decide (cDir d ≠ 3) &&
    decide (1 ≤ t.dim0 ∧ 1 ≤ t.dim1 ∧ 1 ≤ t.dim2) && pitchOk t &&
    (if cStope d then
       decide (cBase d = 0 ∧ cModule d = 0 ∧ tensorSpan t ≤ 128 * cStopeLines d)
     else decide (cBase d % baseAlign t.fmt = 0 ∧ problemSpan t ≤ 128 * t.pitch2)) &&
    decide (16 ≤ cStopeLines d ∧ cStopeBase d + cStopeLines d ≤ 47104) &&
    (if isExposed t.fmt then
       let e := s.expo (cSlot d)
       exEnabled e && decide (exGrad e = decide (t.fmt = 0x17))
     else decide (cSlot d = 0)) &&
    (!counter || decide (bits r.toNat 511 508 = 0))

/-- Check 10 of a MOVE. A table that cannot be read holds no record that R231 allows (log entry 31). -/
def State.moveOpsOk (s : State) (d : BitVec 1024) : Bool :=
  match oMoveFunc d with
  | 1 =>
    let a := (s.ctx (dCtx d 0)).newest
    let t := ctxTensor a
    decide (oTable d = 0 ∧ oFirst d = 0 ∧ oCount d = 0) && !oLoadCounter d &&
      s.ctxsFit d (fun j => if j = 0 then some ⟨t.dim2, t.dim1, t.dim0, 0⟩ else some ⟨t.dim2, t.dim1, t.dim0, 1⟩) &&
      !(decide (dFmt d 2 = 0x0E) && dGradient d 0)
  | f =>
    decide (f = 2 ∨ f = 3) && decide (oTable d % 64 = 0) &&
      decide (1 ≤ oFirst d ∧ 1 ≤ oCount d ∧ oCount d ≤ 64 ∧ oFirst d + oCount d - 1 ≤ 511) &&
      (if f = 2 then (List.range (oCount d)).all fun j =>
          !s.lineBad (oTable d + 64 * j) && (match s.tableRecord d j with
            | some r => s.armRecordOk r (oLoadCounter d)
            | none => false)
       else !oLoadCounter d)

/-! ### Check 10: the Fixer opcodes (R294, R328, R335) -/

/-- Bytes of a gradient of n elements, rows of C (R294). -/
def gradBytes (f rows cols : Nat) : Nat :=
  if isSquare f then ceilDiv rows 32 * ceilDiv cols 32 * squareBytes f else rows * rowBytes f cols

/-- Check 10 of an UPDATE (R294). -/
def State.updateOpsOk (s : State) (f : Nat) (d : BitVec 1024) : Bool :=
  let e := s.group f (oGroup d)
  let rows := if gTouched e then oRowCount d else gRows e
  gEnabled e && (f32.decode (oGradScale d)).isFinite && !(f32.decode (oGradScale d)).isZero &&
    (if gTouched e then decide (1 ≤ oRowCount d ∧ oRowCount d ≤ gRows e) && decide (oIndexAddr d % 128 = 0) &&
        inData (oIndexAddr d + 4 * oRowCount d - 1)
     else decide (oIndexAddr d = 0 ∧ oRowCount d = 0)) &&
    decide (oGradAddr d % baseAlign (dFmt d 0) = 0) && inData (oGradAddr d + gradBytes (dFmt d 0) rows (gCols e) - 1)

/-- Check 10 of a CHECKPOINT (R328). -/
def State.ckptOpsOk (s : State) (f : Nat) (d : BitVec 1024) : Bool :=
  kEnabled (s.ckptEntry f) && decide (oSlotSel d ≠ 3) &&
    match oCkFunc d with
    | 1 => decide (oBits d 503 366 = 0)
    | 2 => decide (oSrcRow d % 32 = 0 ∧ oDstRow d % 32 = 0 ∧ oRows48 d % 32 = 0 ∧ oRows48 d ≠ 0)
    | 3 => true
    | _ => false

/-- Check 10 of a CONTACT_SHEET (R335). -/
def State.sheetOpsOk (s : State) (f : Nat) (d : BitVec 1024) : Bool :=
  decide (oForm d = 1 ∨ oForm d = 2) && (!oDestHost d || decide (oDestModule d = 0)) && decide (oDestAddr d % 128 = 0) &&
    decide (1 ≤ oGroupCount d ∧ oFirstGroup d + oGroupCount d ≤ 4096) &&
    ((List.range (oGroupCount d)).all fun j => gEnabled (s.group f (oFirstGroup d + j)))

/-- Check 10. -/
def State.operandsOk (s : State) (die : Die) (d : BitVec 1024) : Bool :=
  match dOpcode d with
  | 0x10 => s.arrayOpsOk d
  | 0x20 => s.vecOpsOk d
  | 0x30 => s.moveOpsOk d
  | 0x40 => s.updateOpsOk die.num d
  | 0x48 => s.ckptOpsOk die.num d
  | 0x49 => s.sheetOpsOk die.num d
  | _ => s.ctxsFit d fun _ => none

/-- Validate a descriptor for a queue's die (R81): 0, or the status of the first check that fails. -/
def State.validate (s : State) (die : Die) (d : BitVec 1024) : Nat :=
  if !opcodeOk die d then 0x10
  else if !reservedOk die d then 0x11
  else if !s.jobRuns then 0x1A
  else if !s.formatsOk die d then 0x12
  else if !modeOk d then 0x13
  else if dBudget d = 0 then 0x14
  else if !s.shaftOk die d then 0x15
  else if !ctxsOk die d then 0x16
  else if !s.mustersOk d then 0x17
  else if !s.operandsOk die d then 0x18
  else 0

/-! ### Refusals (R81, R82, R87) -/

/-- A status that refuses a command: nothing of it has run. -/
def refusalStatus (st : Nat) : Bool := decide (0x10 ≤ st ∧ st ≤ 0x1F)

/-- Slot index `b` comes after `a` in its queue. -/
def slotAfter (a b : Nat) : Bool := decide (0 < (b + 2 ^ 32 - a) % 2 ^ 32 ∧ (b + 2 ^ 32 - a) % 2 ^ 32 < 2 ^ 31)

/-- A command is refused (R81): an error completion, HEAD at the slot, STATE 2, REFUSED_SLOT and QUEUE_HALTED with
reason 0. What was fetched behind it is put back (R78). A record that has to wait for its page is written later. -/
def State.refuseCmd (s : State) (c : Cmd) (status : Nat) : State :=
  let s := (s.dropCmd c.q c.slot).setReg (qkey c.q 8) c.slot
  let s := { s with cmds := s.cmds.filter fun x => !(decide (x.q = c.q) && !x.active && slotAfter c.slot x.slot) }
  let s := if s.recordWaits c.q c.slot then
      { s with cmds := s.cmds ++ [{ c with phase := .done, status := status, bound := [] }] }
    else s.writeRecord c status
  s.haltQueueAt c.q 0 c.slot c.slot (dOperator c.desc) (dLayer c.desc)

end Sys2Proof.Machine
end

