-- ==== Sys2Proof/Machine/Fixer.lean ====
section
/-! DEFINITION. The Fixer dies (chapter 10): admission of an UPDATE (R295), its work (R297–R307), the commit and the
discard by a VERDICT (R308–R310), freezes (R296) and the schedule probe (R313). -/

namespace Sys2Proof.Machine

/-! ### Regions of a group (R288) -/

/-- The Fixer die number of a command's queue. -/
def State.fixOf (s : State) (c : Cmd) : Nat := (s.qDie c.q).num

/-- A tensor of a Fixer region. -/
def State.fixTensor (s : State) (fmt base rows cols : Nat) : Tensor :=
  { stope := false, module := s.moduleId, base := base, dim0 := cols, dim1 := rows, dim2 := 1
    pitch1 := if isSquare fmt then 0 else rowBytes fmt cols / 16, pitch2 := 0, fmt := fmt }

/-- The regions of side `sd` of a group. -/
def State.hiT (s : State) (e sd : Nat) : Tensor := s.fixTensor 0x04 (gHi e + sd * gSideOff e) (gRows e) (gCols e)
def State.loT (s : State) (e sd : Nat) : Tensor := s.fixTensor 0x04 (gState e + sd * gSideOff e) (gRows e) (gCols e)
def State.mT (s : State) (e sd : Nat) : Tensor :=
  s.fixTensor 0x10 (gState e + sd * gSideOff e + 2 * gRows e * gCols e) (gRows e) (gCols e)
def State.rT (s : State) (e sd : Nat) : Tensor :=
  s.fixTensor 0x10 (gState e + sd * gSideOff e + 3 * gRows e * gCols e) (gRows e) (gCols e)
def State.facT (s : State) (e sd : Nat) : Tensor :=
  s.fixTensor 0x02 (gState e + sd * gSideOff e + 4 * gRows e * gCols e) 1 (gRows e + gCols e)
def State.stepT (s : State) (e : Nat) : Tensor :=
  s.fixTensor 0x02 (gState e + 4 * gRows e * gCols e) 1 (gRows e)
def State.copyT (s : State) (e sd fmt : Nat) : Tensor := s.fixTensor fmt (gCopy e + sd * gSideOff e) (gRows e) (gCols e)

/-- The copy format in use: the group's own, or the one of the layer's forward rung (R304). -/
def State.copyFmt (s : State) (e : Nat) : Nat :=
  if gFollow e then
    match stRung (s.steer (gLayer e)) false with
    | 0 => if gTouched e then 0x12 else 0x0E
    | 1 => if gTouched e then 0x12 else 0x13
    | 2 => if gTouched e then 0x10 else 0x14
    | 4 => 0x02
    | _ => 0
  else gCopyFmt e

/-- The parameter set and schedule of a group. -/
def State.params (s : State) (e : Nat) : Params := paramsOf (s.domNat 0x601001 (64 * gParam e) 64)
def State.schedule (s : State) (k : Nat) : Nat := s.domNat 0x602001 (64 * k) 64

/-- Replace entry g of Fixer die f's group table. -/
def State.setGroup (s : State) (f g e : Nat) : State := s.setDomNat (okey (0xC800 + 0x80 * f + 0x40) 1) (128 * g) 128 e

/-- ARG0 of this chapter's events (R296). -/
def groupArg (f g : Nat) : Nat := f * 4096 + g

/-! ### Reading and writing (R159, R289, R309) -/

/-- Some lines of a Fixer tensor, checked; an error names the address and the failed check (5: not present). -/
def State.readFix (s : State) (t : Tensor) (lines : List Nat) : Except (Nat × Nat) (List (Nat × Plate)) :=
  match s.readLines 0 Ctx.fresh t lines [] with
  | .plates ps => .ok ps
  | .fault a => .error (a, 5)
  | .bad a k => .error (a, k)
  | .waits => .error (t.base, 5)

/-- The elements of a row. -/
def rowOf (t : Tensor) (ok : Plate → Bool) (ps : List (Nat × Plate)) (r : Nat) : List Fx :=
  (List.range t.dim0).map fun j => (cellAt t ok ps 0 r j).value

/-- The raw bits of an element. -/
def rawOf (t : Tensor) (ps : List (Nat × Plate)) (r j : Nat) : Nat := (⟨0, t, ps⟩ : Operand).raw 0 r j

/-- Every plate counts. -/
def anyPlate : Plate → Bool := fun _ => true

/-- The plates of a tensor of raw words: some rows. -/
def rawPlates (t : Tensor) (rows : List Nat) (v : Nat → Nat → Nat) : List (Nat × Plate) :=
  finishPlates t 0 (rows.foldl (fun ps r => (List.range t.dim0).foldl (fun ps j =>
    let (line, b, _) := eltAt t 0 r j
    SMap.upd Plate.empty ps line fun p => { p with data := p.data ||| (v r j <<< b) }) ps) [])

/-- Write plates to a tensor. -/
def State.writeFix (s : State) (t : Tensor) (ps : List (Nat × Plate)) : State :=
  ps.foldl (fun s p => match s.physLine (t.base + p.1) with
    | none => s
    | some pl => (s.putPlate pl p.2).markDirty (t.base + p.1)) s

/-- A memory error stops a Fixer command (R309): counted and told as for a stream, the MEMORY cause is posted, and the
command is to complete with DISCARDED_FOR_REPLAY. -/
def State.fixFail (s : State) (c : Cmd) (bad : Nat × Nat) : State :=
  let s := if bad.2 = 5 then s else s.badPlate c 0 bad.1 bad.2
  (s.postCause 5).setCmd { c with phase := .done, status := 0x23, worked := false, posts := [], ratios := [] }

/-! ### Admission of an UPDATE (R295) -/

/-- What the admission of an UPDATE finds. -/
inductive UpdGate where
  /-- refused: event code, ARG1, and whether it counts as a skew -/
  | refuse (ev arg : Nat) (skew : Bool)
  | frozen
  | skip
  | wait
  | apply
  /-- the row list or the row steps could not be read (R309) -/
  | memory (bad : Nat × Nat)
deriving DecidableEq, Repr

/-- The listed rows of a LAYOUT 1 UPDATE, as raw words. -/
def State.rowList (s : State) (d : BitVec 1024) : Except (Nat × Nat) (List Nat) := do
  let t := s.fixTensor 0x02 (oIndexAddr d) 1 (oRowCount d)
  let ps ← s.readFix t (tensorLines t)
  .ok ((List.range (oRowCount d)).map fun k => rawOf t ps 0 k)

/-- The row steps of some rows of a group; a row that the group has not is passed over. -/
def State.rowSteps (s : State) (e : Nat) (rows : List Nat) : Except (Nat × Nat) (Nat → Nat) := do
  let t := s.stepT e
  let ps ← s.readFix t (regionLines t 0 [0] (rows.filter fun r => decide (r < gRows e)))
  .ok (rawOf t ps 0)

/-- The first position of a row list that breaks order 5 of R295. -/
def badRow (rows : List Nat) (steps : Nat → Nat) (limit step : Nat) : Option Nat :=
  (List.range rows.length).find? fun k =>
    let r := rows.getD k 0
    decide (limit ≤ r) || (decide (0 < k) && decide (r ≤ rows.getD (k - 1) 0)) || decide (step < steps r + 1)

/-- A SAVE of this die has bound a side that the UPDATE would write (order 7 of R295). -/
def State.saveReads (s : State) (f g e : Nat) : Bool :=
  match (s.fixer f).save with
  | none => false
  | some sv => match SMap.get? sv.bound g with
    | none => false
    | some b => !gTouched e && decide (gSide b.toNat ≠ gSide e)

/-- The group already has an UPDATE admitted in this attempt; with no step muster, one in flight. DEDUCED (log 195). -/
def State.groupTwice (s : State) (c : Cmd) : Bool :=
  if s.stepMuster.isSome then memN (oGroup c.desc) (s.fixer (s.fixOf c)).admitted
  else s.cmds.any fun x => x.active && decide (x.phase ≠ .done ∧ dOpcode x.desc = opUpdate ∧ oGroup x.desc = oGroup c.desc) &&
    decide (s.qDie x.q = s.qDie c.q ∧ (x.q, x.slot) ≠ (c.q, c.slot))

/-- Orders 1 to 7 of R295. -/
def State.updateGate (s : State) (c : Cmd) : UpdGate :=
  let d := c.desc
  let f := s.fixOf c
  let g := oGroup d
  let e := s.group f g
  if s.groupTwice c then .refuse 0x6002 (dStep d) false
  else if gFrozen e then .frozen
  else if gLast e = dStep d then .skip
  else if (gLast e + 1) % 2 ^ 32 ≠ dStep d then .refuse 0x6001 (gLast e) true
  else if gTouched e then
    match (do
        let rows ← s.rowList d
        let steps ← s.rowSteps e rows
        .ok (rows, steps) : Except (Nat × Nat) (List Nat × (Nat → Nat))) with
    | .error b => .memory b
    | .ok (rows, steps) =>
      match badRow rows steps (gRows e) (dStep d) with
      | some k => .refuse 0x6005 k false
      | none =>
        if 2 ^ 32 < s.reg (dkeyOf (Die.ofIx (48 + f)) 0x41 2) + oRowCount d * heldBytes e (s.copyFmt e) then
          .refuse 0x6004 (oRowCount d) false
        else .apply
  else if s.saveReads f g e then .wait
  else .apply

/-- Kinds of an admitted UPDATE, kept in `passes`: 1 a frozen touch, 2 a skip, 3 applied. -/
def State.updateAdmitted (s : State) (c : Cmd) (gate : UpdGate) : State × Cmd :=
  let f := s.fixOf c
  let g := oGroup c.desc
  let e := s.group f g
  let die := Die.ofIx (48 + f)
  let s := s.setFixer f { s.fixer f with admitted := g :: (s.fixer f).admitted }
  match gate with
  | .frozen => (s, { c with passes := 1 })
  | .skip => (s.bump (okey 0x6050 2) 1, { c with passes := 2, worked := true })
  | .apply =>
    let fmt := s.copyFmt e
    let s := s.bump (dkeyOf die 0x41 1) 1
    let s := if gTouched e then s.bump (dkeyOf die 0x41 2) (oRowCount c.desc * heldBytes e fmt) else s
    (s, { c with passes := 3, expo := [(0, fmt)] })
  | _ => (s, c)

/-! ### The work of an UPDATE -/

/-- The gradient's tensor (R294). -/
def State.gradT (s : State) (c : Cmd) (e : Nat) : Tensor :=
  s.fixTensor (dFmt c.desc 0) (oGradAddr c.desc) (if gTouched e then oRowCount c.desc else gRows e) (gCols e)

/-- An epoch mismatch in a gradient (R190): it names no exposure slot. -/
def State.gradEpochs (s : State) (c : Cmd) (t : Tensor) (ps : List (Nat × Plate)) : State :=
  match ps.find? fun p => !epochOk c t p.2 with
  | none => s
  | some p => (s.postCause 3).raiseCmd c 0x3103 2 0 (p.2.epoch * 256 + c.epoch)

/-- An element of the gradient as the rules take it (R297, R299). -/
def gradVal (d : BitVec 1024) (x : Fx) : Fx := fmul (rna32 x) (f32.decode (oGradScale d))

/-- The weights of a side: the joined bits of hi and lo (R290). -/
def weightBits (hi lo : Nat) : BitVec 32 := BitVec.ofNat 32 (hi * 65536 + lo)

/-- Σ rna24((w' − w)²) and Σ rna24(w²) over pairs of old and new weights; a pair with a non-finite value adds nothing
(R314). -/
def ratioSums (l : List (Fx × Fx)) : Dy × Dy :=
  l.foldl (fun (a : Dy × Dy) p =>
    if p.1.isFinite && p.2.isFinite then
      let d := Dy.add (Fx.toDy p.2) (Dy.neg (Fx.toDy p.1))
      let w := Fx.toDy p.1
      (Dy.add a.1 (rna24 (Dy.mul d d)), Dy.add a.2 (rna24 (Dy.mul w w)))
    else a) (Dy.zero, Dy.zero)

/-- A conversion of a Fixer die: RNA, with the layer's nugget gap for a dense group and none for a touched one (R304,
R306). -/
def State.fixConv (s : State) (e fmt : Nat) : Conv :=
  { fmt := fmt, sr := none, gap := if gTouched e then 0 else s.gapOf (gLayer e), expo := 0, epoch := 0 }

/-- The contribution of a Fixer conversion. -/
def fixPost (e role : Nat) (st : Stat) : Post := { layer := gLayer e, role := role, slot := none, stat := st }

/-- NONFINITE of an UPDATE's results, in role WEIGHT whatever the copy format (R304): the copy's conversion adds the nuggets that
overflow BF16 (R180); a non-finite weight, one of the `w` that it meets, is in the count `n` already (log entry 33). -/
def weightPost (e : Nat) (copy : Option Stat) (n w : Nat) : List Post :=
  match copy with
  | some st => [fixPost e 1 { st with nonfinite := n + (st.nonfinite - w) }]
  | none => if n = 0 then [] else [fixPost e 1 { Stat.zero with nonfinite := n }]

/-- A tensor converted whole by a Fixer die: its plates with their tags, and what the conversion counts. -/
def State.fixTensorOut (s : State) (e : Nat) (t : Tensor) (v : Nat → Nat → Fx) : TensorOut :=
  let o := convertTensor t (s.fixConv e t.fmt) (fun _ i j => v i j)
  { o with plates := finishPlates t 0 ((tensorLines t).map fun l => (l, SMap.get Plate.empty o.plates l)) }

/-- The copy formed from rows of new weights: its plates and, when it is converted, its conversion (R304). -/
def State.formCopy (s : State) (e sd fmt : Nat) (w : Nat → Nat → BitVec 32) : List (Nat × Plate) × Option TensorOut :=
  let t := s.copyT e sd fmt
  if fmt = 0 then ([], none)
  else if fmt = 0x02 then (rawPlates t (List.range t.dim1) fun i j => (w i j).toNat, none)
  else
    let o := s.fixTensorOut e t (fun i j => dec32 (w i j))
    (o.plates, some o)

/-- The counts of a copy's conversion, where it was one (R153, R165). -/
def State.copyCounts (s : State) (o : Option TensorOut) : State := match o with
  | some o => s.convCounts o
  | none => s

/-- Non-finite weights among some results. -/
def badWeights (l : List EltUpd) : Nat := (l.filter fun x => !x.w.isFinite).length

/-- Non-finite results (R304). -/
def nonfiniteIn (q : Prologue) (l : List EltUpd) : Nat :=
  (l.map fun x => b2n (!x.w.isFinite) + (if q.rule = 3 ∧ !q.p.u3Moment then 0 else b2n (!x.m.isFinite)) +
    (if q.rule = 1 then b2n (!x.r.isFinite) else 0)).sum

/-- What a command's prologue is (R299). -/
def State.prologueOf (s : State) (c : Cmd) (e : Nat) : Prologue :=
  prologue (gRule e) (s.params e) (learningRate (s.schedule (gSched e)) (dStep c.desc)) ((gUpdates e + 1) % 2 ^ 32)

/-- The lines of a tensor that cannot be written. -/
def State.fixWritable (s : State) (ts : List Tensor) : Except (Nat × Nat) Unit :=
  match ts.findSome? fun t => s.writeFault t (tensorLines t) with
  | some a => .error (a, 5)
  | none => .ok ()

/-- The work of a dense UPDATE (R291, R297–R304). -/
def State.updDenseRun (s : State) (c : Cmd) : Except (Nat × Nat) State := do
  let f := s.fixOf c
  let e := s.group f (oGroup c.desc)
  let sd := gSide e
  let q := s.prologueOf c e
  let fmt := SMap.get 0 c.expo 0
  let useM := decide (q.rule ≠ 3) || q.p.u3Moment
  let useR := decide (q.rule = 1)
  let all (t : Tensor) := s.readFix t (tensorLines t)
  let none' : Except (Nat × Nat) (List (Nat × Plate)) := .ok []
  let gt := s.gradT c e
  let gp ← all gt
  let hp ← all (s.hiT e sd)
  let lp ← all (s.loT e sd)
  let mp ← if useM then all (s.mT e sd) else none'
  let rp ← if useR then all (s.rT e sd) else none'
  let fp ← if q.rule = 3 then all (s.facT e sd) else none'
  s.fixWritable ([s.hiT e (1 - sd), s.loT e (1 - sd)] ++ (if useM then [s.mT e (1 - sd)] else []) ++
    (if useR then [s.rT e (1 - sd)] else []) ++ (if q.rule = 3 then [s.facT e (1 - sd)] else []) ++
    (if fmt = 0 then [] else [s.copyT e (1 - sd) fmt]))
  let s := s.gradEpochs c gt gp
  let rows := List.range (gRows e)
  let g := rows.map fun i => (rowOf gt (epochOk c gt) gp i).map (gradVal c.desc)
  let wOld := rows.map fun i => (List.range (gCols e)).map fun j =>
    dec32 (weightBits (rawOf (s.hiT e sd) hp i j) (rawOf (s.loT e sd) lp i j))
  let m := if useM then rows.map (rowOf (s.mT e sd) anyPlate mp) else []
  let r := if useR then rows.map (rowOf (s.rT e sd) anyPlate rp) else []
  let fac (k : Nat) : Fx := f32.decode (rawOf (s.facT e sd) fp 0 k)
  let fr := if q.rule = 3 then rows.map fac else []
  let fc := if q.rule = 3 then (List.range (gCols e)).map fun j => fac (gRows e + j) else []
  let (out, fr', fc') := updDense q g wOld m r fr fc (gCols e)
  let at' (i j : Nat) : EltUpd := (out.getD i []).getD j ⟨Fx.zero, Fx.zero, Fx.zero⟩
  let bits' := out.map fun row => row.map fun x => enc32 x.w
  let wNew (i j : Nat) : BitVec 32 := (bits'.getD i []).getD j 0
  let s := s.writeFix (s.hiT e (1 - sd)) (rawPlates (s.hiT e (1 - sd)) rows fun i j => (wNew i j).toNat / 65536)
  let s := s.writeFix (s.loT e (1 - sd)) (rawPlates (s.loT e (1 - sd)) rows fun i j => (wNew i j).toNat % 65536)
  let moment (s : State) (t : Tensor) (v : EltUpd → Fx) : State × List Post :=
    let o := s.fixTensorOut e t (fun i j => v (at' i j))
    ((s.convCounts o).writeFix t o.plates, [fixPost e 5 o.stat])
  let (s, pm) := if useM then moment s (s.mT e (1 - sd)) EltUpd.m else (s, [])
  let (s, pr) := if useR then moment s (s.rT e (1 - sd)) EltUpd.r else (s, [])
  let s := if q.rule = 3 then
      s.writeFix (s.facT e (1 - sd)) (rawPlates (s.facT e (1 - sd)) [0] fun _ k =>
        (enc32 ((fr' ++ fc').getD k Fx.zero)).toNat)
    else s
  let (cp, cst) := s.formCopy e (1 - sd) fmt wNew
  let s := (if fmt = 0 then s else s.writeFix (s.copyT e (1 - sd) fmt) cp).copyCounts cst
  let nf := (out.map (nonfiniteIn q)).sum
  let pairs := (wOld.zip out).flatMap fun p => (p.1.zip p.2).map fun x => (x.1, x.2.w)
  let sums := ratioSums pairs
  let s := s.bump (okey 0x6050 5) (gRows e * gCols e)
  .ok (s.setCmd { c with worked := true, posts := c.posts ++ pm ++ pr ++
                           weightPost e (cst.map TensorOut.stat) nf (out.map badWeights).sum
                         ratios := [(gLayer e, sums)] })

/-- A row of a 1D tensor converted alone: the plates of its lines, and what the conversion counts (R306). -/
def State.convRow (s : State) (e : Nat) (t : Tensor) (row : Nat) (v : List Fx) : TensorOut :=
  let cv := s.fixConv e t.fmt
  let outs := (List.range (ceilDiv t.dim0 32)).map fun b =>
    convertBlock cv (fun _ _ => false) ((List.range 32).map fun x =>
      (⟨row, 32 * b + x, 0, some (v.getD (32 * b + x) Fx.zero)⟩ : Src))
  ⟨outs.foldl (layBlock t 0) [], outs.foldl (fun a b => a.join b.stat) Stat.zero, (outs.map BlockOut.clamps).sum,
   (outs.map BlockOut.zeroed).sum⟩

/-- What a touched row gives: the held row, the conversions of its moments and of its copy, its results and ratio pairs. -/
structure RowOut where
  held : HeldRow
  moments : List TensorOut
  copy : Option TensorOut
  results : List EltUpd
  sums : List (Fx × Fx)

/-- The work of a touched UPDATE (R306, R307): its rows, in ascending order, are held for the commit. -/
def State.updRowsRun (s : State) (c : Cmd) : Except (Nat × Nat) State := do
  let f := s.fixOf c
  let g := oGroup c.desc
  let e := s.group f g
  let q := s.prologueOf c e
  let fmt := SMap.get 0 c.expo 0
  let useR := decide (q.rule = 1)
  let gt := s.gradT c e
  let gp ← s.readFix gt (tensorLines gt)
  let rows ← s.rowList c.desc
  let steps ← s.rowSteps e rows
  let rowLines (t : Tensor) : List Nat := (tensorLines t).filter fun l =>
    rows.any fun i => decide (16 * t.pitch1 * i ≤ l ∧ l < 16 * t.pitch1 * (i + 1))
  let hp ← s.readFix (s.hiT e 0) (rowLines (s.hiT e 0))
  let lp ← s.readFix (s.loT e 0) (rowLines (s.loT e 0))
  let mp ← s.readFix (s.mT e 0) (rowLines (s.mT e 0))
  let rp ← if useR then s.readFix (s.rT e 0) (rowLines (s.rT e 0)) else .ok []
  let s := s.gradEpochs c gt gp
  let outs := ((List.range rows.length).zip rows).map fun p =>
    let i := p.2
    let gs := (rowOf gt (epochOk c gt) gp p.1).map (gradVal c.desc)
    let ms := rowOf (s.mT e 0) anyPlate mp i
    let rs := if useR then rowOf (s.rT e 0) anyPlate rp i else []
    let ws := (List.range (gCols e)).map fun j => dec32 (weightBits (rawOf (s.hiT e 0) hp i j) (rawOf (s.loT e 0) lp i j))
    let gap := dStep c.desc - 1 - steps i
    let us := (List.range (gCols e)).map fun j =>
      let md := decayRow q gap (ms.getD j Fx.zero) (rs.getD j Fx.zero)
      updElt q (gs.getD j Fx.zero) (ws.getD j Fx.zero) md.1 md.2
    let moments := (s.mT e 0, s.convRow e (s.mT e 0) i (us.map EltUpd.m)) ::
      (if useR then [(s.rT e 0, s.convRow e (s.rT e 0) i (us.map EltUpd.r))] else [])
    ({ held := { group := g, row := i, weights := us.map fun x => enc32 x.w
                 plates := moments.flatMap fun p => (finishPlates p.1 0 p.2.plates).map fun x => (p.1.base + x.1, x.2.bytes)
                 fmt := fmt }
       moments := moments.map Prod.snd
       copy := if fmt = 0 ∨ fmt = 0x02 then none else some (s.convRow e (s.copyT e 0 fmt) i (us.map EltUpd.w))
       results := us
       sums := (ws.zip us).map fun x => (x.1, x.2.w) } : RowOut)
  let x := s.fixer f
  let s := s.setFixer f { x with holds := (x.holds.filter fun h => !decide (h.group = g)) ++ outs.map RowOut.held }
  let made := outs.flatMap RowOut.moments
  let s := (made ++ outs.filterMap RowOut.copy).foldl State.convCounts s
  let stC := if fmt = 0 ∨ fmt = 0x02 then none
    else some (((outs.filterMap RowOut.copy).map TensorOut.stat).foldl Stat.join Stat.zero)
  let posts := [fixPost e 5 ((made.map TensorOut.stat).foldl Stat.join Stat.zero)] ++
    weightPost e stC (outs.map fun o => nonfiniteIn q o.results).sum (outs.map fun o => badWeights o.results).sum
  let s := s.bump (okey 0x6050 5) (oRowCount c.desc * gCols e)
  .ok (s.setCmd { c with worked := true, posts := c.posts ++ posts
                         ratios := [(gLayer e, ratioSums (outs.flatMap RowOut.sums))] })

/-- A frozen touch reads and checks its gradient, and changes nothing else (R296). -/
def State.touchRun (s : State) (c : Cmd) : Except (Nat × Nat) State := do
  let f := s.fixOf c
  let e := s.group f (oGroup c.desc)
  let gt := s.gradT c e
  let gp ← s.readFix gt (tensorLines gt)
  let s := (s.gradEpochs c gt gp).bump (okey 0x6050 3) 1
  let s := if s.ob 0x6000 1 = 1 then s.raiseCmd c 0x6003 1 (groupArg f (oGroup c.desc)) (dStep c.desc) else s
  .ok (s.setCmd { c with worked := true })

/-- The work of an admitted UPDATE. -/
def State.updateWork (s : State) (q slot : Nat) : State :=
  match s.running q slot opUpdate with
  | none => s
  | some c =>
    let r := if c.passes = 1 then s.touchRun c
      else if gTouched (s.group (s.fixOf c) (oGroup c.desc)) then s.updRowsRun c else s.updDenseRun c
    match r with
    | .ok s => s
    | .error b => s.fixFail c b

def execUpdate (q : Fin 128) (slot : BitVec 32) (s : State) : Answer := doneMem s (s.updateWork q.val slot.toNat)

/-! ### The commit (R308, R310) -/

/-- A commit meets a line that it cannot read or whose plate fails its check (R160, R309): that is counted and told as for a stream,
the MEMORY cause is posted, and the line keeps what it holds. DESIGN CHOICE (log 196): the rest is committed. -/
def State.commitFault (s : State) (c : Cmd) (bad : Nat × Nat) : State :=
  (if bad.2 = 5 then s else s.badPlate c 0 bad.1 bad.2).postCause 5

/-- One stored plate of a Fixer tensor changed: checked first (R160). -/
def State.changePlate (s : State) (c : Cmd) (t : Tensor) (off : Nat) (f : Plate → Plate) : State :=
  match s.readFix t [off] with
  | .error b => s.commitFault c b
  | .ok ps => s.writeFix t (ps.map fun p => (p.1, (f p.2).finish t.fmt 0 (t.base + p.1)))

/-- The narrow copy formed again from a side's committed halves, with what it posts (R310, R179). -/
def State.reformCopy (s : State) (e sd fmt : Nat) : Except (Nat × Nat) (State × List Post) := do
  let hp ← s.readFix (s.hiT e sd) (tensorLines (s.hiT e sd))
  let lp ← s.readFix (s.loT e sd) (tensorLines (s.loT e sd))
  let w (i j : Nat) : BitVec 32 := weightBits (rawOf (s.hiT e sd) hp i j) (rawOf (s.loT e sd) lp i j)
  let (ps, o) := s.formCopy e sd fmt w
  .ok ((if fmt = 0 then s else s.writeFix (s.copyT e sd fmt) ps).copyCounts o, (o.toList).map fun o => fixPost e 1 o.stat)

/-- Bits [hi:lo] of one number put in place in another. -/
def mergeBits (old new hi lo : Nat) : Nat := setBits old hi lo (bits new hi lo)

/-- A row's part of a narrow copy put into its lines, which other rows may share (R306). -/
def State.putCopyRow (s : State) (c : Cmd) (e : Nat) (h : HeldRow) : State :=
  let t := s.copyT e 0 h.fmt
  let w := h.weights.map dec32
  if h.fmt = 0 then s
  else if h.fmt = 0x02 then
    s.writeFix t (rawPlates t [h.row] fun _ j => (h.weights.getD j 0).toNat)
  else
    let lo := 16 * t.pitch1 * h.row
    let hi := lo + 16 * t.pitch1
    (s.convRow e t h.row w).plates.foldl (fun s p =>
      let b0 := max lo p.1 - p.1
      let b1 := min hi (p.1 + 128) - p.1
      let per := 4 * fmtBits h.fmt
      if b1 - b0 = 128 then s.writeFix t [(p.1, p.2.finish h.fmt 0 (t.base + p.1))]
      else s.changePlate c t p.1 fun old =>
        { old with data := mergeBits old.data p.2.data (8 * b1 - 1) (8 * b0)
                   scale := mergeBits old.scale p.2.scale (8 * (b1 / per) - 1) (8 * (b0 / per)), slot := 0 }) s

/-- One held row copied into place (R308): its lo, moments, hi, copy and row step. -/
def State.commitRow (s : State) (c : Cmd) (e step : Nat) (h : HeldRow) : State :=
  let w (j : Nat) : Nat := (h.weights.getD j 0).toNat
  let s := s.writeFix (s.hiT e 0) (rawPlates (s.hiT e 0) [h.row] fun _ j => w j / 65536)
  let s := s.writeFix (s.loT e 0) (rawPlates (s.loT e 0) [h.row] fun _ j => w j % 65536)
  let s := h.plates.foldl (fun s p => match s.physLine p.1 with
    | none => s
    | some pl => (s.putPlate pl (Plate.ofBytes p.2 0)).markDirty p.1) s
  let s := s.putCopyRow c e h
  let t := s.stepT e
  let (line, b, _) := eltAt t 0 0 h.row
  (s.changePlate c t line fun p => { p with data := setBits p.data (b + 31) b step, scale := 0, slot := 0 }).bump (okey 0x6050 6) 1

/-- Set both change bits of a group, or of a row (R330). -/
def FixSt.changed (x : FixSt) (g : Nat) : FixSt := { x with clean := x.clean.filter fun c => !decide (c.1 = g) }
def FixSt.changedRow (x : FixSt) (g r : Nat) : FixSt :=
  { x with cleanRows := x.cleanRows.filter fun c => !decide (c.1 = g ∧ c.2.1 = r) }

/-- Commit one group (R308, R310), with what its copy's conversion posts. -/
def State.commitGroup (s : State) (c : Cmd) (f g fmt step : Nat) : State × List Post :=
  let e := s.group f g
  let s :=
    if gTouched e then
      ((s.fixer f).holds.filter fun h => decide (h.group = g)).foldl (fun s h =>
        let s := s.commitRow c e step h
        s.setFixer f ((s.fixer f).changedRow g h.row)) s
    else s
  let s := s.setFixer f ((s.fixer f).changed g)
  let e := if gTouched e then e else setBits e 680 680 (1 - gSide e)
  let e := setBits (setBits e 763 732 step) 731 700 (min (gUpdates e + 1) (2 ^ 32 - 1))
  let s := (s.setGroup f g e).bump (okey 0x6050 1) 1
  let want := s.copyFmt e
  if gFollow e ∧ want ≠ fmt then
    let r := match s.reformCopy e (gSide e) want with
      | .ok r => r
      | .error b => (s.commitFault c b, [])
    (r.1.bump (okey 0x6050 7) 1, r.2)
  else (s, [])

/-- A list of groups in ascending order. -/
def groupInsert (x : Nat × Nat × Nat) : List (Nat × Nat × Nat) → List (Nat × Nat × Nat)
  | [] => [x]
  | y :: t => if x.1 ≤ y.1 then x :: y :: t else y :: groupInsert x t

/-- The waiting freezes and thaws of a die are applied (R296). -/
def State.applyFreezes (s : State) (f step : Nat) : State :=
  let l := (s.fixer f).freezes
  let s := s.setFixer f { s.fixer f with freezes := [] }
  l.foldl (fun s p =>
    let e := setBits (s.group f p.1) 679 679 (b2n p.2)
    s.setGroup f p.1 (if p.2 then e else setBits e 763 732 step)) s

/-- The hold area of a die is empty, and no group is applied. -/
def State.clearHolds (s : State) (f : Nat) : State :=
  let die := Die.ofIx (48 + f)
  (((s.setFixer f { s.fixer f with holds := [] }).setReg (dkeyOf die 0x41 1) 0).setReg (dkeyOf die 0x41 2) 0)

/-- The commit of a step on a die (R308), with what it posts. -/
def State.commitDie (s : State) (c : Cmd) (f step : Nat) : State × List Post :=
  let l := (((s.fixer f).applied.filter fun a => decide (a.2.2 = step)).foldr groupInsert [])
  let s := s.setFixer f { s.fixer f with applied := [] }
  let r := l.foldl (fun (r : State × List Post) a =>
    let x := r.1.commitGroup c f a.1 a.2.1 step
    (x.1, r.2 ++ x.2)) (s, [])
  ((r.1.applyFreezes f step).clearHolds f, r.2)

/-- An UPDATE that has not completed when its PASS is committed is lost (R310). -/
def State.loseUpdates (s : State) (f step : Nat) : State :=
  s.eachCmd (fun c => c.active && decide (dOpcode c.desc = opUpdate ∧ dStep c.desc = step) &&
      decide (s.qDie c.q = Die.ofIx (48 + f))) fun s c =>
    (s.raiseCmd c 0x6007 2 (groupArg f (oGroup c.desc)) step).discard c

/-- A SAVE of a die is reading a LAYOUT 1 group that has rows to be committed: it holds the commit back (R310). -/
def State.saveHolds (s : State) (f : Nat) (groups : List Nat) : Bool :=
  match (s.fixer f).save with
  | none => false
  | some sv => groups.any fun g => sv.bound.any fun (b : Nat × BitVec 1024) => decide (b.1 = g)

/-- With no step muster an UPDATE commits as it completes: a SAVE that reads its LAYOUT 1 group holds it back (R308, R310). -/
def State.commitWaits (s : State) (c : Cmd) : Bool :=
  decide (dOpcode c.desc = opUpdate ∧ c.passes = 3 ∧ s.stepMuster = none) &&
    gTouched (s.group (s.fixOf c) (oGroup c.desc)) && s.saveHolds (s.fixOf c) [oGroup c.desc]

/-- A completed UPDATE joins the groups that its VERDICT commits; with no step muster it commits at once, and the waiting freezes of
its die are applied (R308, R314). -/
def State.updateLeaves (s : State) (c : Cmd) : State :=
  if c.passes ≠ 3 then s
  else
    let f := s.fixOf c
    let g := oGroup c.desc
    let fmt := SMap.get 0 c.expo 0
    let s := { s with step := { s.step with ratios := c.ratios.foldl (fun l (r : Nat × Dy × Dy) =>
      SMap.upd (Dy.zero, Dy.zero) l r.1 fun (a : Dy × Dy) => (Dy.add a.1 r.2.1, Dy.add a.2 r.2.2)) s.step.ratios } }
    let x := s.fixer f
    if s.stepMuster.isSome then s.setFixer f { x with applied := SMap.put x.applied g (fmt, dStep c.desc) }
    else
      let r := s.commitGroup c f g fmt (dStep c.desc)
      (r.2.foldl State.join r.1).applyFreezes f (dStep c.desc)

/-! ### VERDICT (R199, R308, R309) -/

/-- A SAVE is reading a LAYOUT 1 group that this VERDICT would change (R310). -/
def State.verdictWaits (s : State) (f : Nat) : Bool := s.saveHolds f ((s.fixer f).holds.map HeldRow.group)

/-- The work of a VERDICT: it commits on the PASS of its step and discards otherwise; `passes` holds the verdict kind it
was admitted for. -/
def State.verdictWork (s : State) (q slot : Nat) : State :=
  match s.running q slot opVerdict with
  | none => s
  | some c =>
    let f := s.fixOf c
    if c.passes = vPass then
      if s.verdictWaits f then s
      else
        let r := (s.loseUpdates f (dStep c.desc)).commitDie c f (dStep c.desc)
        r.1.setCmd { c with worked := true, posts := c.posts ++ r.2 }
    else
      let s := s.setFixer f { s.fixer f with applied := (s.fixer f).applied.filter fun a => !decide (a.2.2 = dStep c.desc) }
      (s.clearHolds f).setCmd { c with worked := true }

def execVerdict (q : Fin 128) (slot : BitVec 32) (s : State) : Answer := doneMem s (s.verdictWork q.val slot.toNat)

/-! ### Objects -/

/-- FREEZE (R296): at once with no job, else at the die's next VERDICT that commits a PASS; either way it takes the place of a
change of that group that still waits. -/
def State.freezeWrite (s : State) (v : Nat) : State :=
  let f := bits v 15 12
  let g := bits v 11 0
  let on := bit v 16
  let x := s.fixer f
  if s.jobRuns then s.setFixer f { x with freezes := SMap.put x.freezes g on }
  else (s.setFixer f { x with freezes := SMap.del x.freezes g }).setGroup f g (setBits (s.group f g) 679 679 (b2n on))

/-- PROBE_STEP fills PROBE_RATES (R313). -/
def State.probe (s : State) (step : Nat) : State :=
  (List.range 16).foldl (fun s k =>
    s.setDomNat 0x602003 (4 * k) 4 (enc32 (learningRate (s.schedule k) step)).toNat) (s.setReg (okey 0x6020 2) step)

end Sys2Proof.Machine
end

