-- ==== Sys2Proof/Machine/Checkpoint.lean ====
section
/-! DEFINITION. Buddy checkpoints (R326–R332), restoring (R333, R334) and contact sheets (R335). -/

namespace Sys2Proof.Machine

/-! ### The layout of a slot (R327) -/

/-- S_g: a group's area. -/
def groupArea (e : Nat) : Nat :=
  ceilDiv (6 * gRows e * gCols e + 4 * (gRows e + gCols e)) 0x200000 * 0x200000

/-- Offset of group g's area, from the table whose entries are `tab`. -/
def groupOffset (tab : Nat → Nat) (g : Nat) : Nat :=
  0x100000 + ((List.range g).map fun h => if gEnabled (tab h) then groupArea (tab h) else 0).sum

/-- The parts of a group with their offsets in its area (R288): the parts that its rule uses. -/
def State.groupParts (s : State) (e sd : Nat) : List (Tensor × Nat) :=
  let rc := gRows e * gCols e
  [(s.hiT e sd, 0), (s.loT e sd, 2 * rc)] ++
    (if gRule e ≠ 3 ∨ (s.params e).u3Moment then [(s.mT e sd, 4 * rc)] else []) ++
    (if gRule e = 1 then [(s.rT e sd, 5 * rc)] else [])

/-- The parts that are one row of words: U3 factors, and the row steps of LAYOUT 1. -/
def State.groupWords (s : State) (e sd : Nat) : List (Tensor × Nat) :=
  let rc := gRows e * gCols e
  (if gRule e = 3 then [(s.facT e sd, 6 * rc)] else []) ++ (if gTouched e then [(s.stepT e, 6 * rc)] else [])

/-- The line offsets of row r of a row-major tensor. -/
def rowLines (t : Tensor) (r : Nat) : List Nat :=
  let b := 16 * t.pitch1 * r
  (List.range (ceilDiv (b % 128 + rowBytes t.fmt t.dim0) 128)).map fun k => b / 128 * 128 + 128 * k

/-- A plate of raw bytes for a line of a slot: the manual gives its FORMAT no code. -/
def slotPlate (k addr : Nat) (bs : Bytes) : Plate :=
  ({ Plate.empty with data := leNat bs } : Plate).finish (Config.sectionFormat k % 64) 0 addr

/-- A slot header (R327). -/
def State.slotHeader (s : State) (f step seq : Nat) (complete : Bool) (sent : Nat) : Bytes :=
  let v := 0x43504B44 * 2 ^ 480 + step * 2 ^ 448 + seq % 2 ^ 32 * 2 ^ 416 + s.moduleId * 2 ^ 404 + f * 2 ^ 400 +
    b2n complete * 2 ^ 399 + s.ob 0x7002 2 * 2 ^ 352 + sent * 2 ^ 288
  leBytes 64 (v + crc32c ((leBytes 64 v).drop 4)) ++ List.replicate 64 0

/-- The copy of the module section that holds a step (R329), else the section as it stands. -/
def State.sectionFor (s : State) (step : Nat) : Nat × Nat × List (Nat × Byte) :=
  match SMap.get? s.step.sections (step % 2) with
  | some (st, ep, cells) => if st = step then (st, ep, cells) else (step, s.epoch, s.dom)
  | none => (step, s.epoch, s.dom)

/-- A byte of the module section (R327). -/
def sectionByte (x : Nat × Nat × List (Nat × Byte)) (off : Nat) : Byte :=
  let tab (k o : Nat) : Byte := (SMap.get? x.2.2 (dkey k o)).getD (domDefault k o)
  if off = 0 then BitVec.ofNat 8 x.2.1
  else if off < 4 then 0
  else if off < 8 then BitVec.ofNat 8 (x.1 / 256 ^ (off - 4))
  else if off < 0x1000 then 0
  else if off < 0x9000 then tab 0x312001 (off - 0x1000)
  else if off < 0x49000 then tab 0x312002 (off - 0x9000)
  else if off < 0x69000 then tab 0x315001 (off - 0x49000)
  else 0

/-! ### SAVE (R329–R332) -/

/-- The slot that a SAVE writes: the one that does not hold the newest complete checkpoint (R330). -/
def FixSt.target (x : FixSt) : Nat := match x.slots with
  | (none, _) => 0
  | (some _, none) => 1
  | (some a, some b) => if b < a then 1 else 0

/-- The slot of the newest complete checkpoint. -/
def FixSt.newest (x : FixSt) : Option (Nat × Nat) := match x.slots with
  | (none, none) => none
  | (some a, none) => some (0, a)
  | (none, some b) => some (1, b)
  | (some a, some b) => if b < a then some (0, a) else some (1, b)

/-- What slot k holds complete. -/
def FixSt.setSlot (x : FixSt) (k : Nat) (v : Option Nat) : FixSt :=
  { x with slots := if k = 0 then (v, x.slots.2) else (x.slots.1, v) }

/-- What the admission of a CHECKPOINT or a CONTACT_SHEET finds. -/
inductive CkGate where
  | go
  | wait
  /-- a SAVE older than the last PASS (R329) -/
  | stale
  /-- a sheet with no complete slot to read -/
  | noSlot
deriving DecidableEq, Repr

/-- A sheet in progress reads a slot (R335). -/
def State.sheetReads (s : State) (f k : Nat) : Bool :=
  s.cmds.any fun c => c.active && !c.worked && decide (dOpcode c.desc = opSheet ∧ c.passes = k ∧ s.fixOf c = f)

/-- Admission of a CHECKPOINT or a CONTACT_SHEET (R329, R335). -/
def State.ckGate (s : State) (c : Cmd) : CkGate :=
  let f := s.fixOf c
  let x := s.fixer f
  if dOpcode c.desc = opSheet then (if x.newest.isSome then .go else .noSlot)
  else if oCkFunc c.desc ≠ 1 then .go
  else if s.curStep < dStep c.desc + 1 then .wait
  else if dStep c.desc + 1 < s.curStep then .stale
  else if x.save.isSome ∨ s.sheetReads f x.target then .wait
  else .go

/-- The enabled groups of a die, with their table entries. -/
def State.enabledGroups (s : State) (f : Nat) : List (Nat × BitVec 1024) :=
  ((List.range 4096).map fun g => (g, s.group f g)).filterMap fun (p : Nat × Nat) =>
    if gEnabled p.2 then some (p.1, BitVec.ofNat 1024 p.2) else none

/-- One plate written to the partner (R330, R345). -/
def State.sendSaved (s : State) (f module addr : Nat) (p : Plate) : State :=
  s.sendDrift 2 (mkMsg module s.moduleId 0 0 addr (3 * 2 ^ 29 + f * 2 ^ 24) 0 0) [(p.move addr).bytes] none

/-- The header of a SAVE, written to its slot (R330, R327). -/
def State.sendHeader (s : State) (f : Nat) (sv : Save) (complete : Bool) (sent : Nat) : State :=
  let k := s.ckptEntry f
  let base := kBase k sv.slot
  s.sendSaved f (kModule k) base (slotPlate 0 base (s.slotHeader f sv.step (s.fixer f).sequence complete sent))

/-- A CHECKPOINT or a CONTACT_SHEET is admitted: a SAVE binds the committed state (R329) and writes the header
with COMPLETE 0, its step 1 (R330); a sheet binds its slot (R335). -/
def State.ckAdmitted (s : State) (c : Cmd) : State × Cmd :=
  let f := s.fixOf c
  let x := s.fixer f
  if dOpcode c.desc = opSheet then (s, { c with passes := (x.newest.map Prod.fst).getD 0 })
  else if oCkFunc c.desc ≠ 1 then (s, c)
  else
    let k := x.target
    let sv : Save := ⟨k, dStep c.desc, c.q, c.slot, s.enabledGroups f⟩
    ((s.setFixer f { x.setSlot k none with sequence := x.sequence + 1, save := some sv }).sendHeader f sv false 0, c)

/-- CKPT_STATUS of a die: only its last outcome changes, or all of it. -/
def State.ckptOutcome (s : State) (f o : Nat) : State := s.setDomNat 0x6C1001 (16 * f + 9) 1 o

/-- A SAVE stops (R332): its slot stays incomplete, and CKPT_FAILED is raised. -/
def State.stopSave (s : State) (f : Nat) : State :=
  match (s.fixer f).save with
  | none => s
  | some sv =>
    let x := s.fixer f
    let s := s.setFixer f { x.setSlot sv.slot none with save := none }
    ((s.bump (okey 0x6C10 3) 1).ckptOutcome f 2).raiseAt 0x6C01 2 (unitOfDie (Die.ofIx (48 + f))) 0 0 f sv.step

/-- The plates of a group that a SAVE sends: line offset in the slot, plate. -/
def State.savedGroup (s : State) (x : FixSt) (tab : Nat → Nat) (k g : Nat) : Except (Nat × Nat) (List (Nat × Plate)) := do
  let e := tab g
  let area := groupOffset tab g
  let one (t : Tensor) (lines : List Nat) (off : Nat) : Except (Nat × Nat) (List (Nat × Plate)) := do
    let ps ← s.readFix t lines
    .ok (ps.map fun p => (area + off + p.1, p.2))
  let all (l : List (Tensor × Nat)) (lines : Tensor → List Nat) : Except (Nat × Nat) (List (Nat × Plate)) :=
    l.foldlM (fun acc p => do .ok (acc ++ (← one p.1 (lines p.1) p.2))) []
  if gTouched e then
    let rows := (List.range (gRows e)).filter fun r => !(x.cleanRows.any fun c => decide (c = (g, r, k)))
    let a ← all (s.groupParts e 0) fun t => rows.flatMap (rowLines t)
    let b ← all (s.groupWords e 0) fun _ => (rows.map fun r => r / 32 * 128).eraseDups
    .ok (a ++ b)
  else if x.clean.any fun c => decide (c = (g, k)) then .ok []
  else
    let a ← all (s.groupParts e (gSide e)) tensorLines
    let b ← all (s.groupWords e (gSide e)) tensorLines
    .ok (a ++ b)

/-- The group table copy and the module section as plates. -/
def State.savedTables (s : State) (tab : Nat → Nat) (base step : Nat) : List (Nat × Plate) :=
  let sec := s.sectionFor step
  ((List.range 4096).map fun g =>
    let off := 0x1000 + 128 * g
    (off, slotPlate 1 (base + off) (leBytes 128 (tab g)))) ++
  ((List.range 3584).map fun j =>
    let off := 0x90000 + 128 * j
    (off, slotPlate 2 (base + off) ((List.range 128).map fun i => sectionByte sec (128 * j + i))))

/-- The change bits that a SAVE clears: its own slot's, of the groups and rows it has written that nothing has changed since
(R330). -/
def State.clearChange (s : State) (f : Nat) (sv : Save) (made : List (Nat × BitVec 1024)) : State :=
  let x := s.fixer f
  let same := made.filter fun b => decide (gLast b.2.toNat = gLast (s.group f b.1) ∧ gSide b.2.toNat = gSide (s.group f b.1))
  let dense := (same.filter fun b => !gTouched b.2.toNat).map fun (b : Nat × BitVec 1024) => (b.1, sv.slot)
  let rows := (same.filter fun b => gTouched b.2.toNat).flatMap fun (b : Nat × BitVec 1024) =>
    (List.range (gRows b.2.toNat)).map fun r => (b.1, r, sv.slot)
  s.setFixer f { x with
    clean := dense ++ x.clean.filter fun c => !memN c.1 (dense.map Prod.fst) || decide (c.2 ≠ sv.slot)
    cleanRows := rows ++ x.cleanRows.filter fun c => !memN c.1 (rows.map Prod.fst) || decide (c.2.2 ≠ sv.slot) }

/-- A SAVE that has completed: CKPT_STATUS, the slot, and the change bits (R330). -/
def State.saveComplete (s : State) (f : Nat) (sv : Save) : State :=
  let s := s.clearChange f sv sv.bound
  let x := s.fixer f
  let s := s.setFixer f { x.setSlot sv.slot (some sv.step) with save := none }
  (s.bump (okey 0x6C10 2) 1).setDom 0x6C1001 (16 * f)
    (leBytes 4 sv.step ++ leBytes 4 x.sequence ++ leBytes 1 sv.slot ++ leBytes 1 1)

/-- What a SAVE reads of its groups, up to the first plate that fails: the groups read, their plates, and the failure. -/
def State.savedGroups (s : State) (x : FixSt) (tab : Nat → Nat) (k : Nat) :
    List (Nat × BitVec 1024) → List (Nat × BitVec 1024) × List (Nat × Plate) × Option (Nat × Nat)
  | [] => ([], [], none)
  | b :: l => match s.savedGroup x tab k b.1 with
    | .error bad => ([], [], some bad)
    | .ok ps =>
      let r := s.savedGroups x tab k l
      (b :: r.1, ps ++ r.2.1, r.2.2)

/-- The work of a SAVE (R330) after the header that its admission wrote: tables and changed parts, and once all is acknowledged
the complete header. A plate that fails stops it there (R332), and the groups before it are written (log 76). -/
def State.saveWork (s : State) (q slot : Nat) (acked : Bool) : State :=
  match s.running q slot opCheckpoint with
  | none => s
  | some c =>
    let f := s.fixOf c
    match (s.fixer f).save with
    | none => s
    | some sv =>
      if oCkFunc c.desc ≠ 1 then s
      else
        let k := s.ckptEntry f
        let base := kBase k sv.slot
        let x := s.fixer f
        let tab (g : Nat) : Nat := ((SMap.get? sv.bound g).map BitVec.toNat).getD (s.group f g)
        let send (s : State) (l : List (Nat × Plate)) : State :=
          l.foldl (fun s p => s.sendSaved f (kModule k) (base + p.1) p.2) s
        let r := s.savedGroups x tab sv.slot sv.bound
        let body := s.savedTables tab base sv.step ++ r.2.1
        let s := send s body
        let landed := acked ∧ s.routeUsable (kModule k)
        match r.2.2 with
        | some bad =>
          let s := if bad.2 = 5 then s else s.badPlate c 0 bad.1 bad.2
          let s := if landed then s.clearChange f sv r.1 else s
          (s.stopSave f).setCmd { c with worked := true }
        | none =>
          if landed then
            ((s.sendHeader f sv true (144 * (body.length + 1))).saveComplete f sv).setCmd { c with worked := true }
          else (s.stopSave f).setCmd { c with worked := true }

def execCheckpointSave (q : Fin 128) (slot : BitVec 32) (acked : Bool) (s : State) : Answer :=
  done s (s.saveWork q.val slot.toNat acked)

/-- CKPT_TIMEOUT: a write of the die's SAVE has had no acknowledgement for CKPT_TIMEOUT_MS, or was refused (R332). -/
def State.ckptStop (s : State) (f : Nat) : State :=
  match (s.fixer f).save with
  | none => s
  | some sv =>
    let s := s.stopSave f
    match s.cmd? sv.q sv.qslot with
    | none => s
    | some c => s.setCmd { c with worked := true }

def execCkptTimeout (f : Fin 16) (s : State) : Answer := done s (s.ckptStop f.val)

/-! ### Restoring (R333, R334) -/

/-- A slot as the other module shows it: data at slot × 2^52 + offset, margin entries from 2^54 on. -/
def peerPlate (peer : List (Nat × Byte)) (k off : Nat) : Plate :=
  Plate.ofBytes (Mem.readN peer (k * 2 ^ 52 + off) 128 ++ Mem.readN peer (2 ^ 54 + k * 2 ^ 52 + off / 8) 16) 0

/-- Where a slot lies as its plates' SEQ shows it: bits [26:21] of its base, from its header's plate; the base is a multiple of
2 MiB (R326, R157; log 80). -/
def peerBase (peer : List (Nat × Byte)) (k : Nat) : Nat := (peerPlate peer k 0).seq / 2 ^ 14 * 2 ^ 21

/-- Plates of a slot, each checked under R159 for its format and its line. -/
def peerLines (peer : List (Nat × Byte)) (k fmt : Nat) (offs : List Nat) : Except (Nat × Nat) (List (Nat × Plate)) :=
  offs.foldlM (fun acc off =>
    let p := peerPlate peer k off
    match plateCheck fmt (some (peerBase peer k + off)) 0 p with
    | 0 => .ok (acc ++ [(off, p)])
    | n => .error (off, n)) []

/-- The header of a slot, when it is well formed: MAGIC and CHECK hold, it is COMPLETE, and the writer is as the command
names it. -/
def peerHeader (peer : List (Nat × Byte)) (k module fixer : Nat) : Option Nat :=
  match peerLines peer k (Config.sectionFormat 0 % 64) [0] with
  | .error _ => none
  | .ok ps =>
    let b := ((ps.map fun p => leBytes 128 p.2.data).headD []).take 64
    let v := leNat b
    if bits v 511 480 = 0x43504B44 ∧ bits v 31 0 = crc32c (b.drop 4) ∧ bit v 399 ∧ bits v 415 404 = module ∧
        bits v 403 400 = fixer then some (bits v 479 448) else none

/-- The slot that SLOT_SEL names: 0 the newest complete one (R328). -/
def peerSlot (peer : List (Nat × Byte)) (d : BitVec 1024) : Option Nat :=
  let h (k : Nat) : Option Nat := peerHeader peer k (oSrcModule d) (oSrcFixer d)
  match oSlotSel d with
  | 0 => match h 0, h 1 with
    | none, none => none
    | some _, none => some 0
    | none, some _ => some 1
    | some a, some b => some (if a < b then 1 else 0)
  | n => (h (n - 1)).map fun _ => n - 1

/-- The group table copy of a slot, entries 0 to g. -/
def peerTable (peer : List (Nat × Byte)) (k g : Nat) : Except (Nat × Nat) (Nat → Nat) := do
  let ps ← peerLines peer k (Config.sectionFormat 1 % 64) ((List.range (g + 1)).map fun j => 0x1000 + 128 * j)
  .ok fun j => (SMap.get Plate.empty ps (0x1000 + 128 * j)).data

/-- What R333 asks of the two groups of a RESTORE_GROUP. -/
def restoreFits (d : BitVec 1024) (src dst : Nat) : Bool :=
  gEnabled src && gEnabled dst && decide (gCols src = gCols dst ∧ gRule src = gRule dst ∧ gTouched src = gTouched dst) &&
    decide (oSrcRow d + oRows48 d ≤ gRows src ∧ oDstRow d + oRows48 d ≤ gRows dst ∧ gLast src = gLast dst) &&
    (decide (gRule src ≠ 3) || decide (oSrcRow d = 0 ∧ oDstRow d = 0 ∧ oRows48 d = gRows src ∧ oRows48 d = gRows dst))

/-- Copy rows of a part from a slot: `from'` is where the part begins in it. -/
def State.restorePart (s : State) (peer : List (Nat × Byte)) (k from' : Nat) (t : Tensor) (lines : List (Nat × Nat)) :
    Except (Nat × Nat) State := do
  let ps ← peerLines peer k t.fmt (lines.map fun l => from' + l.1)
  s.fixWritable [t]
  .ok ((ps.zip lines).foldl (fun s p => match s.physLine (t.base + p.2.2) with
    | none => s
    | some pl => (s.putPlate pl (p.1.2.move (t.base + p.2.2))).markDirty (t.base + p.2.2)) s)

/-- Lines of n rows in two tensors of one row length: source and destination offsets. -/
def rowPairs (t : Tensor) (src dst n : Nat) : List (Nat × Nat) :=
  (List.range n).flatMap fun i => (rowLines t (src + i)).zip (rowLines t (dst + i))

/-- The narrow copy of some rows, re-formed from their high halves, with what it posts (R304, R334, R179). -/
def State.reformRows (s : State) (e row n : Nat) : Except (Nat × Nat) (State × List Post) := do
  let sd := gSide e
  let fmt := s.copyFmt e
  let h := s.hiT e sd
  let ps ← s.readFix h ((List.range n).flatMap fun i => rowLines h (row + i))
  let w (i j : Nat) : BitVec 32 := weightBits (rawOf h ps (row + i) j) 0
  let t := s.copyT e sd fmt
  let first := if isSquare fmt then row / 32 * ceilDiv t.dim0 32 * squareBytes fmt else 16 * t.pitch1 * row
  let t := { t with base := t.base + first, dim1 := n }
  if fmt = 0 then .ok (s, [])
  else
    s.fixWritable [t]
    if fmt = 0x02 then .ok (s.writeFix t (rawPlates t (List.range n) fun i j => (w i j).toNat), [])
    else
      let o := s.fixTensorOut e t (fun i j => dec32 (w i j))
      .ok ((s.writeFix t o.plates).convCounts o, [fixPost e 1 o.stat])

/-- RESTORE_GROUP once its slot and groups are known (R334). -/
def State.restoreRows (s : State) (c : Cmd) (peer : List (Nat × Byte)) (k : Nat) (tab : Nat → Nat) :
    Except (Nat × Nat) State := do
  let d := c.desc
  let f := s.fixOf c
  let src := tab (oSrcGroup d)
  let e := s.group f (oDstGroup d)
  let area := groupOffset tab (oSrcGroup d)
  let rc := gRows src * gCols src
  let dstRc := gRows e * gCols e
  let at' (o : Nat) : Nat := area + (if dstRc = 0 then 0 else o / dstRc * rc)
  let s ← (s.groupParts e (gSide e)).foldlM (fun s p =>
    s.restorePart peer k (at' p.2) p.1 (rowPairs p.1 (oSrcRow d) (oDstRow d) (oRows48 d))) s
  let s ← (s.groupWords e (gSide e)).foldlM (fun s p =>
    if p.1.dim0 = gRows e ∧ gRule e ≠ 3 then
      s.restorePart peer k (area + 6 * rc) p.1 ((List.range (oRows48 d / 32)).map fun i =>
        (128 * (oSrcRow d / 32 + i), 128 * (oDstRow d / 32 + i)))
    else s.restorePart peer k (area + 6 * rc) p.1 ((tensorLines p.1).map fun l => (l, l))) s
  let (s, posts) ← s.reformRows e (oDstRow d) (oRows48 d)
  .ok ((s.setFixer f (((s.fixer f).changed (oDstGroup d)))).workDone { c with posts := c.posts ++ posts })

/-- The work of RESTORE_GROUP (R333, R334). -/
def State.restoreGroupWork (s : State) (q slot : Nat) (peer : List (Nat × Byte)) : State :=
  match s.running q slot opCheckpoint with
  | none => s
  | some c =>
    let d := c.desc
    if oCkFunc d ≠ 2 then s
    else if s.step.worked then s.refuseCmd c 0x18
    else match peerSlot peer d with
      | none => s.refuseCmd c 0x18
      | some k => match peerTable peer k (oSrcGroup d) with
        | .error b => s.fixFail c b
        | .ok tab =>
          if restoreFits d (tab (oSrcGroup d)) (s.group (s.fixOf c) (oDstGroup d)) then
            match s.restoreRows c peer k tab with
            | .ok s => s
            | .error b => s.fixFail c b
          else s.refuseCmd c 0x18

def execRestoreGroup (q : Fin 128) (slot : BitVec 32) (peer : List (Nat × Byte)) (s : State) : Answer :=
  doneMem s (s.restoreGroupWork q.val slot.toNat peer)

/-- The module section of a slot: its bytes that are not zero, by offset. -/
def peerSection (peer : List (Nat × Byte)) (k : Nat) : Except (Nat × Nat) (List (Nat × Byte)) := do
  let ps ← peerLines peer k (Config.sectionFormat 2 % 64) ((List.range 3584).map fun j => 0x90000 + 128 * j)
  .ok (ps.flatMap fun p => ((List.range 128).zip (leBytes 128 p.2.data)).filterMap fun (x : Nat × Byte) =>
    if x.2 = 0 then none else some (p.1 - 0x90000 + x.1, x.2))

/-- The work of RESTORE_MODULE (R334): the section is applied at the next boundary. -/
def State.restoreModuleWork (s : State) (q slot : Nat) (peer : List (Nat × Byte)) : State :=
  match s.running q slot opCheckpoint with
  | none => s
  | some c =>
    if oCkFunc c.desc ≠ 3 then s
    else if s.step.worked then s.refuseCmd c 0x18
    else match peerSlot peer c.desc with
      | none => s.refuseCmd c 0x18
      | some k => match peerSection peer k with
        | .error b => s.fixFail c b
        | .ok sec => { s with step := { s.step with restore := some sec } }.workDone c

def execRestoreModule (q : Fin 128) (slot : BitVec 32) (peer : List (Nat × Byte)) (s : State) : Answer :=
  doneMem s (s.restoreModuleWork q.val slot.toNat peer)

/-- `n` bytes of a module section from an offset. -/
def sectionBytes (sec : List (Nat × Byte)) (from' n : Nat) : Bytes := (List.range n).map fun i => Mem.read sec (from' + i)

/-- The exposure slots of a module section (R327). -/
def State.takeSlots (s : State) (sec : List (Nat × Byte)) : State :=
  (List.range 4096).foldl (fun s k =>
    let v := leNat (sectionBytes sec (0x1000 + 8 * k) 8)
    s.setExpo k (setBits (setBits (s.expo k) 63 56 (exCode v)) 38 34 (exFill v))) s

/-- The steering records of a module section (R327). -/
def State.takeSteering (s : State) (sec : List (Nat × Byte)) : State :=
  (List.range 4096).foldl (fun s l =>
    let v := leNat (sectionBytes sec (0x49000 + 32 * l) 32)
    let r := s.steer l
    let r := setBits r 59 52 (bits v 59 52)
    s.setSteer l (setBits (setBits r 103 88 (bits v 103 88)) 143 112 (bits v 143 112))) s

/-- A restored module section takes the place of the job-start values (R334, step 5 of R76). -/
def State.applySection (s : State) : State :=
  match s.step.restore with
  | none => s
  | some sec =>
    let s := { s with step := { s.step with restore := none } }
    let s := s.setReg (okey 0x3100 6) ((Mem.read sec 0).toNat % 32)
    ((s.takeSlots sec).setDom 0x312002 0 (sectionBytes sec 0x9000 0x40000)).takeSteering sec

/-! ### Contact sheets (R335) -/

/-- One plate of a sheet goes out: to host memory back to back, to this module's memory, or to another module. -/
def State.sheetPlate (s : State) (c : Cmd) (n addr : Nat) (p : Plate) : Except (Nat × Nat) State :=
  let d := c.desc
  if oDestHost d then
    let q : Plate := Plate.seal { p with tag := setBits p.tag 19 0 (Config.hostSeq n % 2 ^ 20) }
    let a := s.ob 0x4410 4 + oDestAddr d + 144 * n
    .ok ((s.store (hostAt a) q.bytes).send (.hostWrite a q.bytes))
  else if oDestModule d ≠ s.moduleId then .ok (s.sendSaved (s.fixOf c) (oDestModule d) addr p)
  else if s.access addr true ≠ .served then .error (addr, 5)
  else match s.physLine addr with
    | none => .error (addr, 5)
    | some pl => .ok ((s.putPlate pl (p.move addr)).markDirty addr)

/-- The plates of one group in the form asked for, by line offset from the group's place at the destination, the bytes they take
there, and the conversion that made them. DESIGN CHOICE (log 197): its dense nugget gap, and role OTHER, since no context names one. -/
def State.sheetGroup (s : State) (c : Cmd) (e : Nat) (ps : List (Nat × Plate)) : List (Nat × Plate) × Nat × Option TensorOut :=
  let h := s.fixTensor 0x04 0 (gRows e) (gCols e)
  if oForm c.desc = 1 then (ps, 2 * gRows e * gCols e, none)
  else
    let t := s.fixTensor 0x13 0 (gRows e) (gCols e)
    let o := convertTensor t { fmt := 0x13, sr := none, gap := s.gapOf (gLayer e), expo := 0, epoch := 0 }
      (fun _ i j => (cellAt h anyPlate ps 0 i j).value)
    (finishPlates t 0 ((tensorLines t).map fun l => (l, SMap.get Plate.empty o.plates l)), gRows e * gCols e, some o)

/-- What the groups of a sheet have led to: the state, plates and bytes written, and contributions. -/
structure SheetRun where
  s : State
  plates : Nat
  at' : Nat
  posts : List Post

/-- The groups of a sheet in turn. -/
def State.sheetRun (s : State) (c : Cmd) (peer : List (Nat × Byte)) (k : Nat) (tab : Nat → Nat) :
    Except (Nat × Nat) SheetRun := do
  let d := c.desc
  (List.range (oGroupCount d)).foldlM (fun (a : SheetRun) j => do
    let g := oFirstGroup d + j
    let e := tab g
    let area := groupOffset tab g
    let h := s.fixTensor 0x04 0 (gRows e) (gCols e)
    let src ← peerLines peer k 0x04 ((tensorLines h).map (area + ·))
    let (ps, n, o) := s.sheetGroup c e (src.map fun p => (p.1 - area, p.2))
    let s ← (ps.zip (List.range ps.length)).foldlM (fun (s : State) x =>
      s.sheetPlate c (a.plates + x.2) (oDestAddr d + a.at' + x.1.1) x.1.2) a.s
    .ok ⟨s.copyCounts o, a.plates + ps.length, a.at' + n, a.posts ++ (o.toList).map fun o => fixPost e 6 o.stat⟩) ⟨s, 0, 0, []⟩

/-- The work of a CONTACT_SHEET (R335): SHEET_LAST_STEP and SHEET_DONE. -/
def State.sheetWork (s : State) (q slot : Nat) (peer : List (Nat × Byte)) : State :=
  match s.running q slot opSheet with
  | none => s
  | some c =>
    let f := s.fixOf c
    let d := c.desc
    let step := if c.passes = 0 then (s.fixer f).slots.1 else (s.fixer f).slots.2
    let run := do
      let tab ← peerTable peer c.passes (oFirstGroup d + oGroupCount d - 1)
      s.sheetRun c peer c.passes tab
    match run with
    | .error b => s.fixFail c b
    | .ok x =>
      let s := (x.s.bump (okey 0x6C20 1) 1).setReg (okey 0x6C20 2) (step.getD 0)
      (s.raiseCmd c 0x6C03 0 f (step.getD 0)).workDone { c with posts := c.posts ++ x.posts }

def execContactSheet (q : Fin 128) (slot : BitVec 32) (peer : List (Nat × Byte)) (s : State) : Answer :=
  doneMem s (s.sheetWork q.val slot.toNat peer)

end Sys2Proof.Machine
end

