-- ==== Sys2Proof/Machine/Queues.lean ====
section
/-! DEFINITION. Queues (chapter 03): fetching and validating descriptors (R78, R81, R86, R472), the scheduler's admission
(R83, R84, R87, R197, R199, R234, R254), gathering (R88, R108), suspension at the end of a window (R85) and completion
(R79), with the bracket replay that runs within it (R202–R205). -/

namespace Sys2Proof.Machine

/-! ### Fetch (R81) -/

/-- A command as it is fetched. -/
def Cmd.fetched (q slot : Nat) (d : BitVec 1024) (tick : Nat) : Cmd :=
  { q := q, slot := slot, desc := d, phase := .fetched, worked := false, status := 0, consumed := 0, overruns := 0,
    overRun := 0, overTold := false, waited := false, behind := false, since := (0, 0), turn := 0, made := 0, saved := [], shared := false,
    epochTold := false, bound := [], epoch := 0, ordinal := 0, expo := [], posts := [],
    causes := 0, unacked := 0, haltTick := none, staleTold := false, passes := 0, draws := [],
    bracketed := false, ratios := [], variant := none, waitsFor := [], fetchTick := tick, batch := none }

/-- MEM_UE for the first damaged line of an ARM table (R271). -/
def State.armTableUe (s : State) (d : BitVec 1024) : State :=
  if dOpcode d = opMove ∧ oMoveFunc d = 2 then
    match (List.range (oCount d)).find? fun j => s.lineBad (oTable d + 64 * j) with
    | some j => s.memUe (oTable d + 64 * j)
    | none => s
  else s

/-- The reads of an ARM table count what they correct (R270). -/
def State.armTableSeen (s : State) (d : BitVec 1024) : State :=
  if dOpcode d = opMove ∧ oMoveFunc d = 2 then s.sawAddrs ((List.range (oCount d)).map fun j => oTable d + 64 * j) else s

/-- A descriptor has been read: the queue of a fenced die completes it and halts again (R86); else it is validated, and
refused or kept (R81). STEP_START is the first index fetched of a step (R198). -/
def State.takeDesc (s : State) (q slot : Nat) (d : BitVec 1024) : State :=
  let c := Cmd.fetched q slot d s.tickNo
  let s := s.setReg (qkey q 8) ((slot + 1) % 2 ^ 32)
  if s.fenced (s.qDie q) then
    let s := s.setReg (qkey q 8) slot
    let s := if s.recordWaits q slot then { s with cmds := s.cmds ++ [{ c with phase := .done, status := 0x20 }] }
             else s.writeRecord c 0x20
    s.haltQueue q 1 slot slot
  else
    match s.validate (s.qDie q) d with
    | 0 =>
      let s := s.armTableSeen d
      let x := s.qst q
      let s := s.setQst q { x with starts := if (SMap.get? x.starts (dStep d)).isSome then x.starts
                                             else SMap.put x.starts (dStep d) slot }
      { s with cmds := s.cmds ++ [c] }
    | st => (s.armTableUe d).refuseCmd c st

/-- DESCRIPTOR_FETCH: the descriptor at HEAD of a running queue (R81); a page that is not present makes it wait, and a
fetch that cannot be served halts the queue (R472, R271). -/
def State.fetch (s : State) (q : Nat) : State :=
  let slot := s.qHead q
  let a := s.descAddr q slot
  if !s.isReady ∨ !s.fetchDue q ∨ (s.cmd? q slot).isSome then s
  else match s.access a false, s.physLine a with
    | .absent, _ => s
    | .served, some p =>
      if s.lineBad a then (s.memUe a).haltQueue q 2 slot slot
      else (s.sawAddrs [a]).takeDesc q slot (BitVec.ofNat 1024 (s.loadNat p.data 128))
    | _, _ => s.haltQueue q 2 slot slot

def execDescriptorFetch (q : Fin 128) (s : State) : Answer := doneMem s (s.fetch q.val)

/-! ### The window (R75, R83) -/

/-- Time of some cycles in ns. -/
def ccNs (cc mhz : Nat) : Nat := if mhz = 0 then 0 else ceilDiv (cc * 1000) mhz

/-- F and G of R75. -/
def State.canaryNs (s : State) (d : Die) : Nat := max (s.periodNs * 5 / 1000) (ccNs 1200 (s.clockMHz d))
def State.guardNs (s : State) (d : Die) : Nat := max 1500 (ccNs 3072 (s.clockMHz d))

/-- The end of the work window. -/
def State.windowEnd (s : State) (d : Die) : Nat := s.periodNs - s.canaryNs d - s.guardNs d

/-- The logical shafts that one physical shaft serves. -/
def State.hosted (s : State) (t p : Nat) : List Nat :=
  (List.range (s.reg (dkeyOf (Die.ofIx t) 0x10 1))).filter fun k =>
    decide (s.physOf t k = p) && bit (s.ob (0xA000 + 0x100 * t + 0x11) (k + 1)) 15

/-- A physical shaft is HOSTING_TWO (R32). -/
def State.hosting (s : State) (t p : Nat) : Bool := decide (s.ob (0xA000 + 0x100 * t + 0x12) (p + 1) = 2)

/-- A logical shaft rests in this tick (R325): an even tick serves the lower number of the two. -/
def State.resting (s : State) (t k : Nat) : Bool :=
  let p := s.physOf t k
  s.hosting t p && decide ((s.hosted t p).head? ≠ some k) == decide (s.tickNo % 2 = 0)

/-- The latest start of the work window: 2 µs, or 47 µs where a stope is swapped, which the shaft may end earlier
(R75, R325). -/
def State.windowStart (s : State) (d : Die) (k : Nat) : Nat :=
  if d.kind = 1 ∧ s.hosting d.num (s.physOf d.num k) then 47000 else 2000

/-- The predicted remaining cycles of a command that has consumed some (R83). -/
def Cmd.predAfter (c : Cmd) (used : Nat) : Nat :=
  if used ≤ 256 * dBudget c.desc then 256 * dBudget c.desc - used else 16 * dBudget c.desc

/-- The predicted remaining cycles of a command that does not run. -/
def Cmd.pred (c : Cmd) : Nat := c.predAfter c.consumed

/-- Cycles fit in the rest of the window, or begin it alone (R83). The window may open from 2 µs on, and it is at its start
until its latest start has passed (R325). -/
def State.fits (s : State) (k : Nat) (d : Die) (shaft pred now : Nat) : Bool :=
  let on := s.onEngine k
  let start := s.windowStart d shaft
  let mhz := s.clockMHz d
  let room (ns cc : Nat) : Bool := decide (cc * 1000 ≤ ns * mhz)
  decide (2000 ≤ now) &&
    if room (s.windowEnd d - 2000) pred then room (s.windowEnd d - now) ((on.map fun c => c.predAfter (c.consumed + s.elapsed c now)).sum + pred)
    else decide (now ≤ start) && on.isEmpty

/-! ### Admission -/

/-- A context is in use by another command in the same STEP (R87). -/
def State.keyInUse (_s : State) (c : Cmd) (others : List Cmd) : Bool :=
  others.any fun o => o.active && decide (dStep o.desc = dStep c.desc) && !decide (o.q = c.q ∧ o.slot = c.slot) &&
    (dCtxs c.run).any fun x => o.names x.2

/-- What the scheduler finds of the command at the front of a queue. -/
inductive Gate where
  | waits
  /-- it waits for room: a tag or the window (R83, R254) -/
  | noRoom
  /-- its STEP is behind (R197) -/
  | behind
  /-- its muster is broken (R92) -/
  | broken
  | refuse (status : Nat)
  /-- it is to be held and gathered (R88) -/
  | hold
  | go
deriving DecidableEq, Repr

/-- The fetched command of a queue, the next that may be admitted. -/
def State.front (s : State) (q : Nat) : Option Cmd := s.cmds.find? fun c => decide (c.q = q ∧ c.phase = .fetched)

/-- Every pit core of a shaft is halted by a breakpoint (R454). -/
def State.coresHalted (s : State) (d : Die) (k : Nat) : Bool :=
  decide (d.kind = 1) && (List.range 4).all fun j => s.obs.halted.any fun h => decide (h = (d.num, 4 * s.physOf d.num k + j))

/-- An ARM of the queue has been admitted and has stalled: it holds back the rest of its queue (R232, R233). -/
def State.armStalls (s : State) (q : Nat) : Bool :=
  s.cmds.any fun x => x.active && !x.worked && decide (x.q = q ∧ dOpcode x.desc = opMove ∧ oMoveFunc x.desc = 2)

/-- Waits, fences, the step gate and shadows (R83, R84, R92, R197, R232, R234). -/
def State.gateOrder (s : State) (c : Cmd) : Gate :=
  let d := c.desc
  let die := s.qDie c.q
  if die.kind = 1 ∧ (s.resting die.num (dShaft d) ∨ s.coresHalted die (dShaft d)) then .waits
  else if dWaitEn d ∧ !s.waitMet (dWaitMuster d) (dWaitRound d) ∧ dOpcode d ≠ opVerdict then
    (if (s.mst (dWaitMuster d)).broken then .broken else .waits)
  else if dFence d ∧ (s.cmds.any fun x => decide (x.q = c.q) && slotAfter x.slot c.slot) then .waits
  else if s.stepMuster.isSome ∧ stepGated (dOpcode d) ∧ dStep d ≠ s.curStep then
    (if dStep d < s.curStep then .behind else .waits)
  else if s.armStalls c.q then .waits
  else if (dCtxs d).any fun x => (s.ctx x.2).shadow.isSome then .waits
  else .go

/-- A VERDICT is compared with the verdict that took effect at this boundary (R199). -/
def State.gateVerdict (s : State) (c : Cmd) : Gate :=
  match s.step.inEffect with
  | none => if (s.mst (dWaitMuster c.desc)).broken then .broken else .waits
  | some (_, step) =>
    if s.tickNo ≤ c.fetchTick then .waits
    else if dStep c.desc = step then .go
    else if dStep c.desc < step then .refuse 0x17
    else .waits

/-- Keys, halted commands that go on first, tags and the window (R87, R248, R254, R83). DESIGN CHOICE (log 177): a key in use refuses the command at the visit that
finds it, whether or not it would yet fit. -/
def State.gateRoom (s : State) (c : Cmd) (now : Nat) : Gate :=
  let die := s.qDie c.q
  if s.keyInUse c s.cmds then .refuse 0x1B
  else if s.cmds.any fun x => decide (s.engineOf x = s.engineOf c) && s.mayGoOn x then .waits
  else if !s.tagsFree die.num (dShaft c.desc) ((dCtxs c.desc).map Prod.snd).eraseDups then .noRoom
  else if !s.fits (s.engineOf c) die (dShaft c.desc) c.pred now then .noRoom
  else .go

/-- What the scheduler finds of a queue's front command at `now` ns in the tick. -/
def State.gate (s : State) (c : Cmd) (now : Nat) : Gate :=
  match s.gateOrder c with
  | .go =>
    if dOpcode c.desc = opVerdict then s.gateVerdict c
    else if dOpcode c.desc = opArray ∧ dGather c.desc ≠ 0 then .hold
    else if s.cmds.any fun x => decide (x.q = c.q ∧ x.phase = .gathered) then .waits
    else match s.gateRoom c now with
      | .go =>
        if dOpcode c.desc = opUpdate ∧ s.updateGate c = .wait then .waits
        else if memN (dOpcode c.desc) [opCheckpoint, opSheet] ∧ s.ckGate c = .wait then .waits
        else .go
      | g => g
  | g => g

/-- The idle phase (R387). -/
def idlePhase : Nat := 0xFFFFFFFF

/-- An ARRAY or VECTOR command restored or admitted in the head gives its die the tick's phase when it has the most predicted
cycles so far (R387). -/
def State.joinPhase (s : State) (c : Cmd) : State :=
  let d := s.qDie c.q
  let most : Bool := match SMap.get? s.pwr.phase d.num with
    | none => true
    | some x => decide (x.2 < c.pred)
  if d.kind = 1 ∧ (dOpcode c.desc = opArray ∨ dOpcode c.desc = opVector) ∧ most then
    { s with pwr := { s.pwr with
      phase := SMap.put s.pwr.phase d.num (dLayer c.desc * 65536 + dOperator c.desc, c.pred) } }
  else s

/-- First admission (R169, R171, R234, R442): the command binds its contexts' generations, takes the epoch, ordinal and
exposure codes in force, its draws start, its stope is awake (R280), in the head it counts for its die's phase (R387), and the plates of its remote inputs
are asked for. -/
def State.admitNow (s : State) (c : Cmd) : State × Cmd :=
  let d := c.desc
  let ctxs := ((dCtxs d).map Prod.snd).eraseDups
  let s := ctxs.foldl (fun s k =>
    let x := s.ctx k
    if drawStep x.draw = dStep d ∧ drawOrdinal x.draw = s.ordinal % 16 then s
    else s.setCtx k { x with draw := mkDraw 0 (dStep d) (s.ordinal % 16) }) s
  let c := { s.begin c with
    phase := .admitted, epoch := s.epoch, ordinal := s.ordinal
    bound := ctxs.map fun k => (k, (s.ctx k).gen.toNat)
    expo := ctxs.foldl (fun l k =>
      let x := (s.ctx k).desc
      if isExposed (cFmt x) then SMap.put l k (exCode (s.expo (cSlot x))) else l) c.expo }
  let s := (s.runCtxs c).tallyStart c
  let s := (ctxs.foldl (fun s k => s.askRemote k) s).countRung d
  let s := if stepGated (dOpcode d) then { s with step := { s.step with worked := true } } else s
  let s := if s.tick.now < 2000 then s.joinPhase c else s
  let die := s.qDie c.q
  let stope := (die.num, s.physOf die.num (dShaft d))
  let s := if die.kind = 1 then
      { s with page := { s.page with busy := stope :: s.page.busy
                                     retained := s.page.retained.filter fun x => !decide (x = stope) } }
    else s
  (s.traceCmd c 1 c.q c.slot, c)

/-- Admission of an UPDATE (R295): refused with its event, failed on memory, or admitted as one of its kinds. -/
def State.admitUpdate (s : State) (c : Cmd) : State :=
  let f := s.fixOf c
  match s.updateGate c with
  | .refuse ev arg skew =>
    let s := if skew then s.bump (okey 0x6050 4) 1 else s
    (s.raiseCmd c ev 2 (groupArg f (oGroup c.desc)) arg).refuseCmd c 0x18
  | .memory bad => s.fixFail { c with phase := .done } bad
  | .wait => s
  | g =>
    let (s, c) := s.admitNow c
    let (s, c) := s.updateAdmitted c g
    s.setCmd c

/-- Admit a command whose gate is open; an ARM acts at its admission (R232). -/
def State.admitGo (s : State) (c : Cmd) : State :=
  let op := dOpcode c.desc
  if op = opUpdate then s.admitUpdate c
  else if op = opCheckpoint ∨ op = opSheet then
    match s.ckGate c with
    | .wait => s
    | .stale =>
      let f := s.fixOf c
      ((s.ckptOutcome f 3).raiseCmd c 0x6C02 1 f (dStep c.desc)).refuseCmd c 0x18
    | .noSlot => s.refuseCmd c 0x18
    | .go =>
      let (s, c) := s.admitNow c
      let (s, c) := s.ckAdmitted c
      s.setCmd c
  else if op = opVerdict then
    let (s, c) := s.admitNow c
    s.setCmd { c with passes := (s.step.inEffect.map Prod.fst).getD 0 }
  else
    let (s, c) := s.admitNow c
    (s.setCmd c).armWork c.q c.slot

/-! ### Gathering (R88, R108) -/

/-- A descriptor without the fields in which the members of a batch may differ (R108): CTX_B, CTX_C, CTX_D, M,
COMPLETION_TAG, IRQ, FENCE, the ARRIVE and WAIT fields and STEP. -/
def batchKey (d : BitVec 1024) : Nat :=
  [(1023, 992), (447, 320), (319, 224), (95, 64), (9, 8)].foldl (fun v (r : Nat × Nat) => setBits v r.1 r.2 0) d.toNat

/-- Two commands may share a batch (R88, R108). -/
def gathersWith (a b : BitVec 1024) : Bool := decide (batchKey a = batchKey b)

/-- The commands of a batch that is being gathered, in the order held. -/
def State.members (s : State) (g : Gather) : List Cmd :=
  g.members.filterMap fun m => (s.cmd? m.1 m.2).filter fun c => decide (c.phase = .gathered)

/-- The rows that the held commands stream. -/
def rowsOf (l : List Cmd) : Nat := (l.map fun c => oM c.desc).sum

/-- A batch's deadline has come: the boundary that opens the d-th tick after its first command was held (R88). -/
def State.gatherLate (s : State) (g : Gather) : Bool :=
  match (s.members g).head? with
  | none => false
  | some c => decide (g.tick + dGather c.desc ≤ s.tickNo)

/-- A batch is to be admitted: its rows fill the array, a further command has closed it, or its deadline has come. -/
def State.gatherDue (s : State) (g : Gather) : Bool :=
  !(s.members g).isEmpty && (g.closed || decide (rowsOf (s.members g) = 128) || s.gatherLate g)

/-- A held command whose STEP is not the one in progress keeps its batch (R197). -/
def State.stepWaits (s : State) (c : Cmd) : Bool := s.stepMuster.isSome && decide (dStep c.desc ≠ s.curStep)

/-- QUEUE_STEP_BEHIND for a held command whose STEP is behind, once (R197). -/
def State.tellBehind (s : State) (c : Cmd) : State :=
  if c.behind then s else (s.setCmd { c with behind := true }).raiseCmd c 0x3108 2 c.q (dStep c.desc)

/-- A batch waits, whatever its room: for its tile's context, its shaft, or the STEP of a member (R88, R197, R234, R325). -/
def State.gatherWaits (s : State) (l : List Cmd) : Bool :=
  l.any (fun c => s.stepWaits c || (dCtxs c.desc).any (fun x => (s.ctx x.2).shadow.isSome) ||
    s.resting (s.qDie c.q).num (dShaft c.desc) || s.coresHalted (s.qDie c.q) (dShaft c.desc))

/-- The contexts that a batch's members name. -/
def gatherCtxs (l : List Cmd) : List Nat := (l.flatMap fun c => (dCtxs c.desc).map Prod.snd).eraseDups

/-- The whole of a batch fits at `now` ns (R88): its tags, and the sum of its predictions. -/
def State.gatherFits (s : State) (k : Nat) (l : List Cmd) (now : Nat) : Bool :=
  match l.head? with
  | none => false
  | some c => s.tagsFree (s.qDie c.q).num (dShaft c.desc) (gatherCtxs l) && s.fits k (s.qDie c.q) (dShaft c.desc) (l.map Cmd.pred).sum now

/-- Admit a member of a batch if it is still held, or refuse it where its context is in use by another than the batch
(R87): what a refusal put back is held no more. -/
def State.admitMember (others : List Cmd) (first : Nat × Nat × BitVec 1024) (s : State) (m : Nat × Nat) : State :=
  match s.cmd? m.1 m.2 with
  | none => s
  | some c =>
    if c.phase ≠ .gathered then s
    else if s.keyInUse c others then s.refuseCmd c 0x1B
    else
      let (s, c) := s.admitNow c
      s.setCmd { c with batch := some first }

/-- Admit a batch that an engine holds, when the whole of it fits (R88). -/
def State.admitBatch (s : State) (k : Nat) (g : Gather) (now : Nat) : State :=
  let l := s.members g
  match l.head? with
  | none => s
  | some first =>
    if s.gatherWaits l then
      (l.filter fun c => s.stepWaits c && decide (dStep c.desc < s.curStep)).foldl (fun s c => s.tellBehind c) s
    else if !s.gatherFits k l now then
      (l.filter fun c => !c.waited).foldl (fun s c => (s.bump (okey 0x4000 4) 1).setCmd { c with waited := true }) s
    else
      let s := { s with tick := { s.tick with now := now } }
      let e := s.engine k
      let s := s.setEngine k { e with gather := e.gather.filter fun x => !decide (x = g) }
      let s := s.bump (okey 0x3900 6) 1
      let s := if rowsOf l < 128 ∧ s.gatherLate g then s.bump (okey 0x3900 7) 1 else s
      g.members.foldl (State.admitMember s.cmds (first.q, first.slot, first.desc)) s

/-- The open batch that a command may join (R88, R108), with the rows it would bring it to. -/
def State.gatherFor (s : State) (k : Nat) (c : Cmd) : Option Gather :=
  (s.engine k).gather.find? fun g => !g.closed && (match (s.members g).head? with
    | none => false
    | some f => gathersWith f.desc c.desc)

/-- Every held command of a queue is in one batch. -/
def State.heldElsewhere (s : State) (q : Nat) (g : Option Gather) : Bool :=
  s.cmds.any fun x => decide (x.q = q ∧ x.phase = .gathered) && !(match g with
    | none => false
    | some g => g.members.any fun m => decide (m = (x.q, x.slot)))

/-- Put a command into a batch: the one given, or a new one. -/
def State.joinBatch (s : State) (k : Nat) (c : Cmd) (g : Option Gather) (now : Nat) : State :=
  let s := s.setCmd { c with phase := .gathered }
  let e := s.engine k
  match g with
  | none =>
    let g : Gather := ⟨s.tickNo, false, [(c.q, c.slot)]⟩
    let s := s.setEngine k { e with gather := e.gather ++ [g] }
    if s.gatherDue g then s.admitBatch k g now else s
  | some g =>
    let g' := { g with members := g.members ++ [(c.q, c.slot)] }
    let s := s.setEngine k { e with gather := e.gather.map fun x => if x = g then g' else x }
    if s.gatherDue g' then s.admitBatch k g' now else s

/-- Hold a command with the open batch that it agrees with, or open one; where its rows would carry the total above 128 it
closes that batch and opens the next (R108). DESIGN CHOICE (log 189): a command whose queue has another held in another
batch waits for that batch, so that commands of one queue are admitted in queue order (R83). -/
def State.holdCmd (s : State) (c : Cmd) (now : Nat) : State :=
  let k := s.engineOf c
  let s := { s with eng := s.eng.map fun (p : Nat × EngineSt) =>
                      (p.1, { p.2 with gather := gatherKeep (fun m => !decide (m = (c.q, c.slot))) p.2.gather }) }
  match s.gatherFor k c with
  | some g =>
    if rowsOf (s.members g) + oM c.desc ≤ 128 then
      if s.heldElsewhere c.q (some g) then s else s.joinBatch k c (some g) now
    else
      let g' := { g with closed := true }
      let e := s.engine k
      let s := s.setEngine k { e with gather := e.gather.map fun x => if x = g then g' else x }
      let s := s.admitBatch k g' now
      match s.front c.q with
      | none => s
      | some c => if s.heldElsewhere c.q none then s else s.joinBatch k c none now
  | none => if s.heldElsewhere c.q none then s else s.joinBatch k c none now

/-- GATHER_DEADLINE: every batch of an engine that is due is admitted as soon as it fits (R88). -/
def gatherDeadline (die shaft engine : Nat) (s : State) : State :=
  let d := Die.ofIx die
  let k := ekey d shaft engine
  if s.isReady then
    ((s.engine k).gather.filter s.gatherDue).foldl (fun s g => s.admitBatch k g (max s.tick.now (s.windowStart d shaft))) s
  else s

def execGatherDeadline (die : Fin 32) (shaft : Fin 16) (engine : Fin 2) (s : State) : Answer :=
  doneMem s (gatherDeadline die.val shaft.val engine.val s)

/-! ### The scheduler's visits (R83) -/

/-- The queue after which the visit at this moment begins. -/
def visitLast (e : EngineSt) (tick now : Nat) : Nat := match e.visit with
  | some (t, n, q) => if t = tick ∧ n = now then e.lastQ else q
  | none => e.lastQ

/-- Another queue comes before `q` in the visit's order, and its front command could be admitted to the same engine. DESIGN
CHOICE (log 179): within one visit a queue admits every command that fits before the next queue is visited. -/
def State.outranked (s : State) (q k now : Nat) : Bool :=
  let last := visitLast (s.engine k) s.tickNo now
  let place (x : Nat) : Nat := (x + 128 - (last + 1)) % 128
  (List.range 128).any fun q' => decide (place q' < place q) && match s.front q' with
    | none => false
    | some c => decide (s.engineOf c = k) && decide (s.gate c now = .go)

/-- Note the first queue that a visit admits. -/
def State.visited (s : State) (q k now : Nat) : State :=
  let e := s.engine k
  match e.visit with
  | some (t, n, f) =>
    if t = s.tickNo ∧ n = now then s else s.setEngine k { e with visit := some (s.tickNo, now, q), lastQ := f }
  | none => s.setEngine k { e with visit := some (s.tickNo, now, q) }

/-- ADMIT_COMMAND: the front command of a queue at `now` ns in the tick. -/
def State.admitFront (s : State) (q now : Nat) : State :=
  match s.front q with
  | none => s
  | some c =>
    let s := { s with tick := { s.tick with now := now } }
    let k := s.engineOf c
    if !s.isReady ∨ s.fenced (s.qDie q) then s
    else match s.gate c now with
      | .waits => s
      | .noRoom => if c.waited then s else (s.bump (okey 0x4000 4) 1).setCmd { c with waited := true }
      | .behind => s.tellBehind c
      | .broken => s.complete c 0x21 now
      | .refuse st => s.refuseCmd c st
      | .hold => s.holdCmd c now
      | .go => if s.outranked q k now then s else (s.visited q k now).admitGo c

def execAdmitCommand (q : Fin 128) (now : Nat) (s : State) : Answer := doneMem s (s.admitFront q.val now)

/-! ### The end of a window (R85) -/

/-- WINDOW_END_SUSPEND: a running command stops at its next tile boundary (R85, R246); `used` is the cycles it used in the
window, and one that used none has not begun. -/
def State.suspend (s : State) (q slot used : Nat) : State :=
  match s.cmd? q slot with
  | none => s
  | some c =>
    if c.phase ≠ .admitted ∨ c.worked then s
    else
      let (s, c) := s.stopWork c (decide (0 < used)) none
      let overs := decide (256 * dBudget c.desc ≤ c.consumed + used)
      let c := { c with phase := .suspended, consumed := c.consumed + used
                        overruns := if overs then c.overruns + 1 else c.overruns
                        overRun := if overs then c.overRun + 1 else 0 }
      let s := if overs then (s.bump (okey 0x4000 2) 1).tally c 0x11 1 else s
      let tell := overs && !c.overTold && decide (s.ob 0x4000 3 ≤ c.overRun)
      let s := if tell then s.raiseCmd c 0x4002 1 q slot else s
      let s := (s.setCmd { c with overTold := c.overTold || tell }).freeEngine c
      let s := c.bound.foldl (fun s b => s.setCtx b.1 { s.stopCtx c b.1 with state := .suspended }) s
      s.traceCmd c 3 q slot

def execWindowEndSuspend (q : Fin 128) (slot : BitVec 32) (consumed : Nat) (s : State) : Answer :=
  done s (s.suspend q.val slot.toNat consumed)

/-- A suspended command that the head does not restore: its shaft rests, or its cores are halted. -/
def State.staysSuspended (s : State) (c : Cmd) : Bool :=
  let d := s.qDie c.q
  decide (d.kind = 1) && (s.resting d.num (dShaft c.desc) || s.coresHalted d (dShaft c.desc))

/-- Suspended commands are restored in the head of a tick (R84); those of a resting shaft stay suspended (R325). -/
def State.restoreSuspended (s : State) : State :=
  s.eachCmd (fun c => decide (c.phase = .suspended)) (fun s c =>
    if s.staysSuspended c then s
    else
      let c := { c with phase := .admitted, since := (s.tickNo, 2000) }
      let s := (c.bound.foldl (fun s b => s.setCtx b.1 { s.ctx b.1 with state := .running }) (s.setCmd c)).restoreArray c
      let s := c.bound.foldl (fun s b => s.askRemote b.1) s
      s.traceCmd c 4 c.q c.slot)

/-! ### The bracket replay (R202–R205) -/

/-- The first variant of a command in the bracket list of its layer, and whether a damaged line stopped the search. -/
def State.findVariant (s : State) (c : Cmd) : List Nat → Option (BitVec 1024) × Option Nat
  | [] => (none, none)
  | i :: rest =>
    let a := stPtr (s.steer (dLayer c.desc)) + 128 * i
    if s.lineBad a then (none, some a)
    else match s.devRead a 128 with
      | none => (none, none)
      | some bs =>
        let d := BitVec.ofNat 1024 (leNat bs)
        if dOperator d = dOperator c.desc then (some d, none) else s.findVariant c rest

/-- The reads of a bracket list count what they correct (R270). -/
def State.bracketSeen (s : State) (c : Cmd) : State :=
  let r := s.steer (dLayer c.desc)
  s.sawAddrs ((List.range (stCount r)).map fun i => stPtr r + 128 * i)

/-- The first failed condition of R203, or the variant. -/
def State.bracketCheck (s : State) (c : Cmd) : Except (Nat × Option Nat) (BitVec 1024) :=
  let r := s.steer (dLayer c.desc)
  if !dBracketPermit c.desc then .error (1, none)
  else if stHeld r ≠ dStep c.desc then .error (2, none)
  else match s.findVariant c (List.range (stCount r)) with
    | (none, ue) => .error (3, ue)
    | (some v, _) =>
      if s.validate (s.qDie c.q) v = 0 ∧ !s.keyInUse { c with variant := some v } s.cmds then .ok v else .error (4, none)

/-- The variant takes the place of the first run (R204): its contexts are bound, the first run's draws stand and its contributions
are gone. The row of the variant's mode then does its work. -/
def State.runVariant (s : State) (c : Cmd) (v : BitVec 1024) : State :=
  let bwd := dBackward c.desc
  let ctxs := (((dCtxs v).map Prod.snd).eraseDups).filter fun k => !c.names k
  let s := s.takeDraws c
  let c := { c with variant := some v, bracketed := true, posts := [], draws := [], worked := false, made := 0, saved := []
                    bound := c.bound ++ ctxs.map fun k => (k, (s.ctx k).gen.toNat) }
  let s := (s.runCtxs { c with bound := ctxs.map fun k => (k, 0) }).setCmd c
  let s := (s.raiseCmd c 0x3104 0 (dLayer c.desc) (dOperator c.desc)).bump (okey 0x3150 2) 1
  let s := s.postFlag (dLayer c.desc) bwd true
  ctxs.foldl (fun s k => s.askRemote k) s

/-- The test of a completed ARRAY command (R202, R205). -/
def State.bracketTest (s : State) (c : Cmd) : State :=
  if c.bracketed ∨ !s.bracketTriggers c then s
  else match s.bracketCheck c with
    | .ok v => (s.bracketSeen c).runVariant c v
    | .error (n, ue) =>
      let s := match ue with
        | some a => s.memUe a
        | none => s
      let c := { c with bracketed := true }
      let s := ((s.setCmd c).postCause 6).bump (okey 0x3150 3) 1
      let s := s.postFlag (dLayer c.desc) (dBackward c.desc) false
      s.raiseCmd c 0x3105 1 (dLayer c.desc) n

/-! ### Completion (R79) -/

/-- A command whose work is done completes: an UPDATE joins its step's results, a log-mode command counts. -/
def State.completeWork (s : State) (c : Cmd) (status now : Nat) : State :=
  if status = 0 ∧ s.commitWaits c = true then s
  else if s.recordWaits c.q c.slot then s.setCmd { c with phase := .done, status := status }
  else
    let s := if status = 0 ∧ dOpcode c.desc = opUpdate then s.updateLeaves c else s
    let s := if status = 0 ∧ dOpcode c.desc = opArray ∧ dProduct c.run = 4 then s.bump (okey 0x3800 3) 1 else s
    s.complete c status now

/-- COMMAND_COMPLETE at `now` ns in the tick: a command whose work has run and whose plates are acknowledged (R240), or
whose completion waited for the page of its record (R472). -/
def State.completeCmd (s : State) (q slot now : Nat) : State :=
  match s.cmd? q slot with
  | none => s
  | some c =>
    let s := { s with tick := { s.tick with now := now } }
    if c.phase = .done then
      if refusalStatus c.status ∨ (c.status = 0x20 ∧ c.bound.isEmpty) then
        (if s.recordWaits q slot then s else (s.writeRecord c c.status).dropCmd q slot)
      else s.completeWork c c.status now
    else if c.phase ≠ .admitted ∨ !c.worked ∨ c.unacked ≠ 0 then s
    else
      let s := s.bracketTest c
      match s.cmd? q slot with
      | none => s
      | some c => if c.phase = .admitted ∧ c.worked ∧ c.unacked = 0 then s.completeWork c 0 now else s

def execCommandComplete (q : Fin 128) (slot : BitVec 32) (now : Nat) (s : State) : Answer :=
  doneMem s (s.completeCmd q.val slot.toNat now)

/-! ### Writes of a queue's objects (R78, R260) -/

/-- A host write of 1 to STATE. -/
def State.enableQueue (s : State) (q : Nat) : State := s.setReg (qkey q 6) 1

/-- A host write of 0: fetching stops, and what is not admitted is put back. -/
def State.disableQueue (s : State) (q : Nat) : State :=
  if s.qState q = 1 then (s.putBack q).setReg (qkey q 6) 0 else s.setReg (qkey q 6) 0

/-- A host write of 2: as 0, with REFUSED_SLOT at HEAD and QUEUE_HALTED (R473, reason 6). -/
def State.haltByHost (s : State) (q : Nat) : State :=
  if s.qState q = 2 then s
  else
    let s := if s.qState q = 1 then s.putBack q else s
    s.haltQueue q 6 (s.qHead q) (s.qHead q)

end Sys2Proof.Machine
end

