-- ==== Sys2Proof/Machine/Numbering.lean ====
section
/-! DEFINITION. Dies, shafts and logical numbering (chapter 01): the defect union and list (R22–R29), the remap table
(R30–R36), the shape objects (R37, R471), starting and ending a job (R33, R38, R90, R188, R207, R228), doubling (R325) and
losing a whole die (R336). -/

namespace Sys2Proof.Machine

/-! ### Objects of a Trify die -/

def remapKey (t k : Nat) : Nat := okey (0xA000 + 0x100 * t + 0x11) (k + 1)
def physKey (t p : Nat) : Nat := okey (0xA000 + 0x100 * t + 0x12) (p + 1)
def State.setPhys (s : State) (t p v : Nat) : State := s.setReg (physKey t p) v
def State.shafts (s : State) (t : Nat) : Nat := s.reg (dkeyOf (Die.ofIx t) 0x10 1)

/-- Good physical shafts in ascending order (R32). -/
def State.goods (s : State) (t : Nat) : List Nat := (List.range 18).filter fun p => decide (s.physState t p < 16)

/-- Spares in ascending order. -/
def State.spares (s : State) (t : Nat) : List Nat := (List.range 18).filter fun p => decide (s.physState t p = 1)

/-- SPARES (object B+0x10.02). -/
def State.showSpares (s : State) (t : Nat) : State := s.setReg (dkeyOf (Die.ofIx t) 0x10 2) (s.spares t).length

/-- Build a die's remap table from its good shafts, with at most `n` logical shafts (R30, R36). -/
def State.buildTable (s : State) (t n : Nat) : State :=
  let l := s.goods t
  let m := min n l.length
  let s := (List.range 16).foldl (fun s k => s.setReg (remapKey t k) (if k < m then 0x8000 + l.getD k 0 else 0)) s
  let s := (l.zip (List.range l.length)).foldl (fun s x => s.setPhys t x.1 (if x.2 < m then 0 else 1)) s
  (s.setReg (dkeyOf (Die.ofIx t) 0x10 1) m).showSpares t

/-- A die that exposes no logical shafts (R16). -/
def State.clearTable (s : State) (t : Nat) : State :=
  let s := (List.range 16).foldl (fun s k => s.setReg (remapKey t k) 0) s
  (s.setReg (dkeyOf (Die.ofIx t) 0x10 1) 0).setReg (dkeyOf (Die.ofIx t) 0x10 2) 0

/-! ### Shape (R37, R471) -/

/-- DIE_STATE (object B+0x10.04). -/
def State.dieState (s : State) (d : Die) : Nat :=
  if s.fenced d then 4
  else match d with
    | .t t =>
      b2n (decide (s.shafts t.val < 16)) + 2 * b2n (decide (s.reg (dkeyOf d 0x10 3) ≠ 3))
    | .d _ => if (s.failedUnits d 5).isEmpty then 0 else 5
    | .f _ => 0

/-- A mask with a bit for each number that holds. -/
def maskOf (n : Nat) (f : Nat → Bool) : Nat := ((List.range n).map fun i => if f i then 2 ^ i else 0).sum

/-- The shape objects recomputed (R37). -/
def State.showShape (s : State) : State :=
  let up (base i : Nat) : Bool := !s.fenced (Die.ofIx (base + i))
  let s := allDies.foldl (fun s d => s.setReg (dkeyOf d 0x10 4) (s.dieState d)) s
  let s := s.setReg (okey 0x7001 2) ((List.range 32).map s.shafts).sum
  let s := s.setReg (okey 0x7001 3) (maskOf 32 (up 0))
  let s := s.setReg (okey 0x7001 4) (maskOf 16 (up 32))
  let s := s.setReg (okey 0x7001 5) (maskOf 16 (up 48))
  let s := s.setReg (okey 0x7001 6) (maskOf 32 fun t => up 0 t && decide (s.shafts t < 16))
  s.setReg (okey 0x7001 7) (maskOf 32 fun t => (List.range 16).any fun k => bit (s.reg (remapKey t k)) 14)

/-- What SHAPE_GENERATION follows (R471). -/
def State.shape (s : State) : List Nat :=
  ((List.range 32).flatMap fun t => (List.range 16).map fun k => s.reg (remapKey t k)) ++
    ((List.range 32).flatMap fun t => [s.shafts t, s.reg (dkeyOf (Die.ofIx t) 0x10 3)]) ++
    (allDies.map fun d => s.reg (dkeyOf d 0x10 4)) ++ ((List.range 6).map fun j => s.reg (okey 0x7001 (j + 2)))

/-! ### The field defect list (R25–R29) -/

/-- The list in use. -/
def State.list (s : State) : ListCopy := s.num.copies.1

/-- A unit is listed. -/
def State.listed (s : State) (u : BitVec 32) : Bool := s.list.entries.any fun e => decide (entryUnit e = u)

/-- The list objects and the LISTED masks (R37). -/
def State.showList (s : State) : State :=
  let s := (s.setReg (okey 0x7003 1) (s.list.generation % 2 ^ 32)).setReg (okey 0x7003 2) s.list.entries.length
  let s := s.setReg (okey 0x7003 3) (1024 - s.num.counter)
  (List.range 32).foldl (fun s t => s.setReg (dkeyOf (Die.ofIx t) 0x13 3)
    (maskOf 18 fun p => s.listed (unitId (Die.ofIx t) 1 p))) s

/-- A copy as its bytes (R25). -/
def ListCopy.bytes (l : ListCopy) : Bytes :=
  let head := leBytes 4 l.magic.toNat ++ leBytes 4 l.generation ++ leBytes 2 l.entries.length ++ List.replicate 54 0
  let body := head ++ l.entries.flatMap fun e => leBytes 16 e.toNat
  body ++ fit 64 (Config.sha512 body)

/-- All unit classes of a copy are defined (R21). DESIGN CHOICE (log 175): a class on a die kind that has no such unit, and a
reserved die kind, count as reserved. -/
def ListCopy.classesOk (l : ListCopy) : Bool :=
  l.entries.all fun e =>
    let u := (entryUnit e).toNat
    match bits u 31 29, bits u 23 20 with
    | 1, c => decide (c ≤ 3)
    | 2, c => decide (c = 0 ∨ c = 4 ∨ c = 5)
    | 3, c => decide (c = 0 ∨ c = 6 ∨ c = 7)
    | _, _ => false

/-- A copy is accepted at bring-up (R27). -/
def State.accepts (s : State) (l : ListCopy) : Bool :=
  decide (l.magic = 0x4C444643#32) && l.digestOk && l.classesOk &&
    (decide (l.generation = s.num.counter) || (decide (l.generation = s.num.counter + 1) && decide (s.num.counter < 1024)))

/-- The list chosen at bring-up, both copies made equal to it and the counter advanced to it (R27); none: bring-up
stops. -/
def State.chooseList (s : State) : Option State :=
  let a := s.num.copies.1
  let b := s.num.copies.2
  let use (l : ListCopy) : State :=
    { s with num := { s.num with copies := (l, l), counter := l.generation } }
  match s.accepts a, s.accepts b with
  | true, true => some (use (if a.generation < b.generation then b else a))
  | true, false => some (use a)
  | false, true => some (use b)
  | false, false => none

/-- Entries are appended in the order of R28, each copy read back, and the counter advanced; a list or counter that is
full takes none, and DEFECT_LIST_FULL tells of each unit (R29). -/
def State.appendList (s : State) : State :=
  let l := s.list
  let room := if s.num.counter < 1024 then 4088 - l.entries.length else 0
  let new := s.num.append.take room
  let rest := s.num.append.drop room
  let why := if s.num.counter < 1024 then 1 else 0
  let s := { s with num := { s.num with append := [] } }
  let s := if new.isEmpty then s
    else
      let l' : ListCopy := { l with generation := l.generation + 1, entries := l.entries ++ new, digestOk := true }
      ({ s with num := { s.num with copies := (l', l'), counter := s.num.counter + 1 } }).showList
  rest.foldl (fun s e => s.raise 0x7001 1 why (entryUnit e).toNat) s

def execDefectListAppend (s : State) : Answer := done s (if s.serves ∧ !s.num.append.isEmpty then s.appendList else s)

/-! ### The defect union (R23) -/

/-- A unit's state under R23: 0 good, else as R32 codes it. -/
def State.unionState (s : State) (u : BitVec 32) : Nat :=
  if memN u.toNat (s.fuse.bad.map BitVec.toNat) then 0x10
  else if s.listed u then 0x11
  else if s.num.startFail.any fun f => decide (f.1 = u) then 0x12
  else 0

/-- Shafts of a die classified by R23; a shaft retired in service stays so for the power cycle (R29). -/
def State.unionShafts (s : State) (t : Nat) : State :=
  (List.range 18).foldl (fun s p =>
    let v := s.unionState (unitId (Die.ofIx t) 1 p)
    s.setPhys t p (if v = 0 ∧ s.physState t p = 0x13 then 0x13 else v)) s

/-- Every unit identifier of a die but its shafts: class, index (R21). -/
def dieUnits (d : Die) : List (Nat × Nat) :=
  (0, 0) :: match d with
    | .t _ => ((List.range 4).map fun i => (2, i)) ++ [(3, 0), (3, 1)]
    | .d _ => ((List.range 8).map fun i => (4, i)) ++ [(5, 0)]
    | .f _ => ((List.range 16).map fun i => (6, i)) ++ ((List.range 4).map fun i => (7, i))

/-- The units of a die that R23 retires join the failed ones, and HBM_PRESENT shows the good stacks. -/
def State.unionUnits (s : State) (d : Die) : State :=
  let bad := ((dieUnits d).map fun x => unitId d x.1 x.2).filter fun u => decide (s.unionState u ≠ 0)
  let s := { s with num := { s.num with unitFails := (s.num.unitFails ++ bad).eraseDups } }
  match d with
  | .t _ => s.setReg (dkeyOf d 0x10 3) (maskOf 2 fun i => !memN (unitId d 3 i).toNat ((s.failedUnits d 3).map BitVec.toNat))
  | _ => s

/-- CONTRADICTIONS: fuse-bad units that passed the start-up test (R23): units of the dies that step 6 tested, which failed
neither there nor in the steps before it. -/
def State.contradictions (s : State) : Nat :=
  (s.fuse.bad.eraseDups.filter fun u => s.live (dieOfUnit u) && !memN u.toNat (s.num.unitFails.map BitVec.toNat) &&
    !s.num.startFail.any fun f => decide (f.1 = u)).length

/-! ### A fence (R16–R18, R336) -/

/-- A command has been refused, and only its record is still to be written. -/
def Cmd.refused (c : Cmd) : Bool := decide (c.phase = .done) && refusalStatus c.status

/-- The commands of a die that have not completed do so with DIE_FENCED, those fetched or held and not admitted too, and
its running queues halt (R86, reason 1). -/
def State.cutDie (s : State) (d : Die) : State :=
  let s := s.eachCmd (fun c => !c.refused && decide (s.qDie c.q = d)) fun s c => s.cutOff c 0x20
  (List.range 128).foldl (fun s q => if s.qDie q = d then s.stopQueue q 1 else s) s

/-- The memory of a fenced die counts as lost (R336): its pages leave the map. -/
def State.loseMemory (s : State) (d : Die) : State :=
  match d with
  | .t t => (s.unmapUnit 0 (2 * t.val)).unmapUnit 0 (2 * t.val + 1)
  | .f f => s.unmapUnit 1 f.val
  | .d _ => s

/-- Results held on every Fixer die are discarded (R309, R336, R38). -/
def State.dropHolds (s : State) : State :=
  (List.range 16).foldl (fun s f =>
    let x := s.fixer f
    (s.setFixer f { x with applied := [], admitted := [] }).clearHolds f) s

/-- The job ends (R38). -/
def State.endJob (s : State) : State :=
  let s := s.eachCmd (fun c => c.active && decide (c.phase ≠ .done)) fun s c => s.cutOff c 0x24
  let s := (List.range 128).foldl (fun s q => s.stopQueue q 4) s
  let s := s.dropHolds
  let s := (List.range 16).foldl (fun s f => s.stopSave f) s
  let s := { s with
    mus := s.mus.map fun (p : Nat × Muster) => (p.1, { p.2 with held := [], complete := none, released := false })
    step := { s.step with verdict := none, inEffect := none, forceAbandon := false, restore := none } }
  (s.setReg (okey 0x7002 1) 0).raise 0x7002 0 (s.ob 0x7002 2) s.curStep

/-- Identification of a die in events: [15:13] kind, [12:8] number. -/
def dieArg (d : Die) : Nat := d.kind * 8192 + d.num * 256

/-- The job loses a die, or a reduction store that it uses: the musters break, what is held is dropped, the job ends, and
DIE_LOST is raised (R336, R365). -/
def State.loseJob (s : State) (d : Die) (musters : List Nat) : State :=
  let s := musters.foldl (fun s m => s.breakMuster m) s
  let s := s.dropHolds
  let s := if s.jobRuns then s.endJob else s
  s.raiseAt 0x7104 3 (unitOfDie d) 0 0 (dieArg d) (s.tickNo % 2 ^ 32)

/-- A die is fenced at a boundary: the musters of the job break, the job ends, and DIE_LOST is raised (R336). DEDUCED (log 40):
no state records who arrives at a muster, so a die takes part in every enabled one. Safe. -/
def State.fenceDie (s : State) (d : Die) (lost : Bool) : State :=
  if s.fenced d then s
  else
    let takesPart := s.jobRuns
    let s := { s with num := { s.num with fenced := s.num.fenced ++ [d]
                                          readmits := s.num.readmits.filter fun x => !decide (x = d) } }
    let ms := s.mustersOn
    let s := match d with
      | .f f => s.stopSave f.val
      | _ => s
    let s := s.cutDie d
    let s := match d with
      | .t t => s.clearTable t.val
      | .d n => if n = 0 then s.loseHost else s
      | _ => s
    let s := s.loseMemory d
    if lost ∨ takesPart then (s.bump (okey 0x7110 2) 1).loseJob d ms else s

/-! ### Shafts that move (R33, R34, R86, R324, R325) -/

/-- The commands of a logical shaft that moves, and that have not completed, do so with DISCARDED_FOR_REPLAY, those fetched
or held and not admitted too (R86, R139). -/
def State.discardShaft (s : State) (t k : Nat) : State :=
  s.eachCmd (fun c => !c.refused && decide (s.qDie c.q = Die.ofIx t ∧ dShaft c.desc = k)) fun s c => s.discard c

/-- Three free HBM3E frames of the die's own stacks (R325). -/
def State.swapFrames (s : State) (t : Nat) : Nat → List (Nat × Nat) → Option (List (Nat × Nat))
  | 0, acc => some acc
  | n + 1, acc =>
    let used := s.usedFrames ++ acc.map fun f => frameKey 0 f.1 f.2
    match ([2 * t, 2 * t + 1].filter s.stackUp).findSome? fun u => (lowestFree used u).map fun f => (u, f) with
    | none => none
    | some f => s.swapFrames t n (acc ++ [f])

/-- Take swap frames for a logical shaft that shares its host. -/
def State.takeSwap (s : State) (t k : Nat) : Option State :=
  if (SMap.get? s.page.swaps (t * 16 + k)).isSome then some s
  else (s.swapFrames t 3 []).map fun fs => { s with page := { s.page with swaps := SMap.put s.page.swaps (t * 16 + k) fs } }

/-- A failed logical number is doubled onto the lowest shaft that serves a single one (R34); none left: the die is to be
fenced. -/
def State.doubleShaft (s : State) (t k : Nat) : Option State :=
  match (List.range 18).find? fun p => decide (s.physState t p = 0) with
  | none => none
  | some h =>
    let own := (s.hosted t h).headD k
    let s := (s.setPhys t h 2).setReg (remapKey t k) (0xC000 + h)
    match (s.takeSwap t own).bind fun s => s.takeSwap t k with
    | none => none
    | some s => some (s.raiseAt 0x7105 1 (unitId (Die.ofIx t) 1 h) 0 0 (t * 32 + h) k)

/-- The store of a physical shaft's stope, and that of a doubled logical shaft's swap frames, as `wild` numbers them. -/
def stopeStore (t p : Nat) : Nat := 128 + 18 * t + p
def swapStore (t k : Nat) : Nat := 65536 + 16 * t + k

/-- A spare's stope begins undefined as it takes a logical number (R324). -/
def State.strayStope (s : State) (t p : Nat) : State :=
  { s with page := { s.page with wild := SMap.put s.page.wild (stopeStore t p) (s.tickNo * 1024 + stopeStore t p, []) } }

/-- What one store holds goes into another, undefined lines with it. -/
def State.moveStray (s : State) (src dst : Nat) : State :=
  { s with page := { s.page with wild := match SMap.get? s.page.wild src with
      | some w => SMap.put s.page.wild dst w
      | none => SMap.del s.page.wild dst } }

/-- Failed logical numbers are moved in ascending order: to the lowest spare left, or doubled (R34); the result says
whether a host could not be found. -/
def State.moveShafts (s : State) (t : Nat) : List Nat → State × Bool
  | [] => (s, false)
  | k :: rest =>
    let s := s.discardShaft t k
    match s.spares t with
    | p :: _ =>
      let s := ((s.setPhys t p 0).setReg (remapKey t k) (0x8000 + p)).strayStope t p
      { s with page := { s.page with swaps := SMap.del s.page.swaps (t * 16 + k) } }.moveShafts t rest
    | [] => match s.doubleShaft t k with
      | some s => s.moveShafts t rest
      | none => (s, true)

/-- The shafts of a die that failed are retired at a boundary (R33–R35); where only spares failed, no logical number
changes. -/
def State.retireShafts (s : State) (t : Nat) (ps : List Nat) : State :=
  let d := Die.ofIx t
  let failed := (List.range (s.shafts t)).filter fun k => memN (s.physOf t k) ps
  let spares := ps.all fun p => decide (s.physState t p = 1)
  let s := ps.foldl (fun s p => s.setPhys t p 0x13) s
  let s := { s with num := { s.num with fails := s.num.fails.filter fun f => !decide (f.1 = t) } }
  if s.fenced d then s
  else if spares then s.showSpares t
  else if !s.jobRuns then
    let s := s.buildTable t 16
    if s.shafts t = 0 then s.fenceDie d false else s
  else
    let (s, lost) := s.moveShafts t failed
    let s := s.showSpares t
    if lost then s.fenceDie d false else s

/-- Copy a stope to or from its swap frames: three frames of 2 MiB with their margins and nuggets (R325). -/
def State.swapStope (s : State) (t p : Nat) (fs : List (Nat × Nat)) (out : Bool) : State :=
  (fs.zip (List.range fs.length)).foldl (fun s x =>
    let st := stopePlace t p (x.2 * 0x200000)
    let fr := framePlace (0, x.1.1, x.1.2) 0
    let cp (s : State) (a b n : Nat) : State :=
      { s with mem := if out then Mem.copy s.mem a b n else Mem.copy s.mem b a n }
    cp (cp (cp s st.data fr.data 0x200000) st.margin fr.margin 0x40000) st.nugget fr.nugget 0x20000) s

/-- At each boundary a HOSTING_TWO shaft saves the stope of the logical shaft that is going to rest and loads that of the
one that is going to run (R325): `tickNo` is the tick that opens. -/
def State.swapStopes (s : State) : State :=
  (List.range 32).foldl (fun s t => (List.range 18).foldl (fun s p =>
    if s.hosting t p then
      match s.hosted t p with
      | [a, b] =>
        let (rest, run) := if s.tickNo % 2 = 0 then (b, a) else (a, b)
        let fs (k : Nat) := SMap.get [] s.page.swaps (t * 16 + k)
        let s := (s.swapStope t p (fs rest) true).moveStray (stopeStore t p) (swapStore t rest)
        (s.swapStope t p (fs run) false).moveStray (swapStore t run) (stopeStore t p)
      | _ => s
    else s) s) s

/-! ### Readmission (R36, R338) -/

/-- A die is readmitted: its union is formed again, and it takes work at once when no job runs or it has at least as many
good shafts as at job start, exposing the count of logical shafts it had then; else it waits for the next job start (R36). -/
def State.readmitDie (s : State) (d : Die) : State :=
  if !s.fenced d then s
  else
    let s := { s with num := { s.num with readmits := s.num.readmits.filter fun x => !decide (x = d) } }
    let back (s : State) : State :=
      { s with num := { s.num with fenced := s.num.fenced.filter fun x => !decide (x = d)
                                   nextJob := s.num.nextJob.filter fun x => !decide (x = d) } }
    let s := s.unionUnits d
    if s.dieUnfit d then s
    else match d with
      | .t t =>
        let s := s.unionShafts t.val
        let n := SMap.get 16 s.num.jobGoods t.val
        let g := (s.goods t.val).length
        if g = 0 then s
        else if !s.jobRuns then (back s).buildTable t.val 16
        else if n ≤ g then (back s).buildTable t.val (SMap.get 16 s.num.jobShafts t.val)
        else { s with num := { s.num with nextJob := if s.num.nextJob.any fun x => decide (x = d) then s.num.nextJob
                                                     else s.num.nextJob ++ [d] } }
      | _ => back s

/-! ### Numbering changes at a boundary (step 3 of R76) -/

/-- A failed stack leaves HBM_PRESENT, and what it held is lost (R16). -/
def State.retireStacks (s : State) : State :=
  s.num.unitFails.foldl (fun s u =>
    let d := dieOfUnit u
    if bits u.toNat 31 29 = 1 ∧ bits u.toNat 23 20 = 3 then
      let i := bits u.toNat 7 0
      if bit (s.reg (dkeyOf d 0x10 3)) i then (s.setBit (dkeyOf d 0x10 3) i false).unmapUnit 0 (2 * d.num + i) else s
    else s) s

/-- Step 3 of R76: retirements, fences and readmissions that are pending. -/
def State.numberingChanges (s : State) : State :=
  let ts := (s.num.fails.map Prod.fst).eraseDups
  let s := (List.range 32).foldl (fun s t =>
    if memN t ts then
      let ps := (s.num.fails.filter fun f => decide (f.1 = t)).map Prod.snd
      s.retireShafts t ps
    else s) s
  let s := s.retireStacks
  let fs := s.num.fences
  let s := { s with num := { s.num with fences := [] } }
  let s := fs.foldl (fun s f => s.fenceDie f.1 f.2) s
  let ls := s.num.storeLost
  let s := { s with num := { s.num with storeLost := [] } }
  let s := ls.foldl (fun s d => if s.jobRuns then s.loseJob (Die.ofIx (32 + d)) s.mustersOn else s) s
  let rs := s.num.readmits
  (rs.foldl (fun s d => s.readmitDie d) s).showShape

/-! ### Job start (R33, R90, R188, R207, R228) -/

/-- Every exposure slot starts from START_CODE with an empty record; rungs stay and steering counters are zero;
the phase tables are empty (R387). -/
def State.startTables (s : State) : State :=
  let s := (List.range 4096).foldl (fun s k =>
    let e := s.expo k
    s.setExpo k (setBits (setBits e 63 56 (exStart e)) 38 34 0)) s
  let s := (List.range 32).foldl (fun s t => s.clearDom (okey (0xA000 + 0x100 * t + 0x21) 1)) (s.clearDom 0x312002)
  (List.range 4096).foldl (fun s l =>
    let r := s.steer l
    s.setSteer l (setBits (setBits r 143 112 0) 103 88 0)) s

/-- A job starts at the boundary at which the write takes effect: JOB_STATE reads 1. The buffers that fenced dies kept readable are
gone (R452). -/
def State.startJob (s : State) : State :=
  let s := s.num.nextJob.foldl (fun s d => match d with
    | .t t => ({ s with num := { s.num with fenced := s.num.fenced.filter fun x => !decide (x = d) } }).unionShafts t.val
    | _ => s) s
  let s := { s with num := { s.num with nextJob := [], changed := true }, page := { s.page with swaps := [] } }
  let s := (List.range 32).foldl (fun s t => if s.fenced (Die.ofIx t) then s else s.buildTable t 16) s
  let s := s.startTables
  let s := s.setReg (okey 0x7002 1) 1
  let s := ((s.setReg (okey 0x3100 4) (s.ob 0x3100 2)).setReg (okey 0x3100 5) 0).setReg (okey 0x3100 6) 0
  let s := (List.range 32).foldl (fun s t => s.setReg (dkeyOf (Die.ofIx t) 0x20 5) 0x3f800000) s
  let s := { s with
    num := { s.num with jobShafts := (List.range 32).map fun t => (t, s.shafts t)
                        jobGoods := (List.range 32).map fun t => (t, if s.fenced (Die.ofIx t) then 0 else (s.goods t).length) }
    ctxs := [], mus := [], eng := s.eng.map fun (p : Nat × EngineSt) => (p.1, p.2.discard)
    que := s.que.map fun (p : Nat × QueueSt) => (p.1, { p.2 with starts := [] })
    fix := s.fix.map fun (p : Nat × FixSt) =>
      (p.1, { p.2 with admitted := [], applied := [], holds := [], sequence := 0, clean := [], cleanRows := [] })
    pwr := { s.pwr with shortTold := false }
    obs := { s.obs with traces := s.obs.traces.filter fun (p : Nat × TraceBuf) => !s.fenced (Die.ofIx p.1) }
    step := { State.reset.step with attemptTick := s.tickNo, firstTick := s.tickNo, history := [(s.curStep, s.tickNo)] } }
  s.showShape

/-! ### Fence requests (R338) -/

/-- A write of FENCE_REQUEST: bit 0 set fences the die at the next boundary, clear readmits it. -/
def State.fenceRequest (s : State) (d : Die) (fence : Bool) : State :=
  if fence then s.fenceNext d false
  else { s with num := { s.num with readmits := if s.num.readmits.any fun x => decide (x = d) then s.num.readmits
                                                else s.num.readmits ++ [d] } }

end Sys2Proof.Machine
end

