-- ==== Sys2Proof/Machine/Drift.lean ====
section
/-! DEFINITION. Drift links (chapter 12): frames and their acknowledgement (R344–R350), transfers and messages (R345–R347),
retraining (R351, R352), qualification and lane swaps (R353–R356), routes (R358). -/

namespace Sys2Proof.Machine

/-! ### Ports -/

/-- The Drift die of a port (R13). -/
def portDie (p : Nat) : Die := Die.ofIx (32 + p / 4)
/-- An object of a port's die with one subindex a port. -/
def portObj (p o : Nat) : Nat := okey (0xC000 + 0x80 * (p / 4) + o) (p % 4 + 1)
def State.setPortState (s : State) (p v : Nat) : State := s.setReg (portKey p) v
/-- LANE_ERROR_RATIO of a physical lane. -/
def laneKey (p lane : Nat) : Nat := okey (0xC000 + 0x80 * (p / 4) + 0x44) (9 * (p % 4) + lane + 1)
/-- The module ID that a port's peer reported. -/
def State.peerModule (s : State) (p : Nat) : Nat := bits (s.reg (portObj p 0x43)) 27 16

/-- Streams in flight to a module that satisfy a condition halt with cause LINK (R245). -/
def State.haltStreams (s : State) (f : Nat → Bool) : State :=
  (s.cmds.filter fun c => c.active && decide (c.phase ≠ .done)).foldl (fun s c =>
    c.bound.foldl (fun s b =>
      let t := ctxTensor (s.ctx b.1).desc
      if s.remote t ∧ f b.1 then
        match s.cmd? c.q c.slot with
        | some c => s.haltLink c b.1
        | none => s
      else s) s) s

/-- The modules that have a route (R358). -/
def State.routed (s : State) : List Nat :=
  (List.range 4096).filter fun m => decide (s.domNat 0x511001 (8 * m) 8 ≠ 0)

/-- The change bits of the Fixer dies whose partner is a module are set (R330, R358). -/
def State.setChangeBits (s : State) (m : Nat) : State :=
  { s with fix := s.fix.map fun (p : Nat × FixSt) =>
      if kModule (s.ckptEntry p.1) = m then (p.1, { p.2 with clean := [], cleanRows := [] }) else p }

/-- After a change of ports or of routes: a route that lost its last port halts its streams with LINK and raises
ROUTE_LOST; one that has a port again raises ROUTE_UP (R358). -/
def State.routesChanged (old s : State) : State :=
  (List.range 4096).foldl (fun s m =>
    let was := old.routeUsable m
    let is := s.routeUsable m
    let s := if was = is then s
      else s.setDomNat 0x511002 (m / 8) 1 (setBits (s.domByte 0x511002 (m / 8)).toNat (m % 8) (m % 8) (b2n is))
    if was ∧ !is then
      (s.haltStreams fun k => decide (cModule (s.ctx k).desc = m)).raise 0x5105 2 m 0
    else if !was ∧ is then (s.raise 0x5106 0 m 0).setChangeBits m
    else s) s

/-- The link state of a port is void: replay buffer, labels, credits and partial transfers (R351). -/
def State.voidLink (s : State) (p : Nat) : State :=
  let x := s.port p
  s.setPort p { x with unacked := 0, opens := [], labels := [], creditReq := 0, creditRsp := 0, replayRun := 0,
                       discarding := false, trained := false }

/-- A port that leaves service takes a state: its link is void, and the streams with a transfer through it halt (R351). -/
def State.portDown (s : State) (p st : Nat) : State :=
  let old := s
  let s := s.haltStreams fun k => (s.heldRemote k).any fun u => decide (u.2.port = some p)
  State.routesChanged old ((s.voidLink p).setPortState p st)

/-- A port comes into service with both sides' full credits (R350): LINK_GEN increments and FRAME_SEQ restarts (R351). -/
def State.portUpWith (s : State) (p st : Nat) : State :=
  let x := s.port p
  let s' := s.setPort p { x with linkGen := x.linkGen + 1, rxNext := 0, txNext := 0, ackSeq := 0xFFFF, unacked := 0,
                                 discarding := false, creditReq := 3072, creditRsp := 1024, opens := [], labels := [],
                                 replayRun := 0, trained := true }
  (State.routesChanged s (s'.setPortState p st)).raiseAt 0x5102 0 (unitOfDie (portDie p)) 0 0 p (s.peerModule p)

/-- A port begins to retrain (R351): LINK_DOWN with 0 for silence and 1 for replays. -/
def State.startRetrain (s : State) (p why : Nat) : State :=
  ((s.portDown p 4).bump (portObj p 0x47) 1).raiseAt 0x5101 2 (unitOfDie (portDie p)) 0 0 p why

/-- A port is held down (R351, R354, R356). -/
def State.holdDown (s : State) (p why : Nat) : State :=
  let s := if s.portUp p then s.portDown p 5 else (s.voidLink p).setPortState p 5
  s.raiseAt 0x5104 2 (unitOfDie (portDie p)) 0 0 p why

/-- State of a port that serves: up, or up without spare. -/
def State.servingState (s : State) (p : Nat) : Nat :=
  if (s.port p).spareBad ∨ ((List.range 8).any fun k => decide (bits (s.reg (portObj p 0x42)) (4 * k + 3) (4 * k) = 8)) then 3
  else 2

/-! ### Lane swaps (R355, R356) -/

/-- Logical lane k moves to the spare; a port that is already without spare is held down (log 207). `ask`: this side is the
receiver. -/
def State.swapLane (s : State) (p k : Nat) (ask : Bool) : State :=
  let map := s.reg (portObj p 0x42)
  let old := bits map (4 * k + 3) (4 * k)
  if s.portState p = 2 ∧ !(s.port p).spareBad then
    let s := if ask then s.send (.swapReq p k) else s
    let s := (s.setReg (portObj p 0x42) (setBits map (4 * k + 3) (4 * k) 8)).setPortState p 3
    s.raiseAt 0x5103 1 (unitOfDie (portDie p)) 0 0 p (k * 16 + old)
  else if s.portUp p then s.holdDown p 2
  else s

/-- The peer asks for a swap: a port that has swapped already does not swap again (R356). -/
def State.swapAsked (s : State) (p k : Nat) : State := if s.portState p = 2 then s.swapLane p k false else s

def execSwapReq (port : Fin 64) (lane : Fin 8) (s : State) : Answer := done s (s.swapAsked port.val lane.val)

/-- A lane margin window of the canary (R355): the ratio and the port's uncorrectable codewords are shown; a serving lane
that is beyond a limit is swapped, and a spare is marked failed. -/
def State.marginWindow (s : State) (p lane : Nat) (ratio : BitVec 32) (uncorr : Nat) (noLock : Bool) : State :=
  let s := (s.setReg (laneKey p lane) ratio.toNat).bump (portObj p 0x45) uncorr
  let bad := noLock || decide (16 < uncorr) || Fx.lt (f32.decode (s.ob 0x5120 4)) (dec32 ratio)
  let map := s.reg (portObj p 0x42)
  if !bad ∨ !s.portUp p then s
  else match (List.range 8).find? fun k => decide (bits map (4 * k + 3) (4 * k) = lane) with
    | some k => s.swapLane p k true
    | none =>
      if lane = 8 then (s.setPort p { s.port p with spareBad := true }).setPortState p 3 else s

/-! ### Qualification (R353, R354) -/

/-- REQUALIFY: the port leaves service and qualifies for 10 s. -/
def State.requalify (s : State) (p : Nat) : State :=
  if s.fenced (portDie p) then s
  else if s.portUp p then (s.portDown p 1).raiseAt 0x5101 2 (unitOfDie (portDie p)) 0 0 p 0
  else (s.voidLink p).setPortState p 1

/-- The end of a qualification window: the port's state follows from its failing lanes. -/
def State.qualified (s : State) (p : Nat) (failing : List Nat) (ratios : List (BitVec 32)) (peerId peerPort : Nat) : State :=
  if s.portState p ≠ 1 ∨ s.fenced (portDie p) then s
  else
    let s := (ratios.zip (List.range 9)).foldl (fun s x => s.setReg (laneKey p x.2) x.1.toNat) s
    let s := s.setReg (portObj p 0x43) (peerId * 65536 + peerPort)
    let s := { s with boot := { s.boot with training := s.boot.training.filter fun x => decide (x ≠ p) } }
    let map := s.setReg (portObj p 0x42) 0x76543210
    let fl := failing.eraseDups
    if peerId = s.moduleId then s.holdDown p 0
    else match fl with
      | [] => (map.setPort p { map.port p with spareBad := false }).portUpWith p 2
      | [8] => (map.setPort p { map.port p with spareBad := true }).portUpWith p 3
      | [k] =>
        ((map.setPort p { map.port p with spareBad := false }).setReg (portObj p 0x42)
          (setBits 0x76543210 (4 * k + 3) (4 * k) 8)).portUpWith p 3
      | _ => s.holdDown p 0

/-- PEER_APPEARS: a port without a peer starts to train and qualifies (R414). -/
def execPeerAppears (port : Fin 64) (s : State) : Answer :=
  done s (if s.isReady ∧ s.portState port.val = 0 ∧ !s.fenced (portDie port.val) then
    (s.setPort port.val { s.port port.val with cable := true }).setPortState port.val 1 else s)

/-- RETRAIN: the port voids its link and makes up to three attempts (R351). -/
def State.retrainPort (s : State) (p : Nat) (replays : Bool) (attempts : Nat) (ok : Bool) : State :=
  if !s.portUp p ∧ s.portState p ≠ 4 then s
  else
    let s := if s.portUp p then s.startRetrain p (b2n replays) else s
    if ok ∧ attempts ≤ 3 then s.portUpWith p (s.servingState p) else s.holdDown p 1

def execRetrain (port : Fin 64) (replays : Bool) (attempts : Nat) (ok : Bool) (s : State) : Answer :=
  done s (s.retrainPort port.val replays attempts ok)

/-- LINK_SILENCE (R351). -/
def execLinkSilence (port : Fin 64) (s : State) : Answer :=
  done s (if s.portUp port.val then s.startRetrain port.val 0 else s)

/-! ### Frames (R348, R349) -/

/-- NAK with ACK_SEQ of the last frame accepted, once for a run of discarded frames. -/
def State.sendNak (s : State) (p : Nat) : State :=
  let x := s.port p
  if x.discarding then s else (s.setPort p { x with discarding := true }).send (.nak p (x.rxNext - 1))

/-- The sender replays its unacknowledged frames from ACK_SEQ + 1; the eighth replay in a row without progress makes the
port retrain (R349, R351). -/
def State.replayFrames (s : State) (p : Nat) : State :=
  let x := s.port p
  if x.unacked = 0 then s
  else
    let s := (s.setPort p { x with replayRun := x.replayRun + 1 }).send (.replay p (x.ackSeq + 1))
    let s := s.bump (portObj p 0x46) x.unacked
    if 8 ≤ x.replayRun + 1 then s.startRetrain p 1 else s

/-- Acknowledgements and credits of an accepted header (R348, R350): labels free with their frames (R346). -/
def State.takeAck (s : State) (p : Nat) (f : Frame) : State :=
  let x := s.port p
  let n := (f.ackSeq - x.ackSeq).toNat
  let x := { x with creditReq := x.creditReq + f.creditReq.toNat, creditRsp := x.creditRsp + f.creditRsp.toNat }
  if n = 0 ∨ x.unacked < n then s.setPort p x
  else s.setPort p { x with
    ackSeq := f.ackSeq, unacked := x.unacked - n, replayRun := 0
    labels := x.labels.filter fun l => decide (n ≤ (BitVec.ofNat 16 (l / 2048) - x.ackSeq - 1).toNat) }

/-! ### Messages (R345, R347) -/

/-- An answer to a message's sender. -/
def State.answer (s : State) (type kind : Nat) (m : DriftMsg) (plates : List Bytes) : State :=
  s.sendDrift type (mkMsg m.src.toNat s.moduleId (if plates.isEmpty then 0 else plates.length - 1) kind 0 m.requestId.toNat 0 0)
    plates none

/-- A message for another module goes on over this module's route, or is refused (R346, R358). -/
def State.forward (s : State) (type : Nat) (m : DriftMsg) (plates : List Bytes) (rider : Option Rider) : State :=
  if s.routeUsable m.dest.toNat then s.sendDrift type m plates rider
  else if type = 1 ∨ (type = 2 ∧ m.kind = 0) then s.answer 4 2 m []
  else s

/-- A page that is not present is brought in for a remote request (R347): the frame is chosen as for a die beside the
port. -/
def State.bringIn (s : State) (p a : Nat) : Option State :=
  let e := s.entryAt a
  if s.draining a ∨ s.page.ins.any (fun i => decide (i.page = s.pageStart a)) then none
  else (s.chooseFrame (2 * (p / 4)) e).map fun f =>
    pageInDone a false { s with page := { s.page with ins := s.page.ins ++ [⟨s.pageStart a, f.1, f.2.1, f.2.2, 2 * (p / 4)⟩] } }

/-- Make every line of a remote request present: the state, or the KIND of the REFUSE. -/
def State.holdLines (s : State) (p : Nat) (write : Bool) : List Nat → Except Nat State
  | [] => .ok s
  | a :: rest =>
    match s.access a write with
    | .served => s.holdLines p write rest
    | .noBacking => .error 0
    | .absent => match s.bringIn p a with
      | some s => if s.access a write = .served then s.holdLines p write rest else .error 0
      | none => .error 0

/-- The lines of a message (R346). -/
def msgLines (m : DriftMsg) : List Nat := (List.range (m.countM1.toNat + 1)).map fun i => m.address.toNat + 128 * i

/-- READ_REQ: the holder answers with its plates, or refuses (R347). -/
def State.readRequest (s : State) (p : Nat) (m : DriftMsg) : State :=
  if m.dest.toNat ≠ s.moduleId then s.forward 1 m [] none
  else match s.holdLines p false (msgLines m) with
    | .error k => s.answer 4 k m []
    | .ok s =>
      match (msgLines m).find? s.lineBad with
      | some a => (s.memUe a).answer 4 1 m []
      | none => (s.sawAddrs (msgLines m)).answer 2 1 m ((msgLines m).map fun a => match s.physLine a with
          | some pl => (s.plateAt pl).bytes
          | none => [])

/-- One written plate: added by the reduction engine that owns the line, else stored (R347, R362). -/
def State.remoteWrite (s : State) (a : Nat) (pl : Plate) : Except Nat State :=
  match s.reduceAt a with
  | some (d, k) =>
    if s.fenced (Die.ofIx (32 + d)) ∨ !(s.failedUnits (Die.ofIx (32 + d)) 5).isEmpty then .error 3
    else .ok (s.reduceAdd d k a pl)
  | none => match s.physLine a with
    | none => .error 0
    | some q => .ok ((s.putPlate q pl).markDirty a)

/-- A complete write transfer: every plate is written or added, then acknowledged; a stale one is dropped without an
ACK (R347, R352). -/
def State.writeTransfer (s : State) (p : Nat) (m : DriftMsg) (plates : List Bytes) : State :=
  let ps := (msgLines m).zip (plates.map fun b => Plate.ofBytes b 0)
  let old := (ps.filter fun x => s.stale x.2).length
  if 0 < old then s.bump (okey 0x5120 5) old
  else match s.holdLines p true ((msgLines m).filter fun a => (s.reduceAt a).isNone) with
    | .error k => s.answer 4 k m []
    | .ok s =>
      let hit := s.epochHit ps
      match ps.foldlM (fun (s : State) x => s.remoteWrite x.1 x.2) s with
      | .error k => s.answer 4 k m []
      | .ok s => (s.tellEpoch false hit).answer 3 0 m []

/-- A read reply goes to the tag that asked (R239, R251). -/
def State.replyTransfer (s : State) (m : DriftMsg) (plates : List Bytes) : State :=
  match s.tagOf m.requestId.toNat, plates with
  | some (e, n, u), b :: _ => if u.write then s else s.remoteReply e n u b
  | _, _ => s

/-- A rider transfer of the step muster (R193, R347): a part at the root, the combined rider elsewhere. -/
def State.riderTransfer (s : State) (m : DriftMsg) (r : Rider) : State :=
  let mu := m.muster.toNat
  let s := if mRoot (s.mEntry mu) = s.moduleId then
      { s with step := { s.step with others :=
        (m.src.toNat, r) :: s.step.others.filter fun (x : Nat × Rider) => decide (x.1 ≠ m.src.toNat) } }
    else { s with step := { s.step with combined := some r } }
  s.answer 3 0 m []

/-- The check that a plate of a transfer fails on arrival at its destination (R159), with the context it is for and its address: a
written plate is held against its reduction line or its own format, a reply against the tensor that asked; a plate passing
through keeps its CRC (R160). -/
def State.arrivalFault (s : State) (m : DriftMsg) (i : Nat) (b : Bytes) : Option (Nat × Nat × Nat) :=
  let p := Plate.ofBytes b 0
  let tell (ctx addr check : Nat) : Option (Nat × Nat × Nat) := if check = 0 then none else some (ctx, addr, check)
  if m.dest.toNat ≠ s.moduleId then none
  else if m.kind = 0 then
    let a := m.address.toNat + 128 * i
    tell 0 a (plateCheck (match s.reduceAt a with
      | some (d, k) => rFmt (s.redEntry d k)
      | none => p.fmt) none 0 p)
  else if m.kind = 1 then
    match s.tagOf m.requestId.toNat with
    | some (_, _, u) =>
      let t := ctxTensor (s.ctx u.ctx).desc
      match lineOffset t u.addr with
      | some off => if u.write ∨ !u.want then none else tell u.ctx u.addr (plateCheck t.fmt none (lineInBlock t off) p)
      | none => none
    | none => none
  else none

/-- What has failed on arrival at a port is counted and told, and the link replays it: NAK asks for it again (R159, R349). -/
def State.arrivalFaults (s : State) (p : Nat) (l : List (Nat × Nat × Nat)) : State :=
  (l.foldl (fun s x => s.badArrival (unitOfDie (portDie p)) x.1 x.2.1 x.2.2) s).sendNak p

/-- A whole transfer of this module, or one to be forwarded (R346). -/
def State.transfer (s : State) (p : Nat) (m : DriftMsg) (plates : List Bytes) (rider : Option Rider) : State :=
  if m.dest.toNat ≠ s.moduleId then s.forward 2 m plates rider
  else match m.kind.toNat, rider with
    | 0, _ => s.writeTransfer p m plates
    | 1, _ => s.replyTransfer m plates
    | 2, some r => s.riderTransfer m r
    | _, _ => s

/-- A DATA message opens a transfer (R346). -/
def State.openTransfer (s : State) (p : Nat) (m : DriftMsg) : State :=
  let x := s.port p
  let l := m.label.toNat
  if l = 0 ∨ 2047 ≤ l then s
  else s.setPort p { x with opens := (l, m, []) :: x.opens.filter fun (o : Nat × DriftMsg × List (Nat × Bytes)) => decide (o.1 ≠ l) }

/-- A plate of a transfer; one whose label is not open is discarded and counted, and the last one completes the transfer
(R346). -/
def State.takePlate (s : State) (p l i : Nat) (b : Bytes) : State :=
  let x := s.port p
  match x.opens.find? fun o => decide (o.1 = l) with
  | none => s.bump (okey 0x5120 6) 1
  | some (_, m, got) =>
    let got := SMap.put got i b
    let rest := x.opens.filter fun (o : Nat × DriftMsg × List (Nat × Bytes)) => decide (o.1 ≠ l)
    if (List.range (m.countM1.toNat + 1)).all fun j => (SMap.get? got j).isSome then
      (s.setPort p { x with opens := rest }).transfer p m (got.map Prod.snd) none
    else s.setPort p { x with opens := (l, m, got) :: rest }

/-- DATA as one command: its message, its plates and its rider (R346). -/
def State.dataMessage (s : State) (p : Nat) (m : DriftMsg) (plates : List (Nat × Bytes)) (rider : Option Rider) : State :=
  if !s.portUp p then s
  else if m.kind = 2 then s.transfer p m [] rider
  else match plates.filterMap fun b => s.arrivalFault m b.1 b.2 with
  | x :: l => s.arrivalFaults p (x :: l)
  | [] => plates.foldl (fun s b => s.takePlate p m.label.toNat b.1 b.2) (s.openTransfer p m)

/-- A plate written over a link is acknowledged (R240, R241). -/
def State.remoteAcked (s : State) (e n : Nat) (u : TagUse) : State :=
  let s := s.freeRtag e n
  if u.want then s.plateAcked u.ctx else s.retire u.ctx

/-- ACK (R347): a plate of a stream is acknowledged; a rider's ACK lets the part or the release follow. -/
def State.ackMessage (s : State) (m : DriftMsg) : State :=
  let r := m.requestId.toNat
  if m.dest.toNat ≠ s.moduleId then s.forward 3 m [] none
  else match s.tagOf r with
    | some (e, n, u) => if u.write then s.remoteAcked e n u else s
    | none =>
      if bits r 31 29 ≠ 2 then s
      else
        let mu := bits r 11 0
        let e := s.mEntry mu
        let x := s.mst mu
        if mRoot e = s.moduleId then
          let round := if x.complete.isSome then x.round else (x.round + 65535) % 65536
          s.sendDrift 6 (mkMsg m.src.toNat s.moduleId 0 0 0 r mu round) [] none
        else if x.partDone then s.sendDrift 5 (mkMsg (mRoot e) s.moduleId 0 0 0 r mu x.round) [] none
        else s

/-- The stream of a refused request halts; a refused write leaves its unit to be done again (R247, R347). -/
def State.refused (s : State) (c : Cmd) (u : TagUse) (kind : Nat) : State :=
  let s := match kind with
    | 0 => (s.haltCmd c u.ctx .translation (some (u.ctx, u.addr))).raiseCmd c 0x4101 1 u.ctx (addrHi u.addr)
    | 1 => s.haltMemory c u.ctx u.addr
    | _ => s.haltLink c u.ctx
  if u.write then s.lateFault c u.ctx u.addr else s

/-- REFUSE (R347): the requesting stream halts, with TRANSLATION, MEMORY or LINK by KIND; a refused SAVE stops (R332). -/
def State.refuseMessage (s : State) (m : DriftMsg) : State :=
  let r := m.requestId.toNat
  if m.dest.toNat ≠ s.moduleId then s.forward 4 m [] none
  else match s.tagOf r with
    | some (e, n, u) =>
      let s := s.freeRtag e n
      let s := if u.want ∧ u.write then s.plateAcked u.ctx else s
      match s.userOf u.ctx with
      | none => s.retire u.ctx
      | some c => if !u.want ∨ c.phase = .done then s else s.refused c u m.kind.toNat
    | none => if bits r 31 29 = 3 then s.ckptStop (bits r 28 24 % 16) else s

/-- MUSTER_PART at the root (R91, R347). -/
def State.partMessage (s : State) (m : DriftMsg) (now : Nat) : State :=
  let mu := m.muster.toNat
  let e := s.mEntry mu
  if m.dest.toNat ≠ s.moduleId then s.forward 5 m [] none
  else if mEnabled e ∧ mRoot e = s.moduleId ∧ (s.mst mu).round = m.round.toNat ∧ (s.mst mu).complete.isNone ∧ s.jobRuns then
    ({ s with tick := { s.tick with now := now } }).rootPart mu m.src.toNat now
  else s

/-- MUSTER_RELEASE from the root (R91, R93): an immediate round is released at once, a tick-aligned one at the boundary
15 µs after it was complete. -/
def State.releaseMessage (s : State) (m : DriftMsg) : State :=
  let mu := m.muster.toNat
  let e := s.mEntry mu
  let x := s.mst mu
  if m.dest.toNat ≠ s.moduleId then s.forward 6 m [] none
  else if mEnabled e ∧ mRoot e ≠ s.moduleId ∧ x.round = m.round.toNat ∧ x.partDone ∧ s.jobRuns then
    if mImmediate e then (s.releaseRound mu).settle mu s.tick.now
    else s.setMst mu { x with complete := some s.tick.now, released := true }
  else s

/-- A message by its TYPE. -/
def State.message (s : State) (p type : Nat) (m : DriftMsg) : State :=
  match type with
  | 1 => s.readRequest p m
  | 2 => s.openTransfer p m
  | 3 => s.ackMessage m
  | 4 => s.refuseMessage m
  | 5 => s.partMessage m s.tick.now
  | 6 => s.releaseMessage m
  | _ => s

def execReadReq (port : Fin 64) (msg : DriftMsg) (s : State) : Answer :=
  doneMem s (if s.portUp port.val then s.readRequest port.val msg else s)
def execData (port : Fin 64) (msg : DriftMsg) (plates : List (Fin 8 × Bytes)) (rider : Option Rider) (s : State) : Answer :=
  doneMem s (s.dataMessage port.val msg (plates.map fun x => (x.1.val, x.2)) rider)
def execAck (msg : DriftMsg) (s : State) : Answer := done s (s.ackMessage msg)
def execRefuse (msg : DriftMsg) (s : State) : Answer := done s (s.refuseMessage msg)
def execMusterPart (msg : DriftMsg) (now : Nat) (s : State) : Answer := done s (s.partMessage msg now)
def execMusterRelease (msg : DriftMsg) (s : State) : Answer := done s (s.releaseMessage msg)

/-- The 256 bits of a message in a message slot (R345). -/
def msgOf (v : Nat) : Nat × DriftMsg :=
  (bits v 255 252,
   { dest := BitVec.ofNat 12 (bits v 251 240), src := BitVec.ofNat 12 (bits v 239 228), label := BitVec.ofNat 11 (bits v 227 217)
     countM1 := BitVec.ofNat 3 (bits v 216 214), kind := BitVec.ofNat 2 (bits v 213 212)
     address := BitVec.ofNat 52 (bits v 211 160), requestId := BitVec.ofNat 32 (bits v 159 128)
     muster := BitVec.ofNat 12 (bits v 127 116), round := BitVec.ofNat 16 (bits v 115 100) })

/-- The 256 bits that carry a message, its reserved bits clear (R345). -/
def msgBits (type : BitVec 4) (m : DriftMsg) : Nat :=
  type.toNat * 2 ^ 252 + m.dest.toNat * 2 ^ 240 + m.src.toNat * 2 ^ 228 + m.label.toNat * 2 ^ 217 + m.countM1.toNat * 2 ^ 214 +
    m.kind.toNat * 2 ^ 212 + m.address.toNat * 2 ^ 160 + m.requestId.toNat * 2 ^ 128 + m.muster.toNat * 2 ^ 116 +
    m.round.toNat * 2 ^ 100

/-- A message slot whose CRC does not hold (R345). -/
def badSlot (x : FrameSlot) : Bool :=
  decide (x.label.toNat = 2047 ∧ x.index = 0 ∧ leNat ((x.bytes.drop 140).take 4) ≠ crc32c (x.bytes.take 140))

/-- A slot of an accepted frame (R344–R346): a message slot gives its four messages, any other slot is a plate of an open
transfer. -/
def State.takeSlot (s : State) (p : Nat) (x : FrameSlot) : State :=
  let l := x.label.toNat
  if l = 0 then s
  else if l ≠ 2047 then s.takePlate p l x.index.toNat x.bytes
  else if x.index ≠ 0 ∨ badSlot x then s
  else (List.range 4).foldl (fun s j =>
    let (type, m) := msgOf (leNat ((x.bytes.drop (32 * j)).take 32))
    s.message p type m) s

/-- The transfers open on a port once the message slots of a frame are taken. -/
def State.opensWith (s : State) (p : Nat) (f : Frame) : List (Nat × DriftMsg) :=
  (f.slots.flatMap fun x => if x.label.toNat ≠ 2047 then [] else (List.range 4).filterMap fun j =>
    let (type, m) := msgOf (leNat ((x.bytes.drop (32 * j)).take 32))
    if type = 2 then some (m.label.toNat, m) else none) ++ (s.port p).opens.map fun o => (o.1, o.2.1)

/-- The message slots of a frame that fail their CRC, and the plates that fail their check at this module (R159, R345). -/
def State.frameFaults (s : State) (p : Nat) (f : Frame) : List (Nat × Nat × Nat) :=
  f.slots.filterMap fun x => if badSlot x then some (0, 0, 1) else ((s.opensWith p f).find? fun o => decide (o.1 = x.label.toNat)).bind fun o =>
    s.arrivalFault o.2 x.index.toNat x.bytes

/-- FRAME_RECEIVE (R348, R352); a frame with a slot that fails its check is replayed whole (R159, R345). -/
def State.receive (s : State) (p : Nat) (f : Frame) : State :=
  let x := s.port p
  if !s.portUp p then s
  else if !f.decoded ∨ !f.checkOk then s.sendNak p
  else if f.linkGen ≠ x.linkGen then s
  else if !f.idle ∧ f.seq ≠ x.rxNext then s.sendNak p
  else if !f.idle ∧ !(s.frameFaults p f).isEmpty then s.arrivalFaults p (s.frameFaults p f)
  else
    let s := if f.idle then s else s.setPort p { x with rxNext := x.rxNext + 1, discarding := false }
    let s := s.takeAck p f
    let s := if f.swapReq then s.swapAsked p f.swapLane.val else s
    let s := if f.idle then s else f.slots.foldl (fun s y => s.takeSlot p y) s
    if f.nak then s.replayFrames p else s

/-- FRAME_RECEIVE: the lanes are decoded and joined (R340–R344), and the frame is taken. -/
def execFrameReceive (port : Fin 64) (frame : FrameRx) (s : State) : Answer := doneMem s (s.receive port.val (frameOfRx frame))

/-- REPLAY_TIMEOUT (R349). -/
def execReplayTimeout (port : Fin 64) (s : State) : Answer :=
  done s (if s.portUp port.val then s.replayFrames port.val else s)

/-- PLATE_GAP_TIMEOUT: a partial frame is discarded whole, and NAK is sent (R351). -/
def execPlateGapTimeout (port : Fin 64) (s : State) : Answer :=
  done s (if s.portUp port.val then s.sendNak port.val else s)

/-- A fenced Drift die takes its ports down (R360). -/
def State.portsOfFenced (s : State) (d : Die) : State :=
  match d with
  | .d n => (List.range 4).foldl (fun s j => s.portDown (4 * n.val + j) 6) s
  | _ => s

/-- Ports of a Drift die that works again start to qualify. -/
def State.portsOfReadmitted (s : State) (d : Die) : State :=
  match d with
  | .d n => (List.range 4).foldl (fun s j => if s.portState (4 * n.val + j) = 6 then s.setPortState (4 * n.val + j) 1 else s) s
  | _ => s

end Sys2Proof.Machine
end

