-- ==== Sys2Proof/Machine/Canary.lean ====
section
/-! DEFINITION. The canary (R317–R323), the scrub (R273, R274) and the background test (R281, R282). -/

namespace Sys2Proof.Machine

/-- Key of a physical shaft in the canary's tables. -/
def canKey (t p : Nat) : Nat := 18 * t + p

/-- A passing pass of a good shaft ends in this tick (R318, R322). -/
def State.passEnded (s : State) (t p : Nat) : State :=
  if 16 ≤ s.physState t p then s
  else
    let k := canKey t p
    let s := (s.setDomNat 0x710006 (8 * k) 8 s.tickNo).bump (okey 0x7100 2) 1
    { s with can := ⟨SMap.del s.can.lowClock k, s.can.lateTold.filter fun x => decide (x ≠ k)⟩ }

/-- A group that runs no test vector (R339). -/
def noVector (group : Nat) : Bool := memN group [0x0B, 0x11, 0x12, 0x31, 0x3F]

/-- A unit failed a test vector: CANARY_FAIL, and the unit is reported failed at once (R319–R322). -/
def State.vectorFailed (s : State) (d : Die) (cls idx group vectorId : Nat) : State :=
  let s := (s.bump (okey 0x7100 3) 1).raiseAt 0x7101 2 (unitId d cls idx) 0 0 group (if noVector group then 0 else vectorId)
  if d.kind = 1 ∧ cls = 1 then s.failShaft d.num idx 2 group else s.failUnit d cls idx 2 group

/-- Lines scrubbed in a tier unit (R270, R273, R274): corrections and errors are counted, SCRUB_UE is raised, nothing
halts. -/
def State.scrubbed (s : State) (tier unit corrected : Nat) (ue : List (Nat × Nat)) (fullPass : Bool) : State :=
  let s := s.bump (if tier = 1 then okey 0x4430 3 else okey 0x4430 1) corrected
  let s := ue.foldl (fun (s : State) (x : Nat × Nat) =>
    let f := (tier, unit, x.1)
    (s.foundUe f (frameData tier unit x.1 + 128 * x.2)).raise 0x4402 1 (ueArg f).1 (ueArg f).2) s
  if fullPass then s.bump (okey 0x4430 6) 1 else s

/-- A background-test region of a Trify die (R281, R282), which a stope's uncorrectable error may have asked for (R277): a failing stope region fails its shaft, a failing bin region its
die. -/
def State.bgTested (s : State) (t : Nat) (shaft : Option Nat) (region : Nat) (failed : Bool) : State :=
  let s := (s.bump (okey 0x4440 2) 1).wake t (shaft.getD 18)
  let s := match shaft with
    | some p => { s with page := { s.page with retest := s.page.retest.filter fun x => !decide (x = (t, p, region)) } }
    | none => s
  if !failed then s
  else
    let d := Die.ofIx t
    let s := s.bump (okey 0x7100 3) 1
    match shaft with
    | some p => ((s.raiseAt 0x7101 2 (unitId d 1 p) 0 0 0x0B 0).raiseAt 0x4406 2 (unitId d 1 p) 0 0 0 region).failShaft t p 2 0x0B
    | none => ((s.raiseAt 0x7101 2 (unitOfDie d) 0 0 0x11 0).raiseAt 0x4406 2 (unitOfDie d) 0 0 1 region).failUnit d 0 0 2 0x11

/-- The physical shaft that a piece of canary work runs on. -/
def shaftOf : CanaryWork → Option Nat
  | .segment p _ => p.map Fin.val
  | .vectorFail cls idx _ _ => if cls = 1 then some idx else none
  | .bgTest p _ _ => p.map Fin.val
  | _ => none

/-- The canary has no slot: before Ready (R410, R416), and on a shaft that is halted (R456). -/
def State.noSlot (s : State) (die : Die) (work : CanaryWork) : Bool :=
  !s.isReady || decide (die.kind = 1) && match shaftOf work with
    | none => false
    | some p => (List.range 4).all fun j => s.obs.halted.any fun h => decide (h = (die.num, 4 * p + j))

/-- CANARY_SEGMENT (R318): a die that is not in service, or has no slot, runs no canary; a grant wakes the shaft's stope, a background test its region's
(R280). -/
def execCanarySegment (die : Die) (work : CanaryWork) (s : State) : Answer :=
  done s (if !s.live die ∨ s.noSlot die work then s else match work with
    | .segment none _ => s
    | .segment (some p) passed =>
      if die.kind ≠ 1 then s else (if passed then s.passEnded die.num p.val else s).wake die.num p.val
    | .vectorFail cls idx group v =>
      (if die.kind = 1 ∧ cls = 1 then s.wake die.num idx else s).vectorFailed die cls idx group v.toNat
    | .scrub lpddr unit corrected ue full => s.scrubbed (b2n lpddr) unit corrected ue full
    | .bgTest shaft region failed =>
      if die.kind = 1 then s.bgTested die.num (shaft.map Fin.val) region failed else s
    | .margin port lane ratio uncorr noLock =>
      if die.kind = 2 then s.marginWindow (4 * die.num + port.val) lane.val ratio uncorr noLock else s)

/-- The bound of a canary pass in ns (R318): 2 s, longer by the ratio of 2.4 GHz to the lowest clock granted below it. -/
def canaryBound (lowMHz : Nat) : Nat := if 2400 ≤ lowMHz ∨ lowMHz = 0 then 2000000000 else 2000000000 * 2400 / lowMHz

/-- The lowest array clock granted since a shaft's last pass. -/
def State.lowest (s : State) (t p : Nat) : Nat :=
  let now := s.clockMHz (Die.ofIx t)
  match SMap.get? s.can.lowClock (canKey t p) with
  | some l => min l now
  | none => now

/-- CANARY_LATE (R318): once per pass, for a shaft whose bound has gone by. -/
def execCanaryLate (die : Fin 32) (phys : Fin 18) (s : State) : Answer :=
  let k := canKey die.val phys.val
  let since := s.tickNo - s.tPass die.val phys.val
  done s (if !s.live (.t die) ∨ 16 ≤ s.physState die.val phys.val ∨ memN k s.can.lateTold ∨
      since * s.periodNs + s.tick.now ≤ canaryBound (s.lowest die.val phys.val) then s
    else
      let s := { s with can := { s.can with lateTold := k :: s.can.lateTold } }
      (s.bump (okey 0x7100 4) 1).raiseAt 0x7102 1 (unitId (.t die) 1 phys.val) 0 0 (die.val * 32 + phys.val) since)

end Sys2Proof.Machine
end

