-- ==== Sys2Proof/Machine/HostPort.lean ====
section
/-! DEFINITION. The host port (R366–R370): the BAR2 aperture (R268), its power states and resets, and the Iltur segment's
ICMPv6 answers (R49). The BAR0 mailbox is served with the dictionary. -/

namespace Sys2Proof.Machine

/-- S of R268. -/
def State.barSize (s : State) : Nat := 2 ^ 30 * 2 ^ s.host.bar2

/-- APERTURE_BASE; after a resize its bits below S/2 read as zero until it is written again (R367). -/
def State.apertureBase (s : State) : Nat :=
  let v := s.ob 0x4420 1
  if s.host.resized then v / (s.barSize / 2) * (s.barSize / 2) else v

/-- What a BAR2 offset maps to (R268). -/
inductive ApTarget where
  | data (addr : Nat)
  /-- the line's data address, and the byte within its margin entry -/
  | margin (line : Nat) (byte : Nat)
  | nugget (line : Nat) (byte : Nat)
  | none
deriving DecidableEq, Repr

/-- The BAR2 layout (R268). -/
def State.apTarget (s : State) (o : Nat) : ApTarget :=
  let h := s.barSize / 2
  let a := s.apertureBase
  if o < h then .data (a + o)
  else if o < h + s.barSize / 16 then
    let m := a / 8 + (o - h)
    .margin (m / 16 * 128) (m % 16)
  else if o < h + s.barSize * 3 / 32 then
    let n := a / 16 + (o - h - s.barSize / 16)
    .nugget (n / 8 * 128) (n % 8)
  else .none

/-- The data address of the line a target lies in. -/
def ApTarget.line : ApTarget → Option Nat
  | .data a => some a
  | .margin l _ => some l
  | .nugget l _ => some l
  | .none => Option.none

/-- The key of a target's first byte in memory; none when its page is not present. -/
def State.apKey (s : State) (t : ApTarget) : Option Nat :=
  match t with
  | .data a => (s.physLine a).map fun p => p.data + a % 128
  | .margin l b => (s.physLine l).map fun p => p.margin + b
  | .nugget l b => (s.physLine l).map fun p => p.nugget + b
  | .none => Option.none

/-- APERTURE_FAULT, once per page and tick (R268). -/
def State.apFault (s : State) (o : Nat) (t : ApTarget) (write : Bool) : State :=
  let k := match t.line with
    | some a => s.pageStart a
    | none => 2 ^ 52 + o / 2 ^ 21
  if memN k s.page.apFaults then s
  else ({ s with page := { s.page with apFaults := k :: s.page.apFaults } }).raise 0x4405 1 (bits o 41 21) (b2n write)

/-- The data lines that a request of `n` bytes covers, or whose margin entries or nugget slots it covers: an error of a line is one of
all three. DESIGN CHOICE (log 198). -/
def apLines (t : ApTarget) (n : Nat) : List Nat :=
  match t with
  | .data a => (List.range ((a % 128 + n + 127) / 128)).map fun i => a / 128 * 128 + 128 * i
  | .margin l b => (List.range ((b + n + 15) / 16)).map fun i => l + 128 * i
  | .nugget l b => (List.range ((b + n + 7) / 8)).map fun i => l + 128 * i
  | .none => []

/-- HOST_APERTURE_READ (R268, R271). -/
def State.apertureRead (s : State) (o n : Nat) : State :=
  if !s.hostUp then s
  else if s.host.d3hot then s.send (.aperture none true)
  else
    let t := s.apTarget o
    match s.apKey t with
    | none => (s.apFault o t false).send (.aperture none false)
    | some k => match (apLines t n).find? s.lineBad with
      | some a => ((s.memUe a).apFault o t false).send (.aperture none false)
      | none => (s.sawAddrs (apLines t n)).send (.aperture (some (s.load k n)) false)

def execHostApertureRead (offset len : Nat) (s : State) : Answer := done s (s.apertureRead offset len)

/-- HOST_APERTURE_WRITE (R268): dropped where the page is not present or not writable; a line written whole no longer
holds a stored error (R271). -/
def State.apertureWrite (s : State) (o : Nat) (bs : Bytes) : State :=
  if !s.hostUp ∨ s.host.d3hot then s
  else
    let t := s.apTarget o
    match s.apKey t, t.line with
    | some k, some a =>
      if s.access a true ≠ .served then s.apFault o t true
      else
        let whole := (apLines t bs.length).filter fun l =>
          match t with
          | .data a => decide (a ≤ l ∧ l + 128 ≤ a + bs.length)
          | _ => false
        let keys := whole.filterMap fun l => (s.physLine l).map Place.data
        let s := (s.store k bs).markDirty a
        s.healLines fun x => memN x keys
    | _, _ => s.apFault o t true

def execHostApertureWrite (offset : Nat) (data : Bytes) (s : State) : Answer := doneMem s (s.apertureWrite offset data)

/-- BAR2_RESIZE (R367). -/
def execBar2Resize (log2GiB : Fin 11) (s : State) : Answer :=
  done s (if s.hostUp then { s with host := { s.host with bar2 := log2GiB.val, resized := true } } else s)

/-- POWER_STATE_CHANGE (R366). -/
def execPowerStateChange (d3hot : Bool) (s : State) : Answer :=
  done s (if s.hostUp then { s with host := { s.host with d3hot := d3hot } } else s)

/-- HOST_RESET (R370): a hot reset, or a link that goes down. -/
def execHostReset (surprise : Bool) (s : State) : Answer :=
  done s (s.hostDown surprise)

/-- The link has trained (R366, R415). No command writes the MSI-X table: the host is taken to unmask its vectors as it
brings the link up, and vectors that were pending are signalled (log entry 35). -/
def State.linkTrained (s : State) (rate width : Nat) (flit : Bool) : State :=
  if rate = 0 ∨ s.fenced (.d 0) ∨ s.host.lost then s
  else
    let s := s.setReg (okey 0x5140 2) (rate * 4096 + width * 16 + b2n flit)
    let v := s.host.pendingBits.reverse
    v.foldl (fun s x => s.send (.msix x)) { s with host := { s.host with masked := false, pendingBits := [] } }

/-- HOST_LINK_UP (R415): the host offers the link after step 10 or after a link down. -/
def execHostLinkUp (rate : Fin 7) (width : Fin 32) (flit : Bool) (s : State) : Answer :=
  done s (if s.boot.step = 11 ∧ s.serves ∧ !s.hostUp then s.linkTrained rate.val width.val flit else s)

/-- HOST_READ_TIMEOUT (R368): a page-in from the host pool ends, and the waiting contexts halt with MEMORY. -/
def execHostReadTimeout (addr : BitVec 52) (s : State) : Answer :=
  doneMem s (if eBackTier (s.entryAt addr.toNat) = 2 then pageInDone addr.toNat true s else s)

/-- NEIGHBOUR_SOLICITATION (R49): the module's one address is formed from its EUI-48. -/
def linkLocal (eui : BitVec 48) : BitVec 128 :=
  let e := eui.toNat
  BitVec.ofNat 128 (0xFE80 * 2 ^ 112 + ((bits e 47 24 * 2 ^ 40 + 0xFFFE * 2 ^ 24 + bits e 23 0) ^^^ 2 ^ 57))

def execNeighbourSolicitation (target : BitVec 128) (request : Bytes) (s : State) : Answer :=
  done s (if s.serves ∧ target = linkLocal s.fuse.eui48 then s.send (.protocol 0 (Config.protocolAnswer 0 request)) else s)

/-- ECHO_REQUEST (R49). -/
def execEchoRequest (request : Bytes) (s : State) : Answer :=
  done s (if s.serves then s.send (.protocol 1 (Config.protocolAnswer 1 request)) else s)

end Sys2Proof.Machine
end

