-- ==== Sys2Proof/Machine/Clocks.lean ====
section
/-! DEFINITION. Clocks (chapter 13): the selection of the reference, its loss, and the switch of each domain. -/

namespace Sys2Proof.Machine

/-- Key of a switching domain of a die. -/
def domIx : ClockDomain → Nat
  | .array => 0
  | .fabric => 1
  | .core => 2
  | .timebase => 3

/-- The domains of a die that wait for a stop point (R371, R375): TIMEBASE switches at once. -/
def waitDomains (d : Die) : List (Nat × ClockDomain) :=
  (if d.kind = 1 then [(d.ix, ClockDomain.array)] else []) ++ [(d.ix, .fabric), (d.ix, .core)]

/-- Every domain that switches at a stop point, of every die that runs. -/
def State.switching (s : State) : List (Nat × ClockDomain) := (allDies.filter s.live).flatMap waitDomains

/-- A switch begins for the domains given: CLOCK_STATE 2, and TIMEBASE switches at once, adding 512 (R375). -/
def State.beginSwitch (s : State) (toRecovered : Bool) (ds : List (Nat × ClockDomain)) : State :=
  let s := { s with clk := { s.clk with waiting := ds, toRecovered := toRecovered, phaseAdds := s.clk.phaseAdds + 512 } }
  s.setReg (okey 0x5810 1) 2

/-- The last domain has restarted: CLOCK_STATE reads the new source, and a return is told (R375, R380). -/
def State.endSwitch (s : State) : State :=
  if s.clk.waiting.isEmpty ∧ s.ob 0x5810 1 = 2 then
    let s := s.setReg (okey 0x5810 1) (b2n s.clk.toRecovered)
    if s.clk.toRecovered then s.raise 0x5802 0 (s.ob 0x5800 1) (s.ob 0x5800 2) else s
  else s

/-- CLOCK_SELECT takes the recovered reference (R373). -/
def State.selectRecovered (s : State) : State :=
  if s.ob 0x5810 1 = 1 then s
  else ((s.setReg (okey 0x5800 3) 1).beginSwitch true s.switching).endSwitch

/-- CLOCK_SELECT takes the local oscillator by command. -/
def State.selectLocal (s : State) : State :=
  let s := s.setReg (okey 0x5800 3) 0
  if s.ob 0x5810 1 = 1 then (s.beginSwitch false s.clk.onRecovered).endSwitch else s

/-- An I32 number of ppm as F32 bits. -/
def ppmF32 (v : BitVec 32) : Nat := (enc32 (rna32 (.fin (decide (v.toInt < 0)) v.toInt.natAbs 0))).toNat

/-- The recovered reference is selected: runs, or is being switched to. -/
def State.recovers (s : State) : Bool := decide (s.ob 0x5810 1 = 1 ∨ (s.ob 0x5810 1 = 2 ∧ s.clk.toRecovered = true))

/-- REF_OFFSET_PPM shows the last window's offset while the recovered reference is selected (R374). -/
def State.latchRef (s : State) (ppm : BitVec 32) : State :=
  if s.recovers then s.setReg (okey 0x5810 2) (ppmF32 ppm) else s

/-- REFERENCE_LOSS (R374, R377): holdover, CLOCK_FALLBACK, then every domain that runs from the recovered reference
switches to the local oscillator. -/
def State.lostReference (s : State) (cause : Nat) (ppm : BitVec 32) : State :=
  if !s.recovers ∨ (cause = 0 ∧ s.portUp (s.ob 0x5800 1)) then s
  else
    let s := ((s.setReg (okey 0x5810 1) 3).setReg (okey 0x5810 2) (ppmF32 ppm)).bump (okey 0x5810 3) 1
    let s := s.raise 0x5801 2 cause ppm.toNat
    (((s.beginSwitch false s.clk.onRecovered).setReg (okey 0x5800 3) 0)).endSwitch

def execReferenceLoss (cause : Fin 3) (ppm : BitVec 32) (s : State) : Answer := done s (s.lostReference cause.val ppm)

/-- DOMAIN_SWITCH (R375, R376): a domain that waits restarts from the other reference. -/
def State.switched (s : State) (d : Die) (c : ClockDomain) : State :=
  let k := (d.ix, c)
  if !s.clk.waiting.any fun x => decide (x = k) then s
  else
    let s := { s with clk := { s.clk with
      waiting := s.clk.waiting.filter fun x => !decide (x = k)
      onRecovered := if s.clk.toRecovered then k :: s.clk.onRecovered
                     else s.clk.onRecovered.filter fun x => !decide (x = k) } }
    (if c = .array then s.bump (okey 0x5810 4) 512 else s).endSwitch

def execDomainSwitch (die : Die) (dom : ClockDomain) (s : State) : Answer := done s (s.switched die dom)

/-- The frequency counters latch (R379): byte 32 × die + 4 × row. -/
def State.latchFreq (s : State) (l : List (Die × Fin 8 × Nat)) : State :=
  l.foldl (fun s x => s.setDomNat 0x582001 (32 * x.1.ix + 4 * x.2.1.val) 4 x.2.2) s

end Sys2Proof.Machine
end

