-- ==== Sys2Proof/Machine/Flags.lean ====
section
/-! DEFINITION. Flags, status words and pins that follow from the rest of the state: CAP_STATE, MB_STATUS, the sideband
(R61, R384, R396, R404, R461, R469). -/

namespace Sys2Proof.Machine

/-! ### CAP_STATE (object 0x2000.05) -/

def State.safe (s : State) : Bool := bit (s.ob 0x2000 5) 0
def State.halved (s : State) : Bool := bit (s.ob 0x2000 5) 1
def State.overvoltage (s : State) : Bool := bit (s.ob 0x2000 5) 2
/-- Set or clear a bit of CAP_STATE. -/
def State.setCap (s : State) (i : Nat) (b : Bool) : State := s.setBit (okey 0x2000 5) i b

/-! ### MB_STATUS (R61) -/

def State.mbStatus (s : State) : Nat :=
  s.dict.mbLastId.toNat * 65536 + 8 * b2n s.dict.handover + 4 * b2n s.dict.mbOverrun + 2 * b2n s.dict.mbDone + b2n s.dict.mbBusy

/-- A byte of BAR0 as the host reads it (R61, R367): the mailbox with its areas and the publish area, the queues' mirrors,
the MSI-X table, whose vectors are masked or not and whose addresses and data are the host's own (log entry 35), and the pending
bits; other offsets read zero. -/
def State.bar0 (s : State) (off : Nat) : Byte :=
  if 0x20000 ≤ off ∧ off < 0x22000 then
    match off % 16 with
    | 12 => if s.host.masked then 1 else 0
    | 13 | 14 | 15 => 0
    | _ => Config.msixByte (off - 0x20000)
  else
  let part (base size : Nat) (b : Bytes) (rest : Byte) : Byte :=
    if base ≤ off ∧ off < base + size then b.getD (off - base) 0 else rest
  part 4 4 (leBytes 4 s.mbStatus) <| part 0x100 2048 s.dict.mbRequest <| part 0x900 2048 s.dict.mbArea <|
    part 0x1100 8 (leBytes 8 s.dict.pubStart) <| part 0x1108 3824 s.dict.pubData <| part 0x1FF8 8 (leBytes 8 s.dict.pubEnd) <|
    part 0x10000 512 ((List.range 128).flatMap fun q => leBytes 4 (s.qTail q)) <|
    part 0x11000 512 ((List.range 128).flatMap fun q => leBytes 4 (s.qHead q)) <|
    part 0x12000 512 ((List.range 128).flatMap fun q => leBytes 4 (s.qst q).count) <|
    part 0x24000 64 (leBytes 64 ((s.host.pendingBits.map fun v => 2 ^ v).sum)) 0

/-! ### The sideband (R461) -/

/-- SIDEBAND_PHASE: 0 strap, 1 boot, 2 run (R462). -/
def State.phase (s : State) : Nat :=
  if !s.boot.aux ∨ s.boot.resetHeld then 0
  else if s.boot.step = 11 ∧ !s.boot.stopped then 2
  else 1

/-- The alert output of SB1 is asserted (R396, R404). -/
def State.alert (s : State) : Bool :=
  s.boot.stopped || s.halved || s.overvoltage || s.safe || !s.pwr.junction.isEmpty || s.pwr.coolant

/-- READY, JOB, THROTTLE and DEGRADED. -/
def State.readyPin (s : State) : Bool := s.isReady && !s.boot.tamperHold
def State.throttlePin (s : State) : Bool :=
  s.safe || s.halved || (List.range 32).any fun t => decide (s.reg (dkeyOf (Die.ofIx t) 0x20 7) ≠ 0)
def State.degradedPin (s : State) : Bool :=
  decide (s.ob 0x7001 6 ≠ 0 ∨ s.ob 0x7001 7 ≠ 0) || !s.num.fenced.isEmpty

/-- The level that the environment drives on a pin; an open contact reads 0 (R460). -/
def State.inLevel (s : State) (p : InPin) : Bool :=
  match p with
  | .sb2 => s.boot.sb2
  | _ => s.boot.inputs.any fun x => decide (x = (p, true))

/-- The level of a pin (R461). A released SB1 reads its strap, and an SB0 output reads low between its pulses
(log entry 36). -/
def State.pin (s : State) (i : Nat) : Bool :=
  let strap := bit (s.ob 0x1200 5) i
  match s.phase, i with
  | 0, 2 => if s.boot.latched then s.boot.sb2 else strap
  | 0, _ => strap
  | _, 1 => !s.alert && strap
  | _, 2 => s.boot.sb2
  | _, 3 => !(s.boot.estop || (s.boot.stopped && decide (s.ob 0x1200 1 = 0x8F)))
  | 1, 0 => false
  | 1, i => bit (s.ob 0x1200 1) (i - 4)
  | _, 0 => decide (s.ob 0x5000 5 = 0) && s.inLevel .sb0
  | _, 4 => s.readyPin
  | _, 5 => s.jobRuns
  | _, 6 => s.throttlePin
  | _, 7 => s.degradedPin
  | _, 8 => decide (s.ob 0x1300 2 = 1) && Config.locateWave s.tickNo
  | _, 9 => s.inLevel .sb9
  | _, 10 => s.inLevel .sb10
  | _, _ => s.inLevel .sb11

/-- SIDEBAND_LEVELS (object 0x1300.01). -/
def State.levels (s : State) : Nat := ((List.range 12).map fun i => if s.pin i then 2 ^ i else 0).sum

/-- Free HBM3E frames of the module (object 0x4400.03). -/
def State.freeFrames (s : State) : Nat :=
  let used := s.usedFrames.eraseDups
  (((List.range 64).filter s.stackUp).map fun u =>
    15360 - (used.filter fun k => decide (k / 2 ^ 20 = u)).length).sum

/-- A scalar object as it reads: objects that only show other state are formed here. -/
def State.view (s : State) (k : Nat) : Nat :=
  match k with
  | 0x130001 => s.levels
  | 0x130003 => s.phase
  | 0x440003 => s.freeFrames
  | 0x441003 => s.entryAt (s.reg 0x441002)
  | 0x442001 => s.apertureBase
  | _ => s.reg k

end Sys2Proof.Machine
end

