-- ==== Sys2Proof/Machine/Power.lean ====
section
/-! DEFINITION. Power and temperature (chapter 14): the input, the emergency stop and the removal of power (R381–R383), the
cap (R384–R386), its division (R387–R389), estimate and trust (R390–R393), temperature (R395, R396). -/

namespace Sys2Proof.Machine

/-- A non-negative number rounded down. -/
def floorFx : Fx → Nat
  | .fin false m e => shl m e
  | _ => 0

/-! ### Removing power (R383) -/

/-- An index of a per-die object that a die without power forgets (R37, R383): all but the shape objects, which the
pithead holds, and the objects of chapter 14, which survive. -/
def forgotten (i : Nat) : Bool :=
  match dieOfIndex i with
  | some (_, o) => decide (0x40 ≤ o)
  | none => false

/-- The job ends with the power, and every queue stops: no result and no record of the stopped work is written. -/
def State.killWork (s : State) : State :=
  let s := { s with cmds := s.cmds.filter fun c => !c.active }
  let s := if s.jobRuns then s.endJob else (List.range 128).foldl (fun s q => s.stopQueue q 4) s
  { s with cmds := [], ctxs := [], mus := [], eng := [], arr := [], fix := [], red := [], obs := State.reset.obs, can := ⟨[], []⟩
           step := State.reset.step }

/-- Die and memory power goes, but for the auxiliary domains of D0 and D8 (R383): memory, mappings and what the dies held
are lost; host memory stands outside the module. -/
def State.removePower (s : State) : State :=
  let s := s.killWork
  let s := s.hostDown true
  let s := { s with
    regs := s.regs.filter fun (p : Nat × Nat) => !forgotten (p.1 / 256)
    dom := s.dom.filter fun (p : Nat × Byte) => !forgotten (p.1 / 4294967296)
    mem := Mem.forget s.mem 0 (hostAt 0)
    page := { s.page with small := [], large := [], ins := [], drains := [], ue := [], flaws := [], retest := [], full := [], dead := [], apFaults := [],
                          retained := [], busy := [], swaps := [] }
    num := { s.num with fails := [], fences := [], readmits := [], nextJob := [], storeLost := [] }
    ports := []
    clk := State.reset.clk
    pwr := { s.pwr with overRun := 0, excess := 0, rest := 0, exceededTold := false, phase := [], large := [], small := [],
                        below := [], junction := [], gate := [], floor := [], idleFor := [] }
    tick := { s.tick with missing := [], lost := [], acquiring := none, placed := none, missRun := 0, correction := 0 }
    boot := { s.boot with powered := [], admitted := [], training := []
                          survive := if s.boot.admitted.isEmpty then s.boot.survive else s.boot.admitted }
    sec := { s.sec with sealed := s.sec.sealed.filter fun x => decide (x = 32 ∨ x = 40) } }
  let s := ((s.setReg (okey 0x9110 8) 0).setReg (okey 0x5800 3) 0).setReg (okey 0x5000 7) 0
  let s := (List.range 32).foldl (fun s t => s.setReg (dkeyOf (Die.ofIx t) 0x20 1) 0) s
  s.setReg (okey 0x5810 1) 0

/-! ### Stops (R382, R383, R417, R418) -/

/-- An event when a pithead runs to hold the ring. -/
def State.tell (s : State) (code sev a0 a1 : Nat) : State := if s.boot.pithead.isSome then s.raise code sev a0 a1 else s

/-- BOOT_CODE changes; in the boot phase SB0 pulses (R404). -/
def State.setBootCode (s : State) (v : Nat) : State :=
  let s := if s.ob 0x1200 1 ≠ v ∧ v ≠ 0x0B then s.send .sb0Pulse else s
  s.setReg (okey 0x1200 1) v

/-- Bring-up stops with a code and a detail (R417, R418). -/
def State.stopBoot (s : State) (code detail : Nat) : State :=
  let s := s.removePower.setBootCode code
  let v := s.boot.step * 2 ^ 24 + code * 2 ^ 16 + detail
  let s := s.setReg (okey 0x1200 2) v
  ({ s with boot := { s.boot with stopped := true } }).tell 0x1202 3 v s.boot.totalMs

/-- A cause of R382 holds. -/
def State.addCause (s : State) (c : Nat) : State :=
  if memN c s.boot.causes ∨ c = 6 then s else { s with boot := { s.boot with causes := c :: s.boot.causes } }

/-- A cause no longer holds. -/
def State.dropCause (s : State) (c : Nat) : State :=
  { s with boot := { s.boot with causes := s.boot.causes.filter fun x => decide (x ≠ c) } }

/-- An emergency stop (R382, R383); before Ready it stops bring-up (R417). A second cause during a stop changes nothing but
that it holds. -/
def State.emergency (s : State) (cause mv : Nat) : State :=
  if !s.boot.aux ∨ s.boot.resetHeld then s
  else
    let s := s.addCause cause
    if s.boot.estop ∨ s.boot.stopped ∨ s.boot.tamperHold then s
    else
      let s := (s.setReg (okey 0x2010 4) cause).setCap 3 true
      let s := s.tell 0x2004 3 cause mv
      if s.boot.step = 11 then
        let s := s.removePower
        { s with boot := { s.boot with estop := true } }
      else s.stopBoot 0x8F cause

/-- Above the absolute maximum of 60 V the manual gives no behaviour (R381, R466). -/
def beyond (mv : Nat) : Bool := decide (60000 < mv)

/-- EMERGENCY_STOP (R382). -/
def execEmergencyStop (cause : Fin 7) (mv : Nat) (s : State) : Answer :=
  if beyond mv then .refused .beyondRatings
  else match cause.val with
    | 0 => done s s
    | 1 => doneMem s (({ s with boot := { s.boot with sb2 := false } }).emergency 1 mv)
    | 2 => doneMem s (if mv < 42000 then s.emergency 2 mv else s)
    | 3 => doneMem s (if 58500 < mv then s.emergency 3 mv else s)
    | c => doneMem s (s.emergency c mv)

/-! ### The cap (R384–R386) -/

/-- C of R384; halved with 0.5 W dropped. -/
def State.cap (s : State) : Nat :=
  let c := min (capW s.fuse) (s.ob 0x2000 1)
  let c := if s.safe then min c (s.ob 0x2000 2) else c
  if s.halved then c / 2 else c

/-- EFFECTIVE_CAP_W is computed again. -/
def State.showCap (s : State) : State := s.setReg (okey 0x2000 4) s.cap

/-- UNDERVOLTAGE_HALVING (R381, R384). -/
def execUndervoltageHalving (mv : Nat) (s : State) : Answer :=
  if beyond mv then .refused .beyondRatings
  else done s (if !s.serves ∨ 45000 ≤ mv ∨ (s.halved ∧ !s.pwr.uvCleared) then s
    else (({ s with pwr := { s.pwr with uvCleared := false } }).setCap 1 true).showCap.raise 0x2003 2 mv 0)

/-- UNDERVOLTAGE_CLEAR (R381): the cap is restored at the next boundary. -/
def execUndervoltageClear (mv : Nat) (s : State) : Answer :=
  if beyond mv then .refused .beyondRatings
  else done s (if !s.serves ∨ mv < 46000 then s
    else
      let s := s.dropCause 2
      if s.halved ∧ !s.pwr.uvCleared then
        ({ s with pwr := { s.pwr with uvCleared := true } }).raise 0x2003 2 mv 1
      else s)

/-- OVERVOLTAGE_ALERT (R381). -/
def execOvervoltageAlert (mv : Nat) (s : State) : Answer :=
  if beyond mv then .refused .beyondRatings
  else done s (if !s.serves ∨ mv ≤ 57000 ∨ s.overvoltage then s else (s.setCap 2 true).raise 0x200B 2 mv 0)

/-- OVERVOLTAGE_CLEAR (R381). -/
def execOvervoltageClear (mv : Nat) (s : State) : Answer :=
  if beyond mv then .refused .beyondRatings
  else done s (if !s.serves ∨ 56500 < mv then s
    else
      let s := s.dropCause 3
      if s.overvoltage then (s.setCap 2 false).raise 0x200B 2 mv 1 else s)

/-- Milliseconds of a tick, rounded up. -/
def State.periodMs (s : State) : Nat := ceilDiv (s.ob 0x5000 2) 1000

/-- CAP_SAFE (R385): the Iltur silence has passed its bound, so the safe state is entered at the next boundary. -/
def execCapSafe (s : State) : Answer :=
  done s (if s.serves ∧ s.ob 0x2000 3 ≠ 0 ∧ s.ob 0x2000 3 < s.ob 0x1100 6 + s.periodMs ∧ !s.safe then
    { s with pwr := { s.pwr with safeDue := true } } else s)

/-- The safe state is entered at a boundary (R385). -/
def State.enterSafe (s : State) : State :=
  let t := s.ob 0x2000 3
  if !s.safe ∧ t ≠ 0 ∧ (s.pwr.safeDue ∨ t < s.ob 0x1100 6) then
    (({ s with pwr := { s.pwr with safeDue := false } }).setCap 0 true).raise 0x2001 1 (s.ob 0x1100 6 % 2 ^ 32) (s.ob 0x2000 2)
  else { s with pwr := { s.pwr with safeDue := false } }

/-- A write of RACK_CAP_W received over Iltur takes effect: the safe state ends (R385). -/
def State.leaveSafe (s : State) : State :=
  let s := { s with pwr := { s.pwr with rackWrite := false } }
  if s.safe then (s.setCap 0 false).raise 0x2002 0 (s.ob 0x2000 1) 0 else s

/-- The average of a tick against the cap (R386). -/
def State.overCap (s : State) (avg : BitVec 32) : State :=
  let p := dec32 avg
  let c := rna32 (Fx.ofNat s.cap)
  if Fx.lt (Fx.mul c (.fin false 102 0)) (Fx.mul p (.fin false 100 0)) then
    let s := s.bump (okey 0x2000 8) 1
    { s with pwr := { s.pwr with overRun := s.pwr.overRun + 1, excess := enc32 (fsub p c) } }
  else { s with pwr := { s.pwr with overRun := 0, excess := 0, exceededTold := false } }

/-- CAP_EXCEEDED (R386): once, after ten such ticks in a row. -/
def execCapExceeded (excessW : Nat) (s : State) : Answer :=
  done s (if s.serves ∧ 10 ≤ s.pwr.overRun ∧ !s.pwr.exceededTold then
    ({ s with pwr := { s.pwr with exceededTold := true } }).raise 0x200A 1 (s.ob 0x2000 4) excessW else s)

/-! ### Phases (R387) -/

/-- Byte offset of a phase's entry in B+0x21.01. -/
def phaseOff (k : Nat) : Nat := 8 * ((bits k 31 16 + 97 * bits k 15 0) % 4096)
def State.phaseEntry (s : State) (t k : Nat) : Nat := s.domNat (okey (0xA000 + 0x100 * t + 0x21) 1) (phaseOff k) 8

/-- The phase of each die as the head begins: of its commands that stand admitted, or that the head restores (log 208). -/
def State.openPhases (s : State) : State :=
  (s.cmds.filter fun c => decide (c.phase = .admitted) || (decide (c.phase = .suspended) && !s.staysSuspended c)).foldl
    (fun s c => s.joinPhase c) { s with pwr := { s.pwr with phase := [] } }

/-- Phase key of a die in this tick. -/
def State.phaseKey (s : State) (t : Nat) : Nat := (SMap.get (idlePhase, 0) s.pwr.phase t).1

/-- SAMPLES and ALPHA of a die's phase: an entry of another key counts as first use. -/
def State.phaseSamples (s : State) (t k : Nat) : Nat :=
  let e := s.phaseEntry t k
  if bits e 63 32 = k then bits e 31 20 else 0
def State.phaseAlpha (s : State) (t k : Nat) : Nat :=
  let e := s.phaseEntry t k
  if bits e 63 32 = k then bits e 19 0 else 0

/-- One eighth of the way from a to b, to nearest with ties away, in U20. -/
def learn (a b : Nat) : Nat :=
  if a ≤ b then a + (b - a + 4) / 8 else a - (a - b + 4) / 8

/-- The tick's phase learns its mean activity (R387). -/
def State.learnPhase (s : State) (t act : Nat) : State :=
  let k := s.phaseKey t
  let n := s.phaseSamples t k
  let a := if n = 0 then satN 20 act else satN 20 (learn (s.phaseAlpha t k) act)
  s.setDomNat (okey (0xA000 + 0x100 * t + 0x21) 1) (phaseOff k) 8 (k * 2 ^ 32 + min (n + 1) 4095 * 2 ^ 20 + a)

/-! ### Gain and trust (R390, R391) -/

def gainKey (t : Nat) : Nat := dkeyOf (Die.ofIx t) 0x20 5
def State.gain (s : State) (t : Nat) : Fx := f32.decode (s.reg (gainKey t))
def State.distrusted (s : State) (t : Nat) : Bool := decide (s.reg (dkeyOf (Die.ofIx t) 0x20 6) = 1)

/-- A comparison in F32: p per cent of one. -/
def pct (p : Nat) : Fx := fdiv (Fx.ofNat p) (Fx.ofNat 100)

/-- A tick's energies recalibrate a die's gain, and its error counts towards trust (R390, R391). -/
def State.recalibrate (s : State) (t : Nat) (meas est : BitVec 32) : State :=
  let m := dec32 meas
  let e := dec32 est
  if m.isZero ∨ e.isZero ∨ !m.isFinite ∨ !e.isFinite then s
  else
    let err := fdiv (fsub e m).abs m
    let one := Fx.ofNat 1
    let g := fmul (s.gain t) (fadd one (fdiv (fsub (fdiv m e) one) (Fx.ofNat 4)))
    let half : Fx := .fin false 1 (-1)
    let g := if Fx.lt g half then half else if Fx.lt (Fx.ofNat 2) g then Fx.ofNat 2 else g
    let large := if Fx.lt (pct (s.ob 0x2020 1)) err then SMap.get 0 s.pwr.large t + 1 else 0
    let small := if Fx.lt (fdiv (pct (s.ob 0x2020 1)) (Fx.ofNat 2)) err then 0 else SMap.get 0 s.pwr.small t + 1
    let s := s.setReg (gainKey t) (enc32 g).toNat
    let s := s.setReg (dkeyOf (Die.ofIx t) 0x20 4) (enc32 (fdiv e (fdiv (Fx.ofNat (s.ob 0x5000 2)) (Fx.ofNat 1000000)))).toNat
    { s with pwr := { s.pwr with large := SMap.put s.pwr.large t large, small := SMap.put s.pwr.small t small } }

/-- The gain stands at a limit. -/
def State.gainAtLimit (s : State) (t : Nat) : Bool :=
  let g := s.reg (gainKey t)
  decide (g = 0x3F000000 ∨ g = 0x40000000)

/-- ESTIMATOR_DISTRUSTED (R391). -/
def execEstimatorDistrusted (die : Fin 32) (errorTenths : Nat) (s : State) : Answer :=
  let d := Die.t die
  done s (if s.live d ∧ !s.distrusted die.val ∧ (s.ob 0x2020 2 ≤ SMap.get 0 s.pwr.large die.val ∨ s.gainAtLimit die.val) then
    let s := { s with pwr := { s.pwr with small := SMap.put s.pwr.small die.val 0 } }
    (s.setReg (dkeyOf d 0x20 6) 1).raiseAt 0x2005 1 (unitOfDie d) 0 0 (unitOfDie d).toNat errorTenths
  else s)

/-- ESTIMATOR_TRUSTED (R391). -/
def execEstimatorTrusted (die : Fin 32) (s : State) : Answer :=
  let d := Die.t die
  done s (if s.live d ∧ s.distrusted die.val ∧ 64 ≤ SMap.get 0 s.pwr.small die.val ∧ !s.gainAtLimit die.val then
    let s := { s with pwr := { s.pwr with large := SMap.put s.pwr.large die.val 0 } }
    (s.setReg (dkeyOf d 0x20 6) 0).raiseAt 0x2006 0 (unitOfDie d) 0 0 (unitOfDie d).toNat 0
  else s)

/-- POWER_STAGE_SILENT (R391, R470): the die is fenced, with the die managers' group as CAUSE. -/
def execPowerStageSilent (die : Fin 32) (s : State) : Answer :=
  done s (if s.live (.t die) then s.failUnit (.t die) 0 0 3 0x10 else s)

/-! ### Dividing the cap (R388) -/

def State.eta (s : State) : Fx := dec32 s.fuse.eta

/-- m(d): 1, or 1 + MEAS_MARGIN_PCT ÷ 100 while distrusted. -/
def State.margin (s : State) (t : Nat) : Fx :=
  if s.distrusted t then fadd (Fx.ofNat 1) (pct (s.ob 0x2020 3)) else Fx.ofNat 1

/-- P(d, f, α): f is step i of the curve, α in units of 2^-20. -/
def State.power (s : State) (t i alpha : Nat) : Fx :=
  let c := Config.powerCurve t i
  fdiv (fmul (s.gain t) (fadd (dec32 c.1) (fmul (.fin false alpha (-20)) (dec32 c.2)))) s.eta

/-- The thermal ceiling of a step in MHz (R396). -/
def ceiling (v : Fuse) (step : Nat) : Nat :=
  let c := capMhz v
  match step with
  | 0 => c
  | 1 => c * 90 / 100 / 25 * 25
  | 2 => c * 75 / 100 / 25 * 25
  | _ => 800

/-- fcap(d) as a step of the curve. -/
def State.topStep (s : State) (t : Nat) : Nat :=
  let c := min (ceiling s.fuse (s.reg (dkeyOf (Die.ofIx t) 0x20 7))) (s.ob 0x2010 6)
  (c - 800) / 25

/-- Water-filling: the level at which the needs, each cut to it, sum to R; needs in ascending order. -/
def waterLevel : List Fx → Fx → Fx
  | [], r => r
  | n :: rest, r =>
    let share := fdiv r (rna32 (Fx.ofNat (rest.length + 1)))
    if Fx.lt share n then share else waterLevel rest (fsub r n)

/-- Insert a need in ascending order. -/
def insertFx (x : Fx) : List Fx → List Fx
  | [] => [x]
  | y :: t => if Fx.lt x y then x :: y :: t else y :: insertFx x t

/-- F32 sum in order. -/
def sum32 (l : List Fx) : Fx := l.foldl fadd Fx.zero

/-- The allocation of each live Trify die, with the activity its clock is chosen for. -/
def State.divide (s : State) : List (Nat × Fx × Nat) :=
  let ds := (List.range 32).filter fun t => s.live (Die.ofIx t)
  let c := rna32 (Fx.ofNat (s.ob 0x2000 4))
  let rest := fadd (fmul (fdiv (Fx.ofNat 101) (Fx.ofNat 100)) (dec32 s.pwr.rest)) (dec32 s.pwr.excess)
  let b := Fx.maximum (fsub c rest) Fx.zero
  let n := rna32 (Fx.ofNat ds.length)
  let key (t : Nat) : Nat := s.phaseKey t
  let first (t : Nat) : Bool := !decide (s.boot.step = 11) ||
    (decide (key t ≠ idlePhase) && decide (s.phaseSamples t (key t) < s.ob 0x2020 4))
  let share := fdiv b n
  let need (t : Nat) : Fx :=
    if key t = idlePhase then fmul (fdiv (Fx.ofNat 11) (Fx.ofNat 10)) (fdiv (f32.decode (s.reg (dkeyOf (Die.ofIx t) 0x20 3))) s.eta)
    else fmul (s.margin t) (s.power t (s.topStep t) (s.phaseAlpha t (key t)))
  let others := ds.filter fun t => !first t
  let needs := others.map need
  let r := fsub b (fdiv (fmul (rna32 (Fx.ofNat (ds.filter first).length)) b) n)
  let lam := if Fx.lt r (sum32 needs) then some (waterLevel (needs.foldr insertFx []) r) else none
  ds.map fun t =>
    if first t then (t, share, 2 ^ 20)
    else
      let w := need t
      (t, (match lam with
        | none => w
        | some l => if Fx.lt l w then l else w), s.phaseAlpha t (key t))

/-- The largest step of the curve, from `i` down, whose power lies within the allocation. -/
def State.bestStep (s : State) (t alpha : Nat) (a : Fx) : Nat → Option Nat
  | 0 => if Fx.lt a (fmul (s.margin t) (s.power t 0 alpha)) then none else some 0
  | i + 1 => if Fx.lt a (fmul (s.margin t) (s.power t (i + 1) alpha)) then s.bestStep t alpha a i else some (i + 1)

/-- The lowest clock granted since each shaft's last canary pass (R318). -/
def State.noteClock (s : State) (t mhz : Nat) : State :=
  if 2400 ≤ mhz then s
  else { s with can := { s.can with lowClock := (List.range 18).foldl (fun (m : List (Nat × Nat)) p =>
           SMap.upd mhz m (canKey t p) (min mhz)) s.can.lowClock } }

/-- Every manager core of a Trify die is halted, so that its missing heartbeat is no failure. -/
def State.managersHalted (s : State) (d : Die) : Bool :=
  decide (d.kind = 1) && [72, 73, 74, 75].all fun c => s.obs.halted.any fun h => decide (h = (d.num, c))

/-- The governor's die managers, those of the lowest-numbered Trify die that is not fenced, are halted: the grants of the last
division stand (R456). -/
def State.governorHalted (s : State) : Bool :=
  match allTrify.find? s.live with
  | some d => s.managersHalted d
  | none => false

/-- Step 7 of R76: each die's allocation and clock; a die that models above its allocation at 0.8 GHz is held by gating,
and CAP_SHORT tells of it once per job (R388). -/
def State.govern (s : State) : State :=
  let s := { s with pwr := { s.pwr with capAt := s.ob 0x2000 4 } }
  s.divide.foldl (fun (s : State) (x : Nat × Fx × Nat) =>
    let d := Die.ofIx x.1
    let best := s.bestStep x.1 x.2.2 x.2.1 (s.topStep x.1)
    let mhz := 800 + 25 * best.getD 0
    let s := ((s.setReg (dkeyOf d 0x20 2) (enc32 x.2.1).toNat).setReg (dkeyOf d 0x20 1) mhz).noteClock x.1 mhz
    let s := s.trace d 0x0E 5 0 0 0 mhz (floorFx x.2.1)
    if best.isNone ∧ !s.pwr.shortTold then
      ({ s with pwr := { s.pwr with shortTold := true } }).raiseAt 0x2009 1 (unitOfDie d) 0 0 (unitOfDie d).toNat (floorFx x.2.1)
    else s) s

/-! ### The fast loop (R391–R393) -/

/-- The power that the fast loop holds a die to: its allocation, cut with the cap at an undervoltage halving (R384), and to what
the curve gives at a thermal ceiling that the next head will grant (R396). DEDUCED (log 209): at full activity. -/
def State.target (s : State) (t : Nat) : Fx :=
  let a := f32.decode (s.reg (dkeyOf (Die.ofIx t) 0x20 2))
  let cap := s.ob 0x2000 4
  let a := if cap < s.pwr.capAt then fmul a (fdiv (rna32 (Fx.ofNat cap)) (rna32 (Fx.ofNat s.pwr.capAt))) else a
  let top := ceiling s.fuse (s.reg (dkeyOf (Die.ofIx t) 0x20 7))
  let p := s.power t ((top - 800) / 25) (2 ^ 20)
  if top < s.reg (dkeyOf (Die.ofIx t) 0x20 1) ∧ Fx.lt p a then p else a

/-- The activity that a die's allocation allows, in units of 2^-20 of peak (R391). -/
def State.allowed (s : State) (t activity : Nat) (measured : BitVec 32) : Nat :=
  let a := s.target t
  if s.distrusted t then
    let target := fmul (fdiv a (s.margin t)) s.eta
    let m := dec32 measured
    if Fx.lt target m then floorFx (fmul (rna32 (Fx.ofNat activity)) (fdiv target m)) else 2 ^ 20
  else
    let c := Config.powerCurve t ((s.reg (dkeyOf (Die.ofIx t) 0x20 1) - 800) / 25)
    let x := fdiv (fsub (fdiv (fmul a s.eta) (s.gain t)) (dec32 c.1)) (dec32 c.2)
    min (2 ^ 20) (floorFx (fmul x (.fin false 1 20)))

/-- The instant lies in the die's own slot of the 16 µs frame (R393). -/
def inSlot (t now : Nat) : Bool := decide (500 * t ≤ now % 16000 ∧ now % 16000 < 500 * t + 500)

/-- A share of peak activity, from units of 0.01 %. -/
def ofSlope (n : Nat) : Nat := n * 2 ^ 20 / 10000

/-- GATING_LOOP (R391–R393, R396): the issue fraction for the next µs, and the floor under the fall of current. -/
def State.gateLoop (s : State) (t activity : Nat) (measured : BitVec 32) (wantsRise : Bool) (now : Nat) : State :=
  if !s.live (Die.ofIx t) then s
  else
    let idle := SMap.get 0 s.pwr.idleFor t
    let held := wantsRise && decide (s.ob 0x2010 2 = 1) && decide (4 ≤ idle) && !inSlot t now
    let rise := if held then activity else activity + ofSlope (s.ob 0x2010 1)
    let limit := if memN t s.pwr.junction then 2 ^ 18 else 2 ^ 20
    let g := min (min (s.allowed t activity measured) rise) limit
    { s with pwr := { s.pwr with gate := SMap.put s.pwr.gate t g
                                 floor := SMap.put s.pwr.floor t (activity - ofSlope (2 * s.ob 0x2010 1))
                                 idleFor := SMap.put s.pwr.idleFor t (if activity < 2 ^ 18 then idle + 1 else 0) } }

def execGatingLoop (die : Fin 32) (activity : Nat) (measuredW : BitVec 32) (wantsRise : Bool) (now : Nat) (s : State) : Answer :=
  done s (s.gateLoop die.val activity measuredW wantsRise now)

/-! ### Temperature (R395, R396) -/

/-- The step whose entry value a temperature and a stack temperature reach, in 0.1 °C. -/
def entryStep (t stack : Int) : Nat :=
  if 1030 ≤ t then 3
  else if 1000 ≤ t ∨ 950 ≤ stack then 2
  else if 950 ≤ t ∨ 900 ≤ stack then 1
  else 0

/-- A temperature and a stack temperature lie below the leaving value of a step. -/
def belowStep (step : Nat) (t stack : Int) : Bool :=
  match step with
  | 0 => false
  | 1 => decide (t < 920 ∧ stack < 870)
  | 2 => decide (t < 970 ∧ stack < 920)
  | _ => decide (t < 1000)

/-- Whole degrees in eight bits. -/
def degrees (t : Int) : Nat := ((t / 10) % 256).toNat

def State.thermalStep (s : State) (d : Die) : Nat := s.reg (dkeyOf d 0x20 7)

/-- A die takes a thermal step, and THERMAL_STEP tells of it. -/
def State.setStep (s : State) (d : Die) (step : Nat) (t : Int) : State :=
  ({ s with pwr := { s.pwr with below := SMap.put s.pwr.below d.ix 0 } }.setReg (dkeyOf d 0x20 7) step).raiseAt 0x2007 1 (unitOfDie d) 0 0
    (unitOfDie d).toNat (step * 256 + degrees t)

/-- THERMAL_STEP_UP (R396). -/
def execThermalStepUp (die : Die) (tenths stackTenths : Int) (s : State) : Answer :=
  done s (if !s.live die then s
    else if die.kind = 1 then
      let n := entryStep tenths stackTenths
      if s.thermalStep die < n then s.setStep die n tenths else s
    else if 1000 ≤ tenths ∧ s.thermalStep die ≠ 4 then s.setStep die 4 tenths
    else s)

/-- Temperature sensors of a die set aside (object B+0x26.01). -/
def State.asideTemps (s : State) (d : Die) : Nat :=
  ((List.range 24).filter fun i => bit (s.reg (dkeyOf d 0x26 1)) i).length

/-- THERMAL_STEP_DOWN (R396): one step at a time, after 100 ticks below its leaving value. -/
def execThermalStepDown (die : Fin 32) (tenths stackTenths : Int) (s : State) : Answer :=
  let d := Die.t die
  let n := s.thermalStep d
  done s (if s.live d ∧ 0 < n ∧ belowStep n tenths stackTenths ∧ 100 ≤ SMap.get 0 s.pwr.below d.ix ∧
      !(n = 2 ∧ 4 < s.asideTemps d) then s.setStep d (n - 1) tenths else s)

/-- JUNCTION_LIMIT (R396): issue is gated to 25 % and SB1 is asserted. -/
def execJunctionLimit (die : Die) (tenths : Int) (s : State) : Answer :=
  done s (if s.live die ∧ 1050 ≤ tenths ∧ !memN die.ix s.pwr.junction then
    { s with pwr := { s.pwr with junction := die.ix :: s.pwr.junction
                                 gate := if die.kind = 1 then SMap.upd (2 ^ 18) s.pwr.gate die.ix (min (2 ^ 18)) else s.pwr.gate } }
  else s)

/-- JUNCTION_LIMIT_CLEAR (R396): below 103 °C. A die this cool no longer holds an emergency stop. -/
def execJunctionLimitClear (die : Die) (tenths : Int) (s : State) : Answer :=
  done s (if 1030 ≤ tenths then s
    else ({ s with pwr := { s.pwr with junction := s.pwr.junction.filter fun x => decide (x ≠ die.ix) } }).dropCause 4)

/-- SENSOR_IMPLAUSIBLE (R395): the sensor is set aside; a Trify die with more than four temperature sensors set aside runs
at step 2 or above. -/
def execSensorImplausible (die : Die) (voltage : Bool) (sensor : Fin 24) (s : State) : Answer :=
  let k := dkeyOf die 0x26 1
  let i := if voltage then 24 + sensor.val else sensor.val
  let n := if voltage then (sensorCounts die).2.1 else (sensorCounts die).1
  done s (if !s.live die ∨ n ≤ sensor.val ∨ bit (s.reg k) i then s
    else
      let s := (s.setBit k i true).raiseAt 0x2008 1 (unitOfDie die) 0 0 (unitOfDie die).toNat (b2n voltage * 256 + sensor.val)
      if die.kind = 1 ∧ 4 < s.asideTemps die ∧ s.thermalStep die < 2 then
        s.setStep die 2 (floorFx (f32.decode (s.reg (dkeyOf die 0x20 8))) * 10)
      else s)

/-- COOLANT_INLET (R396): an inlet above 45 °C for 1 s. -/
def execCoolantInlet (tenths : Int) (s : State) : Answer :=
  done s (if s.serves ∧ 450 < tenths ∧ !s.pwr.coolant then
    ({ s with pwr := { s.pwr with coolant := true } }).raise 0x200C 2 (tenths.toNat % 2 ^ 32) 0 else s)

/-! ### What a boundary latches -/

/-- A temperature below a value in °C. -/
def coolerThan (v : BitVec 32) (deg : Nat) : Bool := Fx.lt (dec32 v) (Fx.ofNat deg)

/-- The hottest sensor of a die over the tick: ticks below the leaving value count (R396). -/
def State.latchHot (s : State) (d : Die) (v : BitVec 32) : State :=
  let s := s.setReg (dkeyOf d 0x20 8) v.toNat
  if d.kind ≠ 1 then (if s.thermalStep d = 4 ∧ coolerThan v 100 then s.setReg (dkeyOf d 0x20 7) 0 else s)
  else
    let cool := match s.thermalStep d with
      | 0 => false
      | 1 => coolerThan v 92
      | 2 => coolerThan v 97
      | _ => coolerThan v 100
    { s with pwr := { s.pwr with below := if cool then SMap.upd 0 s.pwr.below d.ix (· + 1) else SMap.put s.pwr.below d.ix 0 } }

/-- The measurements of the tick that ends (R381, R386, R387, R390, R395, R396). -/
def State.latchPower (s : State) (env : TickEnv) : State :=
  let s := ((s.setReg (okey 0x2000 6) env.inputPower.toNat).setReg (okey 0x2000 7) env.inputVolts.toNat).overCap env.inputPower
  let s := env.measured.foldl (fun s x => s.setReg (dkeyOf x.1 0x20 3) x.2.toNat) s
  let trify := sum32 ((env.measured.filter fun x => decide (x.1.kind = 1)).map fun x => fdiv (dec32 x.2) s.eta)
  let s := { s with pwr := { s.pwr with rest := enc32 (Fx.maximum (fsub (dec32 env.inputPower) trify) Fx.zero) } }
  let s := env.activity.foldl (fun s x => if s.live (.t x.1) then s.learnPhase x.1.val x.2 else s) s
  let s := env.energy.foldl (fun s x => if s.live (.t x.1) then s.recalibrate x.1.val x.2.1 x.2.2 else s) s
  let s := env.hottest.foldl (fun s x => s.latchHot x.1 x.2) s
  let s := env.sensors.foldl (fun s x =>
    if (objDef s.fuse (x.1.base + 0x22 + x.2.1.val) (x.2.2.1 + 1)).isSome then
      s.setReg (okey (x.1.base + 0x22 + x.2.1.val) (x.2.2.1 + 1)) x.2.2.2.toNat
    else s) s
  let s := (s.setReg (okey 0x2030 1) env.coolant.1.toNat).setReg (okey 0x2030 2) env.coolant.2.toNat
  if Fx.lt (Fx.ofNat 45) (dec32 env.coolant.1) then s else { s with pwr := { s.pwr with coolant := false } }

end Sys2Proof.Machine
end

