-- ==== Sys2Proof/Machine/Security.lean ====
section
/-! DEFINITION. Security and life cycle (chapter 16): life-cycle states, identity, firmware updates, measurement and
attestation, sessions, tampers; the SPDM requests of R369. -/

namespace Sys2Proof.Machine

def State.lcState (s : State) : Nat := s.ob 0x8000 1
def lcTest : Nat := 0
def lcProvision : Nat := 1
def lcProduction : Nat := 2
def lcReturn : Nat := 3
def lcScrap : Nat := 4

/-- Milliseconds since a tick, by the present period. -/
def State.msSince (s : State) (tick : Nat) : Nat := (s.tickNo - tick) * s.ob 0x5000 2 / 1000

/-! ### Sealed banks and sessions (R279, R434) -/

/-- Bytes of a die's sealed bank (R279). -/
def sealedSize (d : Die) : Nat := if d.kind = 1 then 512 * 1024 else 64 * 1024

/-- A byte of a die's sealed bank, as its own measured firmware reads it, which alone reaches the bank (R279): a bank never written
or wiped since reads as zero. -/
def State.sealedRead (s : State) (d : Die) (offset : Nat) : Byte :=
  if memN d.ix s.sec.sealed ∧ offset < sealedSize d then Config.sealedByte d.ix offset else 0

/-- Every sealed bank is wiped; a die whose read-back finds a bit set is held in reset (R279). -/
def State.wipe (s : State) (failed : List Die) : State :=
  let s := { s with sec := { s.sec with sealed := [], unwrapped := false, heldReset := s.sec.heldReset ++ failed } }
  failed.foldl (fun s d => s.tell 0x4407 3 (unitOfDie d).toNat 0) s

/-- Every session closes (R434). -/
def State.closeSessions (s : State) : State := { s with sec := { s.sec with sessions := [] } }

/-- The session of a client. -/
def State.session? (s : State) (p : Path) : Option Session := s.sec.sessions.find? fun x => decide (x.path = p)

/-- A client's session closes. -/
def State.closeSession (s : State) (p : Path) : State :=
  { s with sec := { s.sec with sessions := s.sec.sessions.filter fun x => !decide (x.path = p) } }

/-- SESSION_TIMEOUT: 60 s without a request (R434). -/
def execSessionTimeout (p : Path) (s : State) : Answer := done s (s.closeSession p)

/-! ### The measurement log (R428, R429) -/

/-- A log entry's 128 bytes. -/
def logBytes (e : Nat × BitVec 32 × Nat × BitVec 32 × Bytes) : Bytes :=
  leBytes 4 e.1 ++ leBytes 4 e.2.1.toNat ++ leBytes 1 e.2.2.1 ++ List.replicate 3 0 ++ leBytes 4 e.2.2.2.1.toNat ++
    List.replicate 48 0 ++ fit 64 e.2.2.2.2

/-- LOG_DIGEST. -/
def State.logDigest (s : State) : Bytes :=
  s.sec.log.foldl (fun d e => Config.sha512 (d ++ logBytes e)) (List.replicate 64 0)

/-- An entry is appended for an image part loaded on a die. -/
def State.logPart (s : State) (d : Die) (kind : Nat) (im : ImageCopy) : State :=
  match im.parts.find? fun p => decide (p.1 = kind) with
  | none => s
  | some p => { s with sec := { s.sec with log := s.sec.log ++ [(s.sec.log.length, unitOfDie d, kind, im.version, p.2)] } }

/-- Core kinds loaded on a die in step 5 (R425). -/
def dieParts : Die → List Nat
  | .t _ => [1, 2]
  | .d _ => [3]
  | .f _ => [4]

/-- A restart from an emergency stop keeps the entries of step 3 (R429). -/
def State.keepLog (s : State) : State :=
  { s with sec := { s.sec with log := s.sec.log.filter fun e => decide (e.2.2.1 = 0) } }

/-! ### Life cycle (R423) -/

/-- A transition of the table of R423, with the conditions that rest on the module's state alone. -/
def State.lcAllowed (s : State) (target : Nat) : Bool :=
  match s.lcState, target with
  | 0, 1 => match s.sec.running with
    | some im => im.flagTest
    | none => false
  | 1, 2 => s.sec.identity.isSome
  | 2, 3 => true
  | 3, 1 => decide (s.sec.returns < 3)
  | 4, _ => false
  | _, 4 => true
  | _, _ => false

/-- The session that a transition needs is open for the client. -/
def State.lcAuthority (s : State) (target : Nat) (p : Path) : Bool :=
  match s.lcState, target with
  | 0, 1 => true
  | 1, 2 => true
  | 2, 3 => match s.session? p with
    | some x => decide (x.slot = 0)
    | none => false
  | _, _ => (s.session? p).isSome

/-- An accepted transition takes effect at a boundary (R423); a return to PROVISION makes every identity key impossible to
recover (R424). -/
def State.lcTransition (s : State) (failed : List Die) : State :=
  match s.sec.lcPending with
  | none => s
  | some t =>
    let old := s.lcState
    let s := (s.wipe failed).closeSessions
    let back := decide (old = lcReturn ∧ t = lcProvision)
    let s := { s with sec := { s.sec with lcPending := none
                                          returns := if back then s.sec.returns + 1 else s.sec.returns
                                          identity := if back then none else s.sec.identity } }
    (s.setReg (okey 0x8000 1) t).raise 0x8002 1 old t

/-! ### Identity and attestation (R424, R430) -/

/-- A draw of the hardware random source. -/
def State.draw64 (s : State) : State := { s with sec := { s.sec with random := s.sec.random + 1 } }

/-- IDENTITY_GENERATE of 1. -/
def State.generateIdentity (s : State) : State :=
  let k := Config.keyPair s.sec.random
  let s := s.draw64
  { s with sec := { s.sec with identity := some (fit 516 k.1, k.2), unwrapped := true
                               sealed := (32 :: s.sec.sealed).eraseDups } }

/-- The private key, where a sealed bank holds it unwrapped. -/
def State.signKey (s : State) : Option Bytes :=
  if s.sec.unwrapped then s.sec.identity.map Prod.snd else none

/-- The attestation report for a nonce. -/
def State.report (s : State) (key nonce : Bytes) : Bytes :=
  let body := leBytes 4 0x54415A44 ++ leBytes 2 s.moduleId ++ leBytes 1 s.lcState ++ leBytes 1 (s.ob 0x8300 1) ++
    leBytes 8 s.tickNo ++ leBytes 4 (s.ob 0x1200 9) ++ leBytes 4 s.sec.log.length ++ fit 32 nonce ++
    fit 64 s.logDigest ++ fit 64 (Config.sha512 s.fuse.serial) ++ List.replicate 328 0
  body ++ fit 512 (Config.rsaSign key body)

/-- ATTEST_NONCE: the report is formed, signed and held. -/
def State.attest (s : State) (nonce : Bytes) : State :=
  match s.signKey with
  | none => s
  | some k => s.setDom 0x840004 0 (s.report k nonce)

/-! ### Firmware (R426, R427) -/

/-- FLOOR_ADVANCE of 1. -/
def State.advanceFloor (s : State) : State :=
  match s.sec.running with
  | none => s
  | some im => (s.setReg (okey 0x8300 1) im.secVersion).raise 0x8005 1 (s.ob 0x8300 1) im.secVersion

/-- UPDATE_CONTROL 1: the target is the image that did not boot. -/
def State.openUpdate (s : State) : State :=
  { s with sec := { s.sec with stage := some (1 - bits (s.ob 0x1200 6) 0 0, []) } }

/-- UPDATE_CONTROL 3. -/
def State.abandonUpdate (s : State) : State := { s with sec := { s.sec with stage := none } }

/-- IMAGE_CHUNK: one segment at its image offset. -/
def State.stageSegment (s : State) (content : Bytes) : State :=
  match s.sec.stage with
  | none => s
  | some (t, l) => { s with sec := { s.sec with stage := some (t, l ++ [(leNat (content.take 8), content.drop 8)]) } }

/-- The n-th of the four image copies replaced. -/
def setCopy (l : List ImageCopy) (i : Nat) (im : ImageCopy) : List ImageCopy :=
  (l.zip (List.range l.length)).map fun x => if x.2 = i then im else x.1

/-- UPDATE_CONTROL 2: the staged image is verified and written to both devices, or discarded (R427). A Fixer part and a
policy image wait for their live switches. -/
def State.commitUpdate (s : State) (im : ImageCopy) : State :=
  match s.sec.stage with
  | none => s
  | some (t, _) =>
    let s := s.abandonUpdate
    let reject (s : State) (why : Nat) : State := s.raise 0x8004 2 im.version.toNat why
    if !im.sigOk then reject s 0
    else if !im.digestOk then reject s 1
    else if im.secVersion < s.ob 0x8300 1 then reject s 2
    else
      let images := setCopy (setCopy s.sec.images t im) (2 + t) im
      let s := { s with sec := { s.sec with images := images, policyDue := if im.flagPolicy then some im else s.sec.policyDue } }
      if im.parts.any fun p => decide (p.1 = 4) then
        (List.range 16).foldl (fun s f =>
          if s.live (Die.ofIx (48 + f)) then s.setFixer f { s.fixer f with newImage := some im } else s) s
      else s

/-- A policy image switches the die managers at a boundary at which no step-muster release is due (R427). -/
def State.switchPolicy (s : State) : State :=
  match s.sec.policyDue with
  | none => s
  | some im =>
    let s := { s with sec := { s.sec with policyDue := none, policy := some im.version } }
    (allTrify.filter s.live).foldl (fun s d => s.logPart d 1 im) s

/-- FIXER_FIRMWARE_SWITCH (R338): once no UPDATE, CHECKPOINT or CONTACT_SHEET of the die is admitted or held. -/
def execFixerFirmwareSwitch (f : Fin 16) (s : State) : Answer :=
  let d := Die.f f
  let busy := s.cmds.any fun c => decide (s.qDie c.q = d) && c.active && decide (c.phase ≠ .done) &&
    decide (dOpcode c.desc = opUpdate ∨ dOpcode c.desc = opCheckpoint ∨ dOpcode c.desc = opSheet)
  done s (match (s.fixer f.val).newImage with
    | none => s
    | some im => if busy ∨ !s.live d then s
      else (s.setFixer f.val { s.fixer f.val with newImage := none }).logPart d 4 im)

/-! ### Sessions (R432) -/

/-- A path's address and port, as they are signed. -/
def pathBytes : Path → Bytes
  | .mailbox => List.replicate 18 0
  | .iltur a p => leBytes 16 a ++ leBytes 2 p

/-- A read of CHALLENGE makes a fresh one for its client. -/
def State.newChallenge (s : State) (p : Path) : State :=
  let c := fit 64 (Config.random64 s.sec.random)
  let s := s.draw64
  { s with sec := { s.sec with challenges := (p, s.tickNo, c) :: s.sec.challenges.filter fun x => !decide (x.1 = p) } }

/-- A client's challenge, where it is not stale. -/
def State.challenge? (s : State) (p : Path) : Option Bytes :=
  match s.sec.challenges.find? fun x => decide (x.1 = p) with
  | none => none
  | some x => if s.msSince x.2.1 ≤ 10000 then some x.2.2 else none

/-- The public key of a slot; in RETURN, Dziso's return key (R422). -/
def State.slotKey (s : State) (slot : Nat) : Bytes :=
  if s.lcState = lcReturn then Config.returnKey else s.domBytes 0x810004 (516 * slot) 516

/-- What SESSION_OPEN finds: none, the reason of AUTH_FAIL. -/
def State.openCheck (s : State) (p : Path) (slot : Nat) (sig : Bytes) : Option Nat :=
  match s.challenge? p with
  | none => some 1
  | some c =>
    if Config.rsaVerify (s.slotKey slot) (Config.sha512 (c ++ s.fuse.serial ++ pathBytes p)) sig then none else some 0

/-- A session opens: its key is formed and sealed for the client. -/
def State.openSession (s : State) (p : Path) (slot : Nat) : State :=
  let k := fit 64 (Config.random64 s.sec.random)
  let s := (s.draw64).closeSession p
  { s with sec := { s.sec with sessions := s.sec.sessions ++
      [{ path := p, slot := slot, key := k, rx := 0, tx := 0, sealed := fit 512 (Config.oaep (s.slotKey slot) k), opened := s.tickNo }] } }

/-- SESSION_KEY as its opener reads it, for 10 s; zeros for any other reader. -/
def State.sessionKey (s : State) (p : Path) : Bytes :=
  match s.session? p with
  | some x => if s.msSince x.opened ≤ 10000 then x.sealed else List.replicate 512 0
  | none => List.replicate 512 0

/-! ### Tamper (R435, R436) -/

/-- TAMPER_TRIP: banks are wiped, sessions close, what is staged or not yet blown is dropped, power is removed; before Ready
bring-up stops. -/
def State.tamper (s : State) (source : Nat) (d : Die) (failed : List Die) : State :=
  if !s.boot.aux ∨ s.boot.resetHeld ∨ source = 0 then s
  else
    let s := (s.wipe failed).closeSessions
    let s := { s with sec := { s.sec with stage := none, lcPending := none, policyDue := none } }
    let s := s.bump (okey 0x8500 1) 1
    let s := s.tell 0x8001 3 source (unitOfDie d).toNat
    if s.boot.tamperHold then s
    else if s.boot.step = 11 then
      let s := s.removePower
      { s with boot := { s.boot with tamperHold := true } }
    else
      let s := s.stopBoot 0x8C source
      { s with boot := { s.boot with tamperHold := true } }

def execTamperTrip (source : Fin 5) (die : Die) (wipeFail : List Die) (s : State) : Answer :=
  doneMem s (s.tamper source.val die wipeFail)

/-! ### SPDM and DOE (R369, R428) -/

/-- A request of the DOE mailbox is answered; what the standards lay out is a function of the request and of the content
that the module puts into it. -/
def State.doe (s : State) (which : Nat) (request content : Bytes) : State :=
  if s.hostUp ∧ s.serves then s.send (.protocol which (Config.protocolAnswer which (request ++ content))) else s

/-- The certificate chain as it was written. -/
def State.certChain (s : State) : Bytes := s.domBytes 0x800005 0 (s.reg 0x800005)

def execDoeDiscovery (request : Bytes) (s : State) : Answer := done s (s.doe 2 request [])
def execGetVersion (request : Bytes) (s : State) : Answer :=
  done s ({ s with host := { s.host with negotiated := if s.hostUp then false else s.host.negotiated } }.doe 3 request [])
def execGetCapabilities (request : Bytes) (s : State) : Answer := done s (s.doe 4 request [])
def execNegotiateAlgorithms (request : Bytes) (pss4096 hash512 : Bool) (s : State) : Answer :=
  let s' := if s.hostUp then { s with host := { s.host with negotiated := pss4096 && hash512 } } else s
  done s (s'.doe 5 request [if pss4096 && hash512 then 1 else 0])
def execGetDigests (request : Bytes) (s : State) : Answer :=
  done s (s.doe 6 request (if s.host.negotiated then Config.sha512 s.certChain else []))
def execGetCertificate (request : Bytes) (offset len : Nat) (s : State) : Answer :=
  done s (s.doe 7 request (if s.host.negotiated then (s.certChain.drop offset).take len else []))
def execChallenge (request : Bytes) (s : State) : Answer :=
  done s (s.doe 8 request (if s.host.negotiated then Config.rsaSign (s.signKey.getD []) (Config.sha512 request) else []))
def execGetMeasurements (request : Bytes) (s : State) : Answer :=
  done s (s.doe 9 request (if s.host.negotiated then s.sec.log.flatMap logBytes else []))

end Sys2Proof.Machine
end

