-- ==== Sys2Proof/Machine/Bringup.lean ====
section
/-! DEFINITION. From power to Ready (chapter 15): the strap latch, the ten steps, stops and restarts, reset and the removal
of power; the sideband inputs (R461, R469). -/

namespace Sys2Proof.Machine

/-! ### What outlives a boot -/

/-- Objects that fuses, straps or NOR devices hold: STRAPS, MODULE_ID, PLCA_NODE_ID, POWER_ON_COUNT, ESTOP_CAUSE, LC_STATE,
FLOOR, the length of CERT_CHAIN (log entry 37). -/
def keptRegs : List Nat := [0x120005, 0x510001, 0x110001, 0x120009, 0x201004, 0x800001, 0x830001, 0x800005]
/-- CERT_CHAIN and OPERATOR_KEYS. -/
def keptDoms : List Nat := [0x800005, 0x810004]

/-- The pithead boots anew: the dictionary reads its defaults, the event ring is empty, and what fuses and NOR devices hold
stands (R48, R64, R406). -/
def State.coldStart (s : State) : State :=
  let r := State.reset
  { r with
    pending := s.pending
    fuse := s.fuse
    regs := s.regs.filter fun (p : Nat × Nat) => memN p.1 keptRegs
    dom := s.dom.filter fun (p : Nat × Byte) => memN (p.1 / 16777216) keptDoms
    mem := s.mem
    num := { r.num with copies := s.num.copies, counter := s.num.counter }
    boot := { r.boot with aux := s.boot.aux, resetHeld := s.boot.resetHeld, latched := s.boot.latched, sb2 := s.boot.sb2
                          inputs := s.boot.inputs, causes := s.boot.causes, totalMs := s.boot.totalMs }
    sec := { r.sec with random := s.sec.random, returns := s.sec.returns, identity := s.sec.identity, images := s.sec.images }
    out := s.out }

/-! ### Straps and reset (R402–R405) -/

/-- The time of a step enters STEP_MS and the total (R420). -/
def State.addMs (s : State) (step ms : Nat) : State :=
  let off := 4 * (step - 1)
  let s := s.setDomNat 0x120003 off 4 (s.domNat 0x120003 off 4 + ms)
  { s with boot := { s.boot with totalMs := s.boot.totalMs + ms } }

/-- AUX_POWER_GOOD (R402): the strap phase begins; times count from here. -/
def execAuxPowerGood (elapsedMs : Nat) (s : State) : Answer :=
  done s (if s.boot.aux then s
    else
      let s := s.setDomNat 0x120003 0 4 elapsedMs
      { s with boot := { s.boot with aux := true, resetHeld := true, latched := false, step := 1, totalMs := 0 } })

/-- STRAP_LATCH (R402): MODULE_ID is S, PLCA_NODE_ID is 1 + (S mod 254); from here on SB2 is the stop input (R403). -/
def execStrapLatch (straps : BitVec 12) (s : State) : Answer :=
  let v := straps.toNat
  done s (if !s.boot.aux ∨ !s.boot.resetHeld ∨ s.boot.latched then s
    else
      let s := ((s.setReg (okey 0x1200 5) v).setReg (okey 0x5100 1) v).setReg (okey 0x1100 1) (1 + v % 254)
      { s with boot := { s.boot with latched := true, sb2 := bit v 2 } })

/-- RESET_RELEASE (R403, R404): the boot phase begins, or bring-up stops where SB2 is still asserted. -/
def execResetRelease (heldMs : Nat) (s : State) : Answer :=
  doneMem s (if !s.boot.aux ∨ !s.boot.resetHeld ∨ !s.boot.latched then s
    else
      let s := { s with boot := { s.boot with resetHeld := false, step := 1, totalMs := heldMs } }
      if s.boot.sb2 then
        let s := s.setBootCode 1
        { s with boot := { s.boot with step := 2 } }
      else s.emergency 1 0)

/-- RESET_ASSERT (R405): power is removed by the sequence of R383, and bring-up starts again at step 1. -/
def execResetAssert (s : State) : Answer :=
  doneMem s (if !s.boot.aux ∨ s.boot.resetHeld then s
    else
      let s := s.removePower.coldStart
      { s with boot := { s.boot with resetHeld := true, latched := false, step := 1, totalMs := 0 } })

/-- POWER_REMOVED (R383): what stands in fuses and NOR devices stays. -/
def execPowerRemoved (s : State) : Answer :=
  doneMem s (let s := s.coldStart
    { s with mem := Mem.forget s.mem 0 (hostAt 0)
             boot := { s.boot with aux := false, resetHeld := true, latched := false, step := 0, sb2 := true, inputs := []
                                   causes := [], totalMs := 0 } })

/-- SB_INPUT_LEVEL_CHANGE (R382, R461, R469): SB2 asserted after the latch is an emergency stop. -/
def execSbInputLevelChange (pin : InPin) (level : Bool) (s : State) : Answer :=
  doneMem s (match pin, level with
    | .sb2, true => ({ s with boot := { s.boot with sb2 := true } }).dropCause 1
    | .sb2, false =>
      let s := { s with boot := { s.boot with sb2 := false } }
      if s.boot.latched then s.emergency 1 (floorFx (Fx.mul (f32.decode (s.ob 0x2000 7)) (Fx.ofNat 1000))) else s
    | p, l => { s with boot := { s.boot with inputs := (p, l) :: s.boot.inputs.filter fun x => !decide (x.1 = p) } })

/-! ### Steps (R400) -/

/-- Bring-up stands in a step. -/
def State.inStep (s : State) (n : Nat) : Bool :=
  s.boot.aux && !s.boot.resetHeld && !s.boot.stopped && !s.boot.estop && decide (s.boot.step = n)

/-- A step's worst case in ms (R400). -/
def worstMs : Nat → Nat
  | 2 => 500
  | 3 => 3000
  | 4 => 6000
  | 5 => 400
  | 6 => 12000
  | 7 => 1200
  | 8 => 50
  | 9 => 35000
  | _ => 1000

/-- The timer of step 6 stands still while the cap is below 10,000 W (R419). -/
def State.timerStands (s : State) : Bool := decide (s.boot.step = 6 ∧ s.cap < 10000)

/-- A step ends and the next begins; one that ran past its worst case stops bring-up with TIMEOUT (R401). -/
def State.endStep (s : State) (n ms : Nat) : State :=
  let s := s.addMs n ms
  if worstMs n < s.domNat 0x120003 (4 * (n - 1)) 4 ∧ !s.timerStands then s.stopBoot 0x89 0
  else
    let s := s.setBootCode (n + 1)
    { s with boot := { s.boot with step := n + 1 } }

/-- BRINGUP_TIMEOUT (R401); step 10 goes on to Ready instead (R415). -/
def execBringupTimeout (s : State) : Answer :=
  doneMem s (if ((List.range 10).any fun n => decide (2 ≤ n) && s.inStep n) ∧ !s.timerStands then s.stopBoot 0x89 0 else s)

/-- Step 2 (R406, R422): the ROM self-checks give the pithead role. -/
def execRomSelfCheck (d0 d8 : Bool) (elapsedMs : Nat) (s : State) : Answer :=
  doneMem s (if !s.inStep 2 then s
    else
      let s := s.setBootCode 2
      if !d0 ∧ !d8 then s.stopBoot 0x82 0
      else
        let s := { s with boot := { s.boot with pithead := some (!d0) } }
        let s := s.setReg (okey 0x1200 8) (b2n (!d0))
        let s := s.showCap
        if s.lcState = lcScrap then (s.addMs 2 elapsedMs).stopBoot 0x85 4 else s.endStep 2 elapsedMs)

/-- An image copy may boot in this life-cycle state (R422). -/
def State.lcBoots (s : State) (im : ImageCopy) : Bool :=
  match s.lcState with
  | 0 => im.flagTest
  | 4 => false
  | _ => !im.flagTest

/-- The copies in the NOR devices: what the module wrote there, as it reads back; before the module has read them, what the
environment shows. -/
def State.foundCopies (s : State) (l : List ImageCopy) : List ImageCopy :=
  if s.sec.images.isEmpty then l
  else (s.sec.images.zip l).map fun x => { x.1 with sigOk := x.1.sigOk && x.2.sigOk, digestOk := x.1.digestOk && x.2.digestOk }

/-- Choose a copy (R407): the highest version left, device 0 before device 1; each copy that fails is rejected. -/
def chooseImage (l : List ImageCopy) : Nat → List Nat → Option (Nat × ImageCopy) × List Nat
  | 0, rej => (none, rej)
  | n + 1, rej =>
    let left := (l.zip (List.range l.length)).filter fun x => !memN x.2 rej
    match left.foldl (fun (b : Option (ImageCopy × Nat)) x => match b with
        | none => some x
        | some y => if y.1.version.toNat < x.1.version.toNat then some x else some y) none with
    | none => (none, rej)
    | some x => if x.1.digestOk then (some (x.2, x.1), rej) else chooseImage l n (rej ++ [x.2])

/-- Step 3 (R407, R424, R428). -/
def State.selectImage (s : State) (copies : List ImageCopy) (ms : Nat) : State :=
  let s := s.bump (okey 0x1200 9) 1
  let l := s.foundCopies copies
  let s := { s with sec := { s.sec with images := l, log := [] } }
  let floor := s.ob 0x8300 1
  let bad (im : ImageCopy) : Bool := !im.sigOk || decide (im.secVersion < floor) || !s.lcBoots im
  let rej := ((l.zip (List.range l.length)).filter fun x => bad x.1).map Prod.snd
  let r := chooseImage l 4 rej
  let mask := maskOf 4 fun i => memN i r.2
  let s := s.setReg (okey 0x1200 7) mask
  match r.1 with
  | none =>
    let good := l.filter ImageCopy.sigOk
    if !good.isEmpty ∧ good.all fun im => decide (im.secVersion < floor) then (s.addMs 3 ms).stopBoot 0x84 mask
    else (s.addMs 3 ms).stopBoot 0x83 mask
  | some (i, im) =>
    let s := s.setReg (okey 0x1200 6) i
    let s := { s with sec := { s.sec with
      running := some im, policy := if im.flagPolicy then some im.version else none
      unwrapped := s.sec.identity.isSome
      sealed := if s.sec.identity.isSome then [32, 40] else [] } }
    let s := (s.logPart (.d 0) 0 im).logPart (.d 8) 0 im
    let used := (l.zip (List.range l.length)).any fun x => decide (x.1.version = im.version) && memN x.2 r.2
    let s := if used then s.raise 0x1203 1 mask i else s
    s.endStep 3 ms

def execImageSelect (copies : List ImageCopy) (elapsedMs : Nat) (s : State) : Answer :=
  doneMem s (if s.inStep 3 then s.selectImage copies elapsedMs else s)

/-- A die is fenced for the power cycle in bring-up, with no entry in the list (R409, R470). -/
def State.fenceBoot (s : State) (d : Die) : State :=
  if s.fenced d then s
  else { s with num := { s.num with fenced := s.num.fenced ++ [d] }
                boot := { s.boot with powered := s.boot.powered.filter fun x => !decide (x = d)
                                      admitted := s.boot.admitted.filter fun x => !decide (x = d) } }

/-- A unit failed in bring-up outside the start-up test. -/
def State.bootUnit (s : State) (u : BitVec 32) : State :=
  if memN u.toNat (s.num.unitFails.map BitVec.toNat) then s
  else { s with num := { s.num with unitFails := s.num.unitFails ++ [u] } }

/-- The dies of a wave, counted from 0 (R409). -/
def waveDies : Nat → List Die
  | 0 => allDrift ++ allFixer
  | 1 => []
  | w => (List.range 8).map fun j => Die.ofIx (8 * (w - 2) + j)

/-- One wave of step 4 (R409). -/
def State.wave (s : State) (railFail : List Die) (channelFail : List (Nat × Nat)) (stackFail : List Nat) (ms : Nat) : State :=
  let w := s.boot.waves
  let s := if w = 0 then { s with sec := { s.sec with heldReset := [] } } else s
  let ds := (waveDies w).filter fun d => !s.fenced d
  let failed := ds.filter fun d => railFail.any fun x => decide (x = d)
  let s := { s with boot := { s.boot with powered := s.boot.powered ++ ds } }
  let s := failed.foldl (fun s d => (s.fenceBoot d).raiseAt 0x1205 2 (unitOfDie d) 0 0 (unitOfDie d).toNat (w + 1)) s
  let s := if w = 1 then channelFail.foldl (fun s x =>
      (s.bootUnit (unitId (Die.ofIx (48 + x.1)) 6 x.2)).fenceBoot (Die.ofIx (48 + x.1))) s else s
  let s := if 2 ≤ w then (stackFail.filter fun u => decide (u / 16 = w - 2)).foldl (fun s u =>
      s.bootUnit (unitId (Die.ofIx (u / 2)) 3 (u % 2))) s else s
  let s := { s with boot := { s.boot with waves := w + 1 } }
  if w = 5 then s.endStep 4 ms else s.addMs 4 ms

def execPowerWave (railFail : List Die) (channelFail : List (Fin 16 × Fin 16)) (stackFail : List (Fin 64)) (elapsedMs : Nat)
    (s : State) : Answer :=
  doneMem s (if s.inStep 4 then
    s.wave railFail (channelFail.map fun x => (x.1.val, x.2.val)) (stackFail.map Fin.val) elapsedMs else s)

/-- INRUSH (R409). -/
def execInrush (s : State) : Answer :=
  doneMem s (if s.inStep 4 then s.stopBoot 0x86 (s.boot.waves + 1) else s)

/-- Step 5 (R408, R428): a die that fails verification twice is fenced, every other powered die is admitted. -/
def State.broadcast (s : State) (failTwice : List (Die × Bool)) (ms : Nat) : State :=
  let s := failTwice.foldl (fun (s : State) (x : Die × Bool) =>
    if s.boot.powered.any fun d => decide (d = x.1) then
      (s.fenceBoot x.1).raiseAt 0x1204 2 (unitOfDie x.1) 0 0 (unitOfDie x.1).toNat (b2n x.2)
    else s) s
  let ds := allDies.filter fun d => s.boot.powered.any fun x => decide (x = d)
  let s := { s with boot := { s.boot with admitted := ds } }
  let s := match s.sec.running with
    | none => s
    | some im => ds.foldl (fun s d => (dieParts d).foldl (fun s k => s.logPart d k im) s) s
  s.endStep 5 ms

def execFirmwareBroadcast (failTwice : List (Die × Bool)) (elapsedMs : Nat) (s : State) : Answer :=
  doneMem s (if s.inStep 5 then s.broadcast failTwice elapsedMs else s)

/-- Step 6 (R410, R322): failed units are noted with the group that failed first; every good shaft's T_pass is this tick. -/
def State.tested (s : State) (failed : List (BitVec 32 × Nat)) (ms : Nat) : State :=
  let s := { s with num := { s.num with startFail := failed.filter fun f => s.live (dieOfUnit f.1) } }
  let s := (List.range 32).foldl (fun s t =>
    let ok (p : Nat) : Bool := s.live (Die.ofIx t) && !s.num.startFail.any fun f => decide (f.1 = unitId (Die.ofIx t) 1 p)
    (List.range 18).foldl (fun s p => if ok p then s.setDomNat 0x710006 (8 * canKey t p) 8 s.tickNo else s) s) s
  s.endStep 6 ms

def execStartupTest (failed : List (BitVec 32 × Nat)) (elapsedMs : Nat) (s : State) : Answer :=
  doneMem s (if s.inStep 6 then s.tested failed elapsedMs else s)

/-- The defect union of every admitted die, its tables, and the dies that it leaves unfit (R23, R30, R16–R18). -/
def State.unionAll (s : State) : State :=
  (allDies.filter s.live).foldl (fun s d =>
    let s := s.unionUnits d
    match d with
    | .t t =>
      let s := (s.unionShafts t.val).setReg (dkeyOf d 0x13 2) (maskOf 18 fun p => s.num.startFail.any fun f =>
        decide (f.1 = unitId d 1 p))
      if s.dieUnfit d ∨ (s.goods t.val).isEmpty then (s.fenceBoot d).clearTable t.val else s.buildTable t.val 16
    | _ => if s.dieUnfit d then s.fenceBoot d else s) s

/-- Step 7 with the list chosen: the union of every die, the new entries appended, the shape shown (R23, R26, R411, R471). -/
def State.unionDone (s : State) : State :=
  let n := s.contradictions
  let s := s.unionAll.setReg (okey 0x7003 5) n
  let new := s.num.startFail.filter fun f => !memN f.1.toNat (s.fuse.bad.map BitVec.toNat) && !s.listed f.1
  let s := new.foldl (fun s f => s.noteEntry 1 f.2 f.1) s
  let s := if s.num.append.isEmpty then s else s.appendList
  (s.showList.showShape).bump (okey 0x7001 1) 1

/-- Step 7 (R411, R412). -/
def State.unionStep (s : State) (ms : Nat) : State :=
  match s.chooseList with
  | none => (s.addMs 7 ms).stopBoot 0x88 3
  | some s =>
    let s := s.unionDone
    if s.ob 0x7001 2 = 0 then (s.addMs 7 ms).stopBoot 0x87 0
    else if s.ob 0x7001 5 = 0 then (s.addMs 7 ms).stopBoot 0x87 1
    else s.endStep 7 ms

def execDefectUnion (elapsedMs : Nat) (s : State) : Answer :=
  doneMem s (if s.inStep 7 then s.unionStep elapsedMs else s)

/-- The local oscillator fails its check (R372). -/
def State.oscFailed (s : State) (d : Die) : State :=
  (s.tell 0x5803 3 (unitOfDie d).toNat 0).emergency 5 0

/-- Step 8 (R413). -/
def execClockSetup (oscFail : Option Die) (elapsedMs : Nat) (s : State) : Answer :=
  doneMem s (if !s.inStep 8 then s
    else match oscFail with
      | some d => (s.addMs 8 elapsedMs).oscFailed d
      | none => ({ s with clk := { s.clk with running := true } }).endStep 8 elapsedMs)

/-- Step 9 ends when every port is up, without spare, held down or without a peer (R414). -/
def State.settleLinks (s : State) : State :=
  if s.inStep 9 ∧ s.boot.training.isEmpty then
    let s := s.setBootCode 10
    { s with boot := { s.boot with step := 10 } }
  else s

/-- Step 9 begins (R414): a port without a cable has no peer, one with a cable trains and qualifies; the ports of a fenced
die stay down. -/
def State.trainPorts (s : State) (cable peers : List Nat) (ms : Nat) : State :=
  let s := s.addMs 9 ms
  if worstMs 9 < s.domNat 0x120003 32 4 then s.stopBoot 0x89 0
  else
    let s := (List.range 64).foldl (fun s p =>
      let has := memN p cable || memN p peers
      let s := s.setPort p { s.port p with cable := has }
      if !s.live (portDie p) then s.setPortState p 6
      else if has then
        let s := s.setPortState p 1
        { s with boot := { s.boot with training := s.boot.training ++ [p] } }
      else s.setPortState p 0) s
    s.settleLinks

def execPortTraining (cable peers : List (Fin 64)) (elapsedMs : Nat) (s : State) : Answer :=
  doneMem s (if s.inStep 9 then s.trainPorts (cable.map Fin.val) (peers.map Fin.val) elapsedMs else s)

/-- PEER_TRAINING_TIMEOUT: a port whose peer has not trained within 18 s has no peer (R414). -/
def execPeerTrainingTimeout (port : Fin 64) (s : State) : Answer :=
  done s (if memN port.val s.boot.training then
    (({ s with boot := { s.boot with training := s.boot.training.filter fun x => decide (x ≠ port.val) } }).setPortState
      port.val 0).settleLinks else s)

/-- QUALIFICATION: the end of a port's window (R353, R354). -/
def execQualification (port : Fin 64) (failing : List (Fin 9)) (ratios : List (BitVec 32)) (peer : BitVec 12 × Fin 64)
    (s : State) : Answer :=
  let s' := s.qualified port.val (failing.map Fin.val) ratios peer.1.toNat peer.2.val
  done s (if memN port.val s.boot.training then s'.settleLinks else s')

/-- BOOT_FLAGS (R420). -/
def State.bootFlags (s : State) : Nat :=
  let ports (f : Nat → Bool) : Bool := (List.range 64).any fun p => f (s.portState p)
  16 * b2n (!s.hostUp) + 8 * b2n (ports fun v => decide (v = 3)) + 4 * b2n (ports fun v => decide (v = 5 ∨ v = 0)) +
    2 * b2n (!s.num.fenced.isEmpty) + b2n (decide (s.boot.pithead = some true))

/-- Ready (R416). -/
def State.ready (s : State) : State :=
  let s := { s with boot := { s.boot with step := 11, sourceDue := true } }
  let s := ((s.setBootCode 0x0B).setReg (okey 0x1200 4) s.boot.totalMs).setReg (okey 0x1200 8) s.bootFlags
  s.raise 0x1201 0 s.boot.totalMs s.bootFlags

/-- Step 10 (R415). -/
def execHostLinkTraining (link : Option (Fin 7 × Fin 32 × Bool)) (elapsedMs : Nat) (s : State) : Answer :=
  done s (if !s.inStep 10 then s
    else
      let s := s.addMs 10 (min elapsedMs 1000)
      let s := { s with host := { s.host with lost := s.fenced (.d 0) } }
      let s := match link with
        | some l => s.linkTrained l.1.val l.2.1.val l.2.2
        | none => s
      s.ready)

/-! ### Restarts (R418, R429) -/

/-- ESTOP_RESTART takes effect: bring-up from the powering of dies. -/
def State.restartStop (s : State) : State :=
  let s := (s.keepLog.setCap 3 false).setBootCode 4
  let s := (List.range 7).foldl (fun s j => s.setDomNat 0x120003 (12 + 4 * j) 4 0) s
  { s with boot := { s.boot with estop := false, stopped := false, step := 4, waves := 0 } }

/-- BOOT_RESTART takes effect: bring-up from step 2. -/
def State.restartBoot (s : State) : State :=
  let s := s.coldStart
  { s with boot := { s.boot with step := 2, stopped := false } }

end Sys2Proof.Machine
end

