-- ==== Sys2Proof/Machine/Observe.lean ====
section
/-! DEFINITION. Observation (chapter 17): samples of tallies (R443, R444), the trace buffers (R445, R449–R452), breakpoints
(R453–R455). -/

namespace Sys2Proof.Machine

/-! ### Tallies (R441–R444) -/

/-- The command bound to an engine of a logical shaft: admitted, suspended or halted. -/
def State.boundTo (s : State) (t g e : Nat) : Option Cmd :=
  s.cmds.find? fun c => c.active && decide (c.phase ≠ .done) &&
    decide (s.qDie c.q = Die.ofIx t ∧ dShaft c.desc = g ∧ dEngine c.desc = e)

/-- Largest value of a tally. -/
def tallyTop : Nat := 2 ^ 48 - 1

/-- A sample of tally k of logical shaft g (R443), as the 256-bit record. -/
def State.sample (s : State) (t g k : Nat) : Nat :=
  let x := SMap.get Tally.fresh s.obs.tallies (tallyKey t g k)
  let tick := (s.tickNo % 2 ^ 32) * 2 ^ 32
  let sat (v : Nat) : Nat := if v = tallyTop then 4 else 0
  match s.boundTo t g (bits (s.tallySel t g k) 23 22) with
  | some c =>
    dTag c.desc * 2 ^ 192 + dOperator c.desc * 2 ^ 176 + dLayer c.desc * 2 ^ 160 + dStep c.desc * 2 ^ 128 + x.live * 2 ^ 80 +
      tick + sat x.live + 2
  | none =>
    x.tag.toNat * 2 ^ 192 + x.op.toNat * 2 ^ 176 + x.layer.toNat * 2 ^ 160 + x.step.toNat * 2 ^ 128 + x.print * 2 ^ 80 + tick +
      8 * b2n x.dropped + sat x.print + 1

/-- A WATCH value: FROM_PRINT, SATURATED and VALUE of a sample (R457). -/
def watchOf (v : Nat) : Nat := bits v 0 0 * 2 ^ 63 + bits v 2 2 * 2 ^ 62 + bits v 127 80

/-- Some selector of a die has been written: with none, no tally of the die is enabled. -/
def State.selected (s : State) (t : Nat) : Bool :=
  s.dom.any fun c => decide (c.1 / 16777216 = okey (0xA000 + 0x100 * t + 0x80) 1)

/-- Step 1 of R76: every enabled tally is sampled into TALLY_IMAGE, and the watched ones are latched (R444). -/
def State.latchTallies (s : State) : State :=
  let s := (List.range 32).foldl (fun s t =>
    if s.live (Die.ofIx t) && s.selected t then
      (List.range 1024).foldl (fun s i =>
        if bit (s.tallySel t (i / 64) (i % 64)) 21 then
          s.setDomNat (okey (0xA000 + 0x100 * t + 0x81) 1) (32 * i) 32 (s.sample t (i / 64) (i % 64))
        else s) s
    else s) s
  (List.range 64).foldl (fun s k =>
    let w := s.domNat 0x900001 (4 * k) 4
    let (t, g, j) := (bits w 31 27, bits w 26 23, bits w 22 17)
    if bit (s.tallySel t g j) 21 then s.setReg (okey 0x9010 (k + 1)) (watchOf (s.sample t g j)) else s) s

/-- Selectors of a die change: a changed one clears both copies of its tally (R439). -/
def State.selectTallies (s : State) (t : Nat) (content : Bytes) : State :=
  (List.range 1024).foldl (fun s i =>
    let new := leNat ((content.drop (4 * i)).take 4)
    if new = s.tallySel t (i / 64) (i % 64) then s
    else
      let s := s.setDomNat (okey (0xA000 + 0x100 * t + 0x80) 1) (4 * i) 4 new
      { s with obs := { s.obs with tallies := SMap.del s.obs.tallies (tallyKey t (i / 64) (i % 64)) } }) s

/-- SAMPLE: the tally that SAMPLE_ADDR names, at the read (R444). -/
def State.sampleNow (s : State) (t : Nat) : Bytes :=
  let a := s.ob (0xA000 + 0x100 * t + 0x82) 1
  leBytes 32 (s.sample t (bits a 9 6) (bits a 5 0))

/-! ### Traces (R449–R452) -/

/-- A trace record's 32 bytes (R445). -/
def TraceRec.bytes (r : TraceRec) : Bytes :=
  leBytes 32 (r.arg1.toNat * 2 ^ 224 + r.arg0.toNat * 2 ^ 192 + r.op.toNat * 2 ^ 176 + r.layer.toNat * 2 ^ 160 +
    r.kind * 2 ^ 152 + r.source % 16 * 2 ^ 148 + r.unit % 32 * 2 ^ 143 + b2n r.full * 2 ^ 142 + b2n r.trigger * 2 ^ 141 +
    r.tick % 2 ^ 32 * 2 ^ 96 + r.time % 2 ^ 32 * 2 ^ 64 + r.cc % 2 ^ 32 * 2 ^ 32 + r.seq % 2 ^ 32)

/-- TRACE_BUFFER, oldest record first (R452). -/
def State.traceBytes (s : State) (t : Nat) : Bytes := (s.traceBuf t).recs.reverse.flatMap TraceRec.bytes

/-- TRACE_ARM of 1: every buffer is emptied, SEQUENCE and the counts are zero, TRACE_STATE reads 1; each bin wakes (R280). -/
def State.armTrace (s : State) : State :=
  let s := { s with obs := { s.obs with traces := [], trigTick := none } }
  let s := (List.range 32).foldl (fun s t => s.wake t 18) s
  let s := (List.range 32).foldl (fun s t =>
    ((s.setReg (okey (0xA000 + 0x100 * t + 0x90) 2) 0).setReg (okey (0xA000 + 0x100 * t + 0x90) 3) 0)) s
  s.setReg (okey 0x9110 8) 1

/-- TRACE_ARM of 0: recording stops. -/
def State.stopTrace (s : State) : State := s.setReg (okey 0x9110 8) 0

/-- TRACE_FREEZE: a die's buffer freezes 1,000 ticks after the trigger (R451); after POST_COUNT records it has frozen as it
wrote the last. -/
def execTraceFreeze (die : Fin 32) (s : State) : Answer :=
  let b := s.traceBuf die.val
  done s (match s.obs.trigTick with
    | none => s
    | some t =>
      if s.ob 0x9110 8 = 2 ∧ (t + 1000 ≤ s.tickNo ∨ b.post = some 0) then (s.setTraceBuf die.val { b with frozen := true }).showFrozen
      else s)

/-- FULL_EXPOSURE_ARM (R448, R458). -/
def State.armFull (s : State) (on : Bool) : State :=
  let n := ((List.range 32).map fun t => ((List.range 64).filter fun i => bit (s.domNat 0x920002 (8 * t) 8) i).length).sum
  (s.setReg (okey 0x9200 1) (b2n on)).raise 0x9002 1 n (b2n (!on))

/-! ### Breakpoints (R453–R456) -/

/-- Entry i of BREAKPOINTS of Trify die t. -/
def State.breakEntry (s : State) (t i : Nat) : Nat := s.domNat (okey (0xA000 + 0x100 * t + 0x84) 1) (16 * i) 16

/-- Core number of a local core of a Trify die (R19). -/
def coreNumber (t core : Nat) : Nat := 8192 + t * 256 + core

/-- The logical shaft that runs on a physical one: in a shared host, the lower number. -/
def State.logicalOn (s : State) (t p : Nat) : Option Nat := (s.hosted t p).head?

/-- A core is halted. -/
def State.coreHalted (s : State) (t core : Nat) : Bool := s.obs.halted.any fun h => decide (h = (t, core))

/-- The cores that a hit halts, by SCOPE (R454). -/
def scopeCores (scope core : Nat) : List Nat :=
  match scope with
  | 0 => [core]
  | 1 => if core < 72 then (List.range 4).map fun j => core / 4 * 4 + j else [core]
  | _ => List.range 76

/-- HALTED (object B+0x84.02) shows the halted cores. -/
def State.showHalted (s : State) (t : Nat) : State :=
  s.setDomNat (okey (0xA000 + 0x100 * t + 0x84) 2) 0 16 (maskOf 76 fun c => s.coreHalted t c)

/-- A command that a stop of its engine concerns. -/
def stopsAt (p : Phase) : Bool := decide (p = .admitted ∨ p = .suspended ∨ p = .halted)

/-- The engines of a scope stop: every context of their commands halts with BREAKPOINT (R245, R454), which a suspended or halted
command records (R252). -/
def State.stopEngines (s : State) (t : Nat) (mine : Nat → Bool) : State :=
  (s.cmds.filter fun c => stopsAt c.phase && decide (s.qDie c.q = Die.ofIx t) && mine (dShaft c.desc)).foldl
    (fun s c => c.bound.foldl (fun s b => match s.cmd? c.q c.slot with
      | some c => s.haltCmd c b.1 .breakpoint none
      | none => s) s) s

/-- BREAKPOINT_HIT (R454). -/
def State.breakHit (s : State) (t core i : Nat) : State :=
  let e := s.breakEntry t i
  let p := core / 4
  let kind := bits e 47 44
  let scope := bits e 43 42
  let want := bits e 63 48
  if !s.live (Die.ofIx t) ∨ kind = 0 ∨ 5 < kind ∨ s.coreHalted t core ∨ !(want = 0xFFFF ∨ want = coreNumber t core) ∨
      (core < 72 ∧ s.physState t p ≠ 0 ∧ s.physState t p ≠ 2) then s
  else
    let d := Die.ofIx t
    let g := if core < 72 then s.logicalOn t p else none
    let new := (scopeCores scope core).filter fun c => !s.coreHalted t c
    let s := { s with obs := { s.obs with halted := s.obs.halted ++ new.map fun c => (t, c) } }
    let s := (s.showHalted t).setReg (okey (0xA000 + 0x100 * t + 0x84) 4) (coreNumber t core * 65536 + i)
    let s := s.traceWith (bit e 41) d 0x0C (if core < 72 then 4 else 5) (g.getD 0) 0 0 (coreNumber t core) i
    let s := s.raiseAt 0x9003 1 (unitOfDie d) 0 0 (coreNumber t core) i
    let s := match scope with
      | 0 => s
      | 1 => s.stopEngines t fun x => core < 72 && decide (s.physOf t x = p)
      | _ => s.stopEngines t fun _ => true
    if bit e 40 then s.setDomNat (okey (0xA000 + 0x100 * t + 0x84) 1) (16 * i) 16 (setBits e 47 44 0) else s

def execBreakpointHit (die : Fin 32) (core : Fin 76) (index : Fin 8) (s : State) : Answer :=
  done s (s.breakHit die.val core.val index.val)

/-- BREAK_CONTROL of 1: every halted core of the die resumes, and the cause BREAKPOINT clears (R455). -/
def State.breakGo (s : State) (t : Nat) : State :=
  let s := ({ s with obs := { s.obs with halted := s.obs.halted.filter fun h => decide (h.1 ≠ t) } }).showHalted t
  let cs := (s.ctxs.filter fun (p : Nat × Ctx) => decide (ctxDie p.1 = t) && p.2.causes.any fun k => decide (k = .breakpoint)).map
    Prod.fst
  cs.foldl (fun s c => s.clearCause c .breakpoint) s

end Sys2Proof.Machine
end

