-- ==== Sys2Proof/Machine/Service.lean ====
section
/-! DEFINITION. The dictionary service, part 1: abort codes (R65), the bytes of messages (R50), what drops a message
(R50, R62), what an object holds (R41, R42, R47, R48), the content of DOMAIN objects, kept responses (R58) and sessions
(R433). -/

namespace Sys2Proof.Machine

/-! ### Abort codes (R65) -/

def abOk : Nat := 0
def abNoIndex : Nat := 0x06010001
def abNoSub : Nat := 0x06010002
def abReadOnly : Nat := 0x06010003
def abWriteOnly : Nat := 0x06010004
def abType : Nat := 0x06020001
def abReserved : Nat := 0x06020002
def abBelow : Nat := 0x06030001
def abAbove : Nat := 0x06030002
def abValue : Nat := 0x06030003
def abInconsistent : Nat := 0x06030004
def abState : Nat := 0x06040001
def abLifeCycle : Nat := 0x06040002
def abJob : Nat := 0x06040003
def abBusy : Nat := 0x06040004
def abNoSession : Nat := 0x06050001
def abAuth : Nat := 0x06050002
def abSequence : Nat := 0x06060001
def abExpired : Nat := 0x06060002
def abAbandoned : Nat := 0x06060003
def abLimit : Nat := 0x06070001
def abBusLoad : Nat := 0x06070002
def abService : Nat := 0x06080001
def abReused : Nat := 0x06080002
def abHandover : Nat := 0x06090001
def abFenced : Nat := 0x06090002
def abNotYet : Nat := 0x06090003
def abInternal : Nat := 0x06090004

/-- Service codes (R50). -/
def svRead : Nat := 1
def svWrite : Nat := 2
def svReadBlock : Nat := 3
def svWriteBlock : Nat := 4
def svSubscribe : Nat := 5

/-! ### Bytes of a message (R50) -/

/-- The 24 header bytes of a request. -/
def msgHeader (m : Msg) (svc : Nat) (describe : Bool) : Bytes :=
  leBytes 24 (m.tick.toNat * 2 ^ 160 + m.abort.toNat * 2 ^ 128 + m.offset.toNat * 2 ^ 96 + m.requestId.toNat * 2 ^ 80 +
    m.length.toNat * 2 ^ 64 + m.reservedB.toNat * 2 ^ 60 + b2n m.session * 2 ^ 59 + b2n m.pendingFlag * 2 ^ 58 +
    b2n (describe || m.describe) * 2 ^ 57 + b2n m.last * 2 ^ 56 + m.sub.toNat * 2 ^ 48 + m.index.toNat * 2 ^ 32 + svc * 2 ^ 24 +
    m.reservedA.toNat * 2 ^ 17 + b2n m.response * 2 ^ 16 + m.version.toNat * 2 ^ 8 + m.magic.toNat)

/-- A trailer's bytes (R433). -/
def trailerBytes (t : Trailer) : Bytes := leBytes 8 t.counter.toNat ++ t.mac

/-- Every byte of a request before its CRC. -/
def msgBody (m : Msg) (svc : Nat) (describe : Bool) : Bytes :=
  msgHeader m svc describe ++ m.payload ++ ((m.trailer.map trailerBytes).getD [])

/-- The bytes that a MAC covers: all before byte 8 of the trailer (R433). -/
def msgSigned (m : Msg) (svc : Nat) (describe : Bool) : Bytes :=
  msgHeader m svc describe ++ m.payload ++ ((m.trailer.map fun t => leBytes 8 t.counter.toNat).getD [])

/-- The header bytes of the response to a request; `session`: it carries a trailer. -/
def answerHeader (m : Msg) (svc : Nat) (describe : Bool) (r : Resp) (session : Bool) : Bytes :=
  msgHeader { m with tick := r.tick, abort := BitVec.ofNat 32 r.abort, length := BitVec.ofNat 16 r.payload.length
                     last := r.last, pendingFlag := r.pending, session := session, response := true
                     reservedA := 0, reservedB := 0 } svc describe

/-- A whole Iltur message: what stands before its CRC-32C, and the CRC (R50). -/
def withCrc (b : Bytes) : Bytes := b ++ leBytes 4 (crc32c b)

/-- The bytes of an Iltur response. -/
def answerWire (m : Msg) (svc : Nat) (describe : Bool) (r : Resp) (t : Option Trailer) : Bytes :=
  withCrc (answerHeader m svc describe r t.isSome ++ r.payload ++ ((t.map trailerBytes).getD []))

/-- The bytes of a mailbox response: no trailer and no CRC (R61). -/
def answerBox (m : Msg) (svc : Nat) (describe : Bool) (r : Resp) : Bytes := answerHeader m svc describe r false ++ r.payload

/-- The bytes of a PUBLISH at a tick (R50, R55); its REQUEST_ID, INDEX and SUBINDEX are free values. -/
def publishWire (tick : Nat) (payload : Bytes) : Bytes :=
  let f := Config.publishFields tick
  withCrc (leBytes 24 (tick % 2 ^ 32 * 2 ^ 160 + f.1.toNat * 2 ^ 80 + payload.length % 2 ^ 16 * 2 ^ 64 + f.2.2.toNat * 2 ^ 48 +
    f.2.1.toNat * 2 ^ 32 + 6 * 2 ^ 24 + 2 ^ 16 + 0x01 * 2 ^ 8 + 0x49) ++ payload)

/-- Bytes put at the start of a mailbox area of 2 KiB; those after them stay (R61). -/
def areaPut (area b : Bytes) : Bytes := (b ++ area.drop b.length).take 2048

/-- What a request says: all that it brings but a fault that its service meets. -/
def msgContent (m : Msg) : Msg := { m with fault := false }

/-! ### What drops a message -/

/-- The message came over Iltur. -/
def viaIltur (m : Msg) : Bool := decide (m.path ≠ .mailbox)

/-- The message passes its CRC (R50); a mailbox message has none (R61). -/
def crcOk (m : Msg) (svc : Nat) (describe : Bool) : Bool :=
  !viaIltur m || decide (m.crc.toNat = crc32c (msgBody m svc describe))

/-- R50: it is dropped without a response. -/
def msgDropped (m : Msg) (svc : Nat) (describe : Bool) : Bool :=
  !crcOk m svc describe || decide (m.magic ≠ 0x49#8 ∨ m.version ≠ 0x01#8) || m.response || decide (1024 < m.length.toNat) ||
    (if viaIltur m then decide (m.payload.length ≠ m.length.toNat) || (m.session != m.trailer.isSome) else m.session)

/-- R59: an Iltur request that passes its CRC restarts the silence timer. -/
def restartsTimer (m : Msg) (svc : Nat) (describe : Bool) : Bool := viaIltur m && crcOk m svc describe && !m.response

/-! ### Objects as they stand -/

/-- The abort code of an object that cannot be reached (R40, R48, R452), or the object. Through a stop the objects of
chapter 14 of the dies that were admitted survive (R383). -/
def State.find (s : State) (i sub : Nat) : Except Nat Obj :=
  match objDef s.fuse i sub with
  | none => .error (if (indexObjs s.fuse i).isEmpty then abNoIndex else abNoSub)
  | some o => match dieOfIndex i with
    | none => .ok o
    | some (d, off) =>
      if 0x10 ≤ off ∧ off < 0x14 then .ok o
      else if s.fenced d then
        if off = 0x90 ∧ d.kind = 1 ∧ (s.traceBuf d.num).frozen then .ok o else .error abFenced
      else if s.boot.admitted.any (fun x => decide (x = d)) then .ok o
      else if (s.boot.estop ∨ s.boot.stopped) ∧ 0x20 ≤ off ∧ off < 0x40 ∧ s.boot.survive.any (fun x => decide (x = d)) then .ok o
      else .error abNotYet

/-- A write of an RWT object waits (R42). -/
def State.waits (s : State) (k : Nat) : Option Bytes := (s.dict.rwt.find? fun w => decide (w.key = k)).map PendWrite.value

/-- A scalar object once every accepted RWT write has taken effect (R44). -/
def State.future (s : State) (k : Nat) : Nat := match s.waits k with
  | some v => leNat v
  | none => s.reg k

/-- A job runs or is about to start (R44). -/
def State.jobAhead (s : State) : Bool := decide (s.future 0x700201 = 1)

/-- A VSTR's bytes. -/
def State.vstr (s : State) (k : Nat) : Bytes := if k = 0x100002 then s.fuse.part else s.fuse.serial

/-- An event record's 32 bytes (R64). -/
def Event.bytes (e : Event) : Bytes :=
  leBytes 32 (e.arg1.toNat * 2 ^ 224 + e.arg0.toNat * 2 ^ 192 + e.unit.toNat * 2 ^ 160 + e.op.toNat * 2 ^ 144 +
    e.layer.toNat * 2 ^ 128 + e.tick.toNat * 2 ^ 64 + e.seq.toNat * 2 ^ 32 + e.sev * 2 ^ 24 + e.code)

/-- POWER_CURVE of Trify die t (R388): 129 pairs of F32. -/
def curveBytes (t : Nat) : Bytes :=
  (List.range 129).flatMap fun i => leBytes 4 (Config.powerCurve t i).1.toNat ++ leBytes 4 (Config.powerCurve t i).2.toNat

/-- The present content of a DOMAIN object, as a client reads it. MAP_BATCH and CERT_CHAIN keep their size under their own
key. -/
def State.content (s : State) (p : Path) (o : Obj) (k : Nat) : Bytes :=
  match k with
  | 0x111002 => s.events.flatMap Event.bytes
  | 0x380002 => logTables
  | 0x401002 => (List.range 4096).flatMap fun m => leBytes 2 (s.mst m).round
  | 0x412001 => (List.range 262144).flatMap fun c => leBytes 8 (ctxStatus { s.ctx c with tags := s.heldTags c })
  | 0x441001 => s.domBytes k 0 (s.reg k)
  | 0x700304 => s.list.bytes
  | 0x800004 => fit 516 ((s.sec.identity.map Prod.fst).getD [])
  | 0x800005 => s.certChain
  | 0x810001 => (s.challenge? p).getD (List.replicate 64 0)
  | 0x810003 => s.sessionKey p
  | 0x840001 => s.sec.log.flatMap logBytes
  | 0x840002 => s.logDigest
  | 0x840004 => s.domBytes k 0 1024
  | _ => match dieOfIndex (k / 256) with
    | some (d, 0x25) => if d.kind = 1 then curveBytes d.num else []
    | some (d, 0x82) => s.sampleNow d.num
    | some (d, 0x90) => s.traceBytes d.num
    | _ => s.domBytes k 0 o.size

/-- A response without payload. -/
def State.resp (s : State) (abort : Nat) : Resp := ⟨abort, BitVec.ofNat 32 s.tickNo, false, false, []⟩

/-- READ (R41, R42). -/
def State.readObj (s : State) (i sub : Nat) : Resp :=
  match s.find i sub with
  | .error e => s.resp e
  | .ok o =>
    let k := okey i sub
    if o.ty = .domain then s.resp abType
    else if o.acc = .wo then s.resp abWriteOnly
    else if o.ty = .vstr then { s.resp abOk with payload := s.vstr k }
    else { s.resp abOk with payload := leBytes (tyBytes o.ty) (s.view k), pending := (s.waits k).isSome }

/-- A value widened to 64 bits (R47). -/
def widen (ty : Ty) (v : Nat) : Nat :=
  match ty with
  | .f32 => f64.encode (f32.decode v)
  | .vstr => 0
  | .domain => 0
  | _ => v

/-- The default of an object of this module: the straps give three of them (R402), and the fuse map one (R37). -/
def State.dfltOf (s : State) (o : Obj) (k : Nat) : Nat :=
  match k with
  | 0x120005 => s.ob 0x1200 5
  | 0x510001 => s.ob 0x1200 5
  | 0x110001 => 1 + s.ob 0x1200 5 % 254
  | _ => o.dflt

/-- READ with DESCRIBE (R47), PENDING as for every READ (R42). DESIGN CHOICE (log 170): an object that another client stages
is described as any other. -/
def State.describeObj (s : State) (p : Path) (i sub : Nat) : Resp :=
  match s.find i sub with
  | .error e => s.resp e
  | .ok o =>
    let k := okey i sub
    let size := match o.ty with
      | .vstr => (s.vstr k).length
      | .domain => (s.content p o k).length
      | t => tyBytes t
    { s.resp abOk with
      payload := [BitVec.ofNat 8 (tyCode o.ty), BitVec.ofNat 8 (accCode o.acc), 0, 0] ++ leBytes 4 size ++
        leBytes 8 (widen o.ty (s.dfltOf o k)) ++ leBytes 8 (widen o.ty o.lo) ++ leBytes 8 (widen o.ty o.hi)
      pending := (s.waits k).isSome }

/-! ### Kept responses (R58) -/

/-- The kept response that a request's key matches. -/
def State.keptFor (s : State) (p : Path) (id : BitVec 16) : Option Kept :=
  match s.dict.kept.find? fun x => decide (x.1 = p) with
  | none => none
  | some x => x.2.find? fun y => decide (y.id = id)

/-- A client was heard: it stands first among the kept clients. -/
def State.heard (s : State) (p : Path) : State :=
  match s.dict.kept.find? fun x => decide (x.1 = p) with
  | none => s
  | some x => { s with dict := { s.dict with kept := x :: s.dict.kept.filter fun y => !decide (y.1 = p) } }

/-- Keep a response: up to 32 for each of 16 clients; a seventeenth displaces the client silent longest. -/
def State.keep (s : State) (p : Path) (y : Kept) : State :=
  let old := ((s.dict.kept.find? fun x => decide (x.1 = p)).map Prod.snd).getD []
  let rest := s.dict.kept.filter fun x => !decide (x.1 = p)
  { s with dict := { s.dict with kept := ((p, (y :: old).take 32) :: rest).take 16 } }

/-! ### Sessions (R433) -/

/-- The trailer of a response to a request that came in the session `x`; the module's own counter advances. -/
def State.signed (s : State) (x : Option Session) (m : Msg) (svc : Nat) (describe : Bool) (r : Resp) : State × Option Trailer :=
  match x with
  | none => (s, none)
  | some x =>
    let c := x.tx + 1
    let mac := fit 24 (Config.hmac24 x.key (answerHeader m svc describe r true ++ r.payload ++ leBytes 8 c))
    ({ s with sec := { s.sec with sessions := s.sec.sessions.map fun y =>
      if y.path = m.path ∧ y.key = x.key then { y with tx := c } else y } },
      some ⟨BitVec.ofNat 64 c, mac⟩)

/-- Check of a request's trailer (R433): none, or the reason of AUTH_FAIL (2 MAC, 3 counter) with the session's slot (an open value where the
client holds no session). -/
def State.authFails (s : State) (m : Msg) (svc : Nat) (describe : Bool) : Option (Nat × Nat) :=
  match m.trailer with
  | none => none
  | some t => match s.session? m.path with
    | none => some (Config.cycles 0x8003 s.tickNo % 2 ^ 32, 2)
    | some x =>
      if t.mac ≠ fit 24 (Config.hmac24 x.key (msgSigned m svc describe)) then some (x.slot, 2)
      else if t.counter.toNat ≤ x.rx then some (x.slot, 3)
      else none

/-- The counter of an accepted request. -/
def State.authTake (s : State) (m : Msg) : State :=
  match m.trailer with
  | none => s
  | some t => { s with sec := { s.sec with sessions := s.sec.sessions.map fun y =>
      if y.path = m.path then { y with rx := t.counter.toNat } else y } }

end Sys2Proof.Machine
end

