-- ==== Sys2Proof/Machine/Checks.lean ====
section
/-! DEFINITION. The dictionary service, part 2: the checks of a write (R43, R44), object by object as the owning chapters
state them. -/

namespace Sys2Proof.Machine

/-! ### Content of tables -/

/-- The entries of a table: `n` little-endian values of `w` bytes. -/
def entries (w : Nat) : Nat → Bytes → List Nat
  | 0, _ => []
  | n + 1, b => leNat (b.take w) :: entries w n (b.drop w)

/-- Bits [hi:lo] set. -/
def maskBits (hi lo : Nat) : Nat := 2 ^ (hi + 1) - 2 ^ lo

/-- The object at offset `off` of a die of kind `kind` and subindex `sub`. -/
def isDieObj (k kind off sub : Nat) : Bool := match dieOfIndex (k / 256) with
  | some (d, o) => decide (d.kind = kind ∧ o = off ∧ k % 256 = sub)
  | none => false

/-- A queue's number and subindex. -/
def queueOf (k : Nat) : Option (Nat × Nat) :=
  if 0x4080 ≤ k / 256 ∧ k / 256 < 0x4100 then some (k / 256 - 0x4080, k % 256) else none

/-- Bytes and reserved bits of one entry of a table; (0, 0) where the table has no reserved bits. -/
def tableShape (k : Nat) : Nat × Nat :=
  match k with
  | 0x312001 => (8, maskBits 33 0)
  | 0x312003 => (40, maskBits 319 288)
  | 0x315001 => (32, maskBits 198 192 + maskBits 78 76 + maskBits 51 0)
  | 0x401001 => (8, maskBits 33 32 + maskBits 15 0)
  | 0x412001 => (8, maskBits 39 13)
  | 0x601001 => (64, maskBits 319 282 + maskBits 279 0)
  | 0x602001 => (64, maskBits 119 0)
  | 0x6C0001 => (32, maskBits 134 0)
  | 0x900001 => (4, maskBits 16 0)
  | 0x810002 => (520, maskBits 63 8)
  | _ =>
    if isDieObj k 3 0x40 1 then (128, maskBits 664 0)
    else if isDieObj k 2 0x40 1 then (32, maskBits 149 0)
    else if isDieObj k 1 0x80 1 then (4, maskBits 20 0)
    else if isDieObj k 1 0x84 1 then (16, maskBits 39 0)
    else if isDieObj k 1 0x81 1 then (32, maskBits 79 64 + maskBits 31 4)
    else (0, 0)

/-- The entries of a table's content, by the table's own shape. -/
def rowsAt (k : Nat) (c : Bytes) : List Nat :=
  match (tableShape k).1 with
  | 0 => []
  | w => entries w (c.length / w) c

/-! ### Check 1: length -/

/-- The length of a DOMAIN's content is one that the owning chapter allows (R264, R427, R437). -/
def domLength (o : Obj) (k n : Nat) : Bool :=
  match k with
  | 0x441001 => decide (n % 16 = 0 ∧ n ≤ 1048576)
  | 0x820002 => decide (8 ≤ n ∧ n ≤ 16777216)
  | _ => if o.size = 0 then decide (n ≤ 16777216) else decide (n = o.size)

/-- Well-formed UTF-8, with the bytes still owed by the character in progress and the bounds of the next (R41). -/
def utf8 : Nat → Nat → Nat → Bytes → Bool
  | 0, _, _, [] => true
  | _, _, _, [] => false
  | 0, _, _, b :: t =>
    let v := b.toNat
    if v < 0x80 then utf8 0 0 0 t
    else if 0xC2 ≤ v ∧ v ≤ 0xDF then utf8 1 0x80 0xBF t
    else if 0xE0 ≤ v ∧ v ≤ 0xEF then utf8 2 (if v = 0xE0 then 0xA0 else 0x80) (if v = 0xED then 0x9F else 0xBF) t
    else if 0xF0 ≤ v ∧ v ≤ 0xF4 then utf8 3 (if v = 0xF0 then 0x90 else 0x80) (if v = 0xF4 then 0x8F else 0xBF) t
    else false
  | n + 1, lo, hi, b :: t => decide (lo ≤ b.toNat ∧ b.toNat ≤ hi) && utf8 n 0x80 0xBF t

/-! ### Check 3: allowed values -/

/-- An F32 value is neither NaN nor an infinity. -/
def finite32 (v : Nat) : Bool := (f32.decode v).isFinite

/-- Gaps and alignments of scalar objects (R10, R19, R77, R283, R380, R398). -/
def gapFree (k v : Nat) : Bool :=
  match k with
  | 0x200003 => !decide (1 ≤ v ∧ v ≤ 99)
  | 0x201006 => decide (v % 25 = 0)
  | 0x441004 => decide (v % 4096 = 0)
  | 0x580001 => decide (v ≤ 63 ∨ v = 255)
  | 0x711001 => match bits v 15 13 with
    | 1 => true
    | 2 => decide (bits v 12 8 < 16)
    | 3 => decide (bits v 12 8 < 16)
    | _ => false
  | _ => match queueOf k with
    | some (_, 1) => decide (v % 4096 = 0)
    | some (_, 4) => decide (v % 4096 = 0)
    | some (_, 3) => match bits v 15 13 with
      | 1 => true
      | 3 => decide (bits v 12 8 < 16)
      | _ => false
    | _ => true

/-- Check 3 of a scalar. -/
def allowedScalar (o : Obj) (k v : Nat) : Bool :=
  match o.ty with
  | .f32 => finite32 v
  | .f64 => (f64.decode v).isFinite
  | _ => (!o.enum || decide (o.lo ≤ v ∧ v ≤ o.hi)) && gapFree k v

/-- Check 3 of a table: reserved codes in its entries (R10, R206, R312, R440, R453), and non-finite limits (R41). -/
def allowedTable (k : Nat) (c : Bytes) : Bool :=
  match k with
  | 0x315001 => (rowsAt k c).all fun e =>
      [stRung e false, stRung e true, stMin e false, stMin e true, stMax e false, stMax e true].all fun r => decide (r ≤ 4)
  | 0x602001 => (rowsAt k c).all fun e => decide (sKind e ≤ 4)
  | 0x604002 => (entries 4 (c.length / 4) c).all finite32
  | 0x441001 => (batchPairs (c.length / 16) c).all fun p => decide (eBackTier p.2 ≠ 3)
  | 0x810002 => decide (leNat (c.take 1) ≤ 3)
  | _ =>
    if isDieObj k 3 0x40 1 then (rowsAt k c).all fun e => decide (gCopyFmt e = 0) || fmtDefined (gCopyFmt e)
    else if isDieObj k 1 0x80 1 then (rowsAt k c).all fun e => decide (bits e 31 24 ≤ 0x17 ∧ (bits e 31 24 = 0 → ¬ bit e 21))
    else if isDieObj k 1 0x84 1 then (rowsAt k c).all fun e => decide (bits e 47 44 ≤ 5 ∧ bits e 43 42 ≠ 3)
    else true

/-! ### Check 4: bounds -/

/-- A value lies below another, by the object's type. -/
def below (ty : Ty) (a b : Nat) : Bool :=
  match ty with
  | .f32 => Fx.lt (f32.decode a) (f32.decode b)
  | .f64 => Fx.lt (f64.decode a) (f64.decode b)
  | _ => decide (a < b)

/-! ### Check 5: consistency -/

/-- The regions of an enabled group: address, bytes, tier (R287–R289). -/
def groupRegions (e : Nat) : List (Nat × Nat × Nat) :=
  let rc := gRows e * gCols e
  let copy := if gFollow e then 4 * rc else match gCopyFmt e with
    | 0x00 => 0
    | 0x02 => 4 * rc
    | f => rc * fmtBits f / 8
  let state := 4 * rc + (if gTouched e then 4 * gRows e else 4 * (gRows e + gCols e))
  let side (o : Nat) := [(gHi e + o, 2 * rc, 0), (gState e + o, state, 1)] ++ (if copy = 0 then [] else [(gCopy e + o, copy, 0)])
  if gTouched e then side 0 else side 0 ++ side (gSideOff e)

/-- Two regions share a byte. -/
def overlap (a b : Nat × Nat × Nat) : Bool := decide (a.1 < b.1 + b.2.1 ∧ b.1 < a.1 + a.2.1)

/-- R287 for one enabled entry. -/
def groupFits (e : Nat) : Bool :=
  let r := gRows e
  let c := gCols e
  let so := gSideOff e
  let copy := if gFollow e then 4 * (r * c) else if gCopyFmt e = 0 then 0 else r * c * fmtBits (gCopyFmt e) / 8
  decide (32 ≤ r ∧ r % 32 = 0 ∧ 128 ≤ c ∧ c % 128 = 0 ∧ r * c ≤ 2 ^ 32) &&
    decide (gHi e % 2 ^ 21 = 0 ∧ gCopy e % 2 ^ 21 = 0 ∧ gState e % 2 ^ 21 = 0) &&
    ((groupRegions e).all fun x => decide (x.1 + x.2.1 ≤ 2 ^ 48)) &&
    (if gTouched e then
      decide (so = 0 ∧ gSide e = 0 ∧ gRule e ≠ 3) && memN (gCopyFmt e) [0x00, 0x02, 0x10, 0x12]
     else
      decide (so % 2 ^ 21 = 0 ∧ 2 * (r * c) ≤ so ∧ 4 * (r * c) + 4 * (r + c) ≤ so ∧ copy ≤ so) &&
        memN (gCopyFmt e) [0x00, 0x02, 0x0E, 0x13, 0x14])

/-- The enabled entries of a Fixer die's table as it stands. -/
def State.groupsOn (s : State) (f : Nat) : List Nat :=
  (s.enabledGroups f).map fun g => g.2.toNat

/-- No region of an entry overlaps a region of another. -/
def groupsApart : List Nat → List Nat → Bool
  | [], _ => true
  | e :: t, others =>
    ((groupRegions e).all fun x => (t ++ others).all fun y => (groupRegions y).all fun z => !overlap x z) && groupsApart t others

/-- A whole group table (R287). -/
def State.groupTableOk (s : State) (f : Nat) (l : List Nat) : Bool :=
  let on := l.filter gEnabled
  on.all groupFits && groupsApart on (((List.range 16).filter fun g => decide (g ≠ f)).flatMap s.groupsOn)

/-- A whole reduction table (R362). -/
def State.reduceTableOk (s : State) (d : Nat) (l : List Nat) : Bool :=
  let on := l.filter rEnabled
  let span (e : Nat) : Nat × Nat × Nat := (rBase e, 128 * rLines e, 0)
  let others := ((List.range 16).filter fun g => decide (g ≠ d)).flatMap fun g =>
    ((List.range 256).map (s.redEntry g)).filter rEnabled
  let rec apart : List Nat → Bool
    | [] => true
    | e :: t => ((t ++ others).all fun x => !overlap (span e) (span x)) && apart t
  (on.all fun e =>
    decide (1 ≤ rLines e ∧ rLines e ≤ 16384 ∧ rBase e % 128 = 0 ∧ rBase e + 128 * rLines e ≤ 2 ^ 48) &&
      exEnabled (s.expo (rSlot e)) && (exGrad (s.expo (rSlot e)) == rGrad e)) &&
    decide ((on.map rLines).sum ≤ 16384) && apart on && (s.failedUnits (Die.ofIx (32 + d)) 5).isEmpty

/-- A steering record (R206, R207). -/
def steerOk (e : Nat) : Bool :=
  decide (stHigh e false = 0 ∧ stHigh e true = 0 ∧ stQuiet e false = 0 ∧ stQuiet e true = 0) &&
    ([false, true].all fun b => decide (stMin e b ≤ stRung e b ∧ stRung e b ≤ stMax e b)) &&
    decide (1 ≤ stMin e true ∧ 1 ≤ stSustain e ∧ 1 ≤ stQuietPeriod e ∧ stCount e ≤ 16 ∧ stPtr e % 128 = 0)

/-- A parameter set (R298). -/
def paramOk (e : Nat) : Bool :=
  let x (hi : Nat) : Fx := f32.decode (bits e hi (hi - 31))
  let one := Fx.ofNat 1
  let unit (v : Fx) : Bool := !Fx.lt v Fx.zero && Fx.lt v one
  ([511, 479, 447, 415, 383, 351].all fun h => (x h).isFinite) && unit (x 511) && unit (x 479) && Fx.lt Fx.zero (x 447) &&
    !Fx.lt (x 415) Fx.zero && !Fx.lt one (x 415) && !Fx.lt (x 383) Fx.zero && Fx.lt Fx.zero (x 351)

/-- A schedule (R312). -/
def scheduleOk (e : Nat) : Bool :=
  let fs := [sBase e, sMin e, sGamma e, sWarmStart e].map f64.decode
  let one := Fx.ofNat 1
  (fs.all fun v => v.isFinite && !Fx.lt v Fx.zero) && !Fx.lt (f64.decode (sBase e)) (f64.decode (sMin e)) &&
    !Fx.lt one (f64.decode (sGamma e)) && !Fx.lt one (f64.decode (sWarmStart e)) &&
    !(decide (sPeriod e = 0) && (decide (sKind e = 1 ∨ sKind e = 2) || decide (sMult e ≠ 0))) &&
    !decide (sStepSize e = 0 ∧ sKind e = 3) && !((f64.decode (sWarmStart e)).isZero && sWarmExp e)

/-- The pages that a region covers, each by an address of it. -/
def regionPages (x : Nat × Nat × Nat) : List Nat :=
  (List.range ((x.1 + x.2.1 - 1) / 2 ^ 21 + 1 - x.1 / 2 ^ 21)).map fun j => (x.1 / 2 ^ 21 + j) * 2 ^ 21

/-- R289 at a job start, against the tables that the accepted batch leaves (R44). -/
def State.groupsMapped (s : State) : Bool :=
  let s := match s.waits 0x441001 with
    | some c => (batchPairs (c.length / 16) c).foldl (fun (s : State) (p : Nat × Nat) => s.putEntry p.1 p.2) s
    | none => s
  (List.range 16).all fun f => s.fenced (Die.ofIx (48 + f)) || ((s.groupsOn f).all fun e => (groupRegions e).all fun x =>
    (regionPages x).all fun a =>
      let t := s.entryAt a
      ePresent t && eWritable t && decide (eTier t = x.2.2) && (decide (x.2.2 = 0) || decide (eUnit t = f)))

/-- R289 for a batch: it changes the entry of no page that a group of the job uses. -/
def State.keepsGroups (s : State) (pairs : List (Nat × Nat)) : Bool :=
  let used := (List.range 16).flatMap fun f => (s.groupsOn f).flatMap groupRegions
  pairs.all fun p =>
    decide (setBits (s.entryAt p.1) 59 59 0 = p.2) ||
      !used.any fun x => overlap x (p.1, (if eKind p.2 = 3 ∨ eKind (s.entryAt p.1) = 3 then 2 ^ 30 else 2 ^ 21), 0)

/-- R192: the named step muster is enabled and tick-aligned. -/
def State.stepMusterOk (s : State) : Bool := match s.stepMuster with
  | none => true
  | some m => mEnabled (s.mEntry m) && !mImmediate (s.mEntry m)

/-- R208: DOWN stays below UP for a rung. -/
def State.thresholdOk (s : State) (k v : Nat) : Bool :=
  let sub := k % 256
  let at' (n : Nat) : Fx := f32.decode (s.future (k / 256 * 256 + n))
  if sub ≤ 5 then Fx.lt (at' (sub + 5)) (f32.decode v)
  else if sub ≤ 10 then Fx.lt (f32.decode v) (at' (sub - 5))
  else true

/-- Check 5 of a scalar (R43, R44). `steady`: the reference has stayed in its bounds (R373). -/
def State.consistent (s : State) (steady : Bool) (k v : Nat) : Bool :=
  match k with
  | 0x441001 => true
  | 0x411001 => s.mayResume v
  | 0x410001 =>
    let sh := [bits v 11 8, bits v 7 4, bits v 3 0]
    decide (sh.sum = 16) && sh.all fun x => decide (1 ≤ x ∧ x ≤ 14)
  | 0x442001 => decide (bits v 51 48 = 0 ∧ v % (s.barSize / 2) = 0)
  | 0x500001 => !decide (v = 1 ∧ s.future 0x500005 = 1)
  | 0x500005 => !decide (v = 1 ∧ s.future 0x500001 = 1)
  | 0x512002 => decide (s.reg 0x512001 < v)
  | 0x580003 => decide (v = 0) || (decide (s.reg 0x580001 ≠ 0xFF) && steady)
  | 0x600002 => gEnabled (s.domNat (okey (0xC800 + 0x80 * bits v 15 12 + 0x40) 1) (128 * bits v 11 0) 128)
  | 0x700201 => decide (v = 0) || (s.groupsMapped && s.stepMusterOk)
  | 0x830002 => decide (v = 0) || (s.isReady && match s.sec.running with
      | some im => decide (s.ob 0x8300 1 < im.secVersion)
      | none => false)
  | _ =>
    if 0x3160 ≤ k / 256 ∧ k / 256 < 0x3168 then s.thresholdOk k v
    else match queueOf k with
      | some (q, 6) => decide (v ≠ 1) || decide (s.qState q = 1) ||
          decide (s.qBase q + 128 * s.qSize q ≤ 2 ^ 48 ∧ s.qCompl q + 16 * s.qSize q ≤ 2 ^ 48)
      | some (q, 7) => decide ((v + 2 ^ 32 - s.qHead q) % 2 ^ 32 ≤ s.qSize q)
      | _ => true

/-- Check 5 of a table. -/
def State.consistentTable (s : State) (k : Nat) (c : Bytes) : Bool :=
  match k with
  | 0x312001 => (rowsAt k c).all fun e => decide (exCode e = 0 ∧ exFill e = 0 ∧ 1 ≤ exStart e ∧ exStart e ≤ 0xFE)
  | 0x315001 => (rowsAt k c).all steerOk
  | 0x401001 => (rowsAt k c).all fun e => !mEnabled e || decide (mExpected e ≠ 0 ∧ mPod e ≠ 0)
  | 0x441001 => s.batchOk (batchPairs (c.length / 16) c) && (!s.jobAhead || s.keepsGroups (batchPairs (c.length / 16) c))
  | 0x511001 => decide (leNat ((c.drop (8 * s.moduleId)).take 8) = 0)
  | 0x601001 => (rowsAt k c).all paramOk
  | 0x602001 => (rowsAt k c).all scheduleOk
  | 0x604002 => (entries 4 (c.length / 4) c).all fun v => !Fx.lt (f32.decode v) Fx.zero
  | 0x6C0001 => (rowsAt k c).all fun e =>
      decide (bits e 151 140 ≠ s.moduleId ∧ bits e 255 204 % 2 ^ 21 = 0 ∧ bits e 203 152 % 2 ^ 21 = 0)
  | 0x920002 => (entries 8 32 c).all fun v => decide (((List.range 64).filter (bit v)).length ≤ 4)
  | _ => match dieOfIndex (k / 256) with
    | some (d, 0x40) => if d.kind = 3 then s.groupTableOk d.num (rowsAt k c) else s.reduceTableOk d.num (rowsAt k c)
    | _ => true

/-! ### Checks 6 and 7 -/

/-- Objects that are written only while no job runs. -/
def jobGated (k : Nat) : Bool :=
  memN k [0x300001, 0x310001, 0x310002, 0x310003, 0x312001, 0x315001, 0x401001, 0x410001, 0x441004, 0x441005, 0x510001,
    0x601001, 0x602001, 0x6C0001, 0x710005] || isDieObj k 3 0x40 1 || isDieObj k 2 0x40 1

/-- Objects whose writes follow the conditions of R448. -/
def openGated (k : Nat) : Bool := decide (k = 0x920001) || isDieObj k 1 0x84 1 || isDieObj k 1 0x84 3

/-- Privileged objects (R431); the opening of a session is a write that no session can precede. -/
def privileged (k : Nat) : Bool :=
  (decide (0x800000 ≤ k ∧ k < 0x900000) && decide (k ≠ 0x810002)) ||
    memN k [0x12000A, 0x201003, 0x201005, 0x300001, 0x510001, 0x711001]

/-- The conditions that R431 sets for a privileged write hold. -/
def State.mayWrite (s : State) (m : Msg) : Bool :=
  if s.lcState = lcProduction ∨ s.lcState = lcReturn then
    if viaIltur m then m.session else decide (s.ob 0x8100 5 = 1)
  else true

/-- Check 6: the access kind, then the state conditions of the owning chapters. -/
def State.gated (s : State) (m : Msg) (o : Obj) (k v : Nat) : Nat :=
  let st := s.ob 0x5810 1
  if o.acc = .ro then abReadOnly
  else if jobGated k ∧ s.jobAhead then abJob
  else if openGated k ∧ !s.mayWrite m then abState
  else match k with
    | 0x12000A => if s.boot.stopped ∧ s.ob 0x1200 1 ≠ 0x82 ∧ s.ob 0x1200 1 ≠ 0x8F ∧ !s.boot.tamperHold then abOk else abState
    | 0x201003 =>
      if v = 0 ∨ ((s.boot.estop ∨ (s.boot.stopped ∧ s.ob 0x1200 1 = 0x8F)) ∧ s.boot.causes.isEmpty) then abOk else abState
    | 0x580001 => if st = 0 then abOk else abState
    | 0x580002 => if st = 0 then abOk else abState
    | 0x580003 => if st = 2 ∨ st = 3 ∨ (v = 1 ∧ !s.isReady) then abState else abOk
    | 0x700201 =>
      if v = 0 then abOk
      else if !s.isReady then abState
      else if s.lcState = lcProvision ∨ s.lcState = lcReturn then abLifeCycle
      else if s.jobAhead then abJob else abOk
    | 0x800002 => if s.lcAllowed v ∧ !s.jobAhead ∧ !s.jobRuns then abOk else abLifeCycle
    | 0x800003 => if s.lcState = lcProvision then abOk else abLifeCycle
    | 0x800005 => if s.lcState = lcProvision then abOk else abLifeCycle
    | 0x810004 => if s.lcState = lcProvision ∨ s.lcState = lcProduction then abOk else abLifeCycle
    | 0x810002 => if s.sec.sessions.length < 4 ∨ (s.session? m.path).isSome then abOk else abLimit
    | 0x820001 => if v = 1 ∨ s.sec.stage.isSome then abOk else abState
    | 0x820002 => if s.sec.stage.isSome then abOk else abState
    | 0x840003 => if s.signKey.isSome then abOk else abState
    | _ => match queueOf k with
      | some (_, 6) => if v = 1 ∧ !s.isReady then abState else abOk
      | some (_, 7) => abOk
      | some (q, _) =>
        if s.qState q = 0 ∧ !(s.cmds.any fun c => decide (c.q = q) && c.active && !refusalStatus c.status) then abOk else abState
      | none => abOk

/-- Check 7 (R431), and the authority that a life-cycle transition and a write of operator keys in PRODUCTION need (R423,
R432). -/
def State.entitled (s : State) (m : Msg) (k v : Nat) : Nat :=
  if privileged k ∧ !s.mayWrite m then abNoSession
  else match k with
    | 0x800002 => if s.lcAuthority v m.path then abOk else abLifeCycle
    | 0x810004 =>
      if s.lcState = lcProduction ∧ !(m.session && ((s.session? m.path).map Session.slot).getD 4 == 0) then abNoSession else abOk
    | _ => abOk

/-- Checks 6 and 7 together. -/
def State.lateChecks (s : State) (m : Msg) (o : Obj) (k v : Nat) : Nat :=
  let g := s.gated m o k v
  if g ≠ abOk then g else s.entitled m k v

/-- The reserved bits of a request's own header are clear (R10, R50). -/
def headerOk (m : Msg) : Bool := decide (m.reservedA = 0 ∧ m.reservedB = 0)

/-- R43 for a WRITE of an object: the abort code of the first check that fails. -/
def State.checkScalar (s : State) (steady : Bool) (m : Msg) (o : Obj) (k : Nat) (b : Bytes) : Nat :=
  let v := leNat b
  if o.ty = .domain then abType
  else if o.ty = .vstr then
    if 255 < b.length then abType else if !headerOk m then abReserved else if !utf8 0 0 0 b then abValue else abReadOnly
  else if b.length ≠ tyBytes o.ty then abType
  else if !headerOk m ∨ v &&& o.resv ≠ 0 then abReserved
  else if !allowedScalar o k v then abValue
  else if below o.ty v o.lo then abBelow
  else if below o.ty o.hi v then abAbove
  else if !s.consistent steady k v then abInconsistent
  else s.lateChecks m o k v

/-- R43 for a whole DOMAIN content. -/
def State.checkTable (s : State) (m : Msg) (o : Obj) (k : Nat) (c : Bytes) : Nat :=
  if !domLength o k c.length then abType
  else if !headerOk m ∨ ((rowsAt k c).any fun e => decide (e &&& (tableShape k).2 ≠ 0)) then abReserved
  else if !allowedTable k c then abValue
  else if !s.consistentTable k c then abInconsistent
  else s.lateChecks m o k 0

end Sys2Proof.Machine
end

