-- ==== Sys2Proof/Machine/Writes.lean ====
section
/-! DEFINITION. The dictionary service, part 3: what an accepted write does (R42, R45), block transfers (R51, R52),
subscriptions (R53–R55, R63), and one request from its arrival to its response (R50, R58, R62). -/

namespace Sys2Proof.Machine

/-- What the environment shows with a write: the recovered reference has stayed in its bounds (R373), the input voltage in
mV (R382), and what the pithead finds in the staged image (R427). -/
structure WriteEnv where
  steady : Bool
  mv     : Nat
  staged : Option ImageCopy
deriving DecidableEq, Repr

/-! ### Writes that take effect before the response -/

/-- A WO, RW or RWL scalar takes its value, with the effect that its chapter gives the write. -/
def State.applyNow (s : State) (x : WriteEnv) (p : Path) (k v : Nat) : State :=
  match k with
  | 0x12000A => if v = 1 then s.restartBoot else s
  | 0x201003 => if v = 1 then s.restartStop else s
  | 0x201005 => if v = 1 then s.emergency 6 x.mv else s
  | 0x31000D => if v = 1 then s.injectReplay else s
  | 0x315005 => s.heldStepWrite v
  | 0x411001 => s.resumeCtx v
  | 0x513001 => s.requalify v
  | 0x513002 => s.swapLane (bits v 8 3) (bits v 2 0) true
  | 0x580003 => if v = 1 then s.selectRecovered else s.selectLocal
  | 0x600002 => s.freezeWrite v
  | 0x602002 => s.probe v
  | 0x711001 => s.fenceRequest (match bits v 15 13 with
      | 1 => Die.ofIx (bits v 12 8)
      | 2 => Die.ofIx (32 + bits v 12 8)
      | _ => Die.ofIx (48 + bits v 12 8)) (bit v 0)
  | 0x800002 => { s with sec := { s.sec with lcPending := some v } }
  | 0x800003 => if v = 1 then (s.setReg k 1).generateIdentity else s.setReg k 0
  | 0x810006 => if v = 0 then s.closeSession p else s
  | 0x820001 => match v with
    | 1 => s.openUpdate
    | 2 => match x.staged with
      | some im => s.commitUpdate im
      | none => s
    | _ => s.abandonUpdate
  | 0x830002 => if v = 1 then s.advanceFloor else s
  | 0x911006 => if v = 1 then s.armTrace else s.stopTrace
  | 0x911007 => if v = 1 then s.fireTrigger 0 else s
  | 0x920001 => s.armFull (decide (v = 1))
  | _ => match queueOf k with
    | some (q, 6) => match v with
      | 0 => s.disableQueue q
      | 1 => s.enableQueue q
      | _ => s.haltByHost q
    | some _ => s.setReg k v
    | none => match dieOfIndex (k / 256) with
      | some (d, 0x84) => if v = 1 then s.breakGo d.num else s
      | _ => s.setReg k v

/-- A WO, RW or RWL table takes its content. -/
def State.applyTable (s : State) (p : Path) (k : Nat) (c : Bytes) : State :=
  match k with
  | 0x800005 => ((s.clearDom k).setDom k 0 c).setReg k c.length
  | 0x810002 => s.openSession p (leNat (c.take 1))
  | 0x820002 => s.stageSegment c
  | 0x840003 => s.attest c
  | _ => s.setDom k 0 c

/-! ### RWT writes (R45) -/

/-- An accepted RWT write waits: at the place of the object's first accepted write, with the value of its last. -/
def State.queueWrite (s : State) (p : Path) (k : Nat) (b : Bytes) : State :=
  let w : PendWrite := ⟨k, b, decide (p ≠ .mailbox)⟩
  let l := s.dict.rwt
  let l := if l.any (fun y => decide (y.key = k)) then l.map fun y => if y.key = k then w else y else l ++ [w]
  { s with dict := { s.dict with rwt := l } }

/-- TICK_SOURCE takes effect (R70, R72): before Ready it waits for the first boundary after it. -/
def State.takeSource (s : State) : State :=
  let v := s.ob 0x5000 1
  if !s.isReady then { s with boot := { s.boot with sourceDue := true } }
  else if v = 0 then
    { s.setReg (okey 0x5000 7) 0 with tick := { s.tick with acquiring := none, placed := none, missRun := 0, correction := 0 } }
  else
    { s.setReg (okey 0x5000 7) 4 with tick := { s.tick with acquiring := some 0, placed := none, missRun := 0, correction := 0 } }

/-- Bytes that one publish of a subscription carries. -/
def State.subBytes (s : State) (l : List Nat) : Nat :=
  (l.map fun k => match objDef s.fuse (k / 256) (k % 256) with
    | some o => tyBytes o.ty
    | none => 0).sum

/-- The load of some Iltur subscriptions is at most 2.5 bits per µs (R54). -/
def State.busOk (s : State) (l : List Sub) : Bool :=
  let f := l.foldl (fun (a : Nat × Nat) (x : Sub) =>
    let n := (s.subBytes x.keys + 106) * 8
    let d := x.period * s.ob 0x5000 2
    (a.1 * d + n * a.2, a.2 * d)) (0, 1)
  decide (2 * f.1 ≤ 5 * f.2)

/-- The Iltur subscriptions. -/
def State.ilturSubs (s : State) : List Sub := s.dict.subs.filter fun x => decide (x.path ≠ .mailbox)

/-- Double the period of every Iltur subscription until the bound of R54 holds (at most 24 doublings are ever needed). -/
def State.slowSubs : Nat → State → State
  | 0, s => s
  | n + 1, s =>
    if s.busOk s.ilturSubs then s
    else State.slowSubs n { s with dict := { s.dict with subs := s.dict.subs.map fun x =>
      if x.path = .mailbox then x else { x with period := 2 * x.period } } }

/-- A tick period takes effect (R54, R73): subscriptions are slowed where it breaks the bound. -/
def State.takePeriod (s : State) (v : Nat) : State :=
  let s := s.setReg (okey 0x5000 2) v
  let s := { s with tick := { s.tick with measured := 1000 * v } }
  if s.busOk s.ilturSubs then s else (State.slowSubs 24 s).raise 0x1101 1 v s.ilturSubs.length

/-- One accepted RWT write takes effect, in step 4 of R76. -/
def State.takeEffect (s : State) (w : PendWrite) : State :=
  let v := leNat w.value
  let k := w.key
  match k with
  | 0x200001 => ({ s with pwr := { s.pwr with rackWrite := s.pwr.rackWrite || w.viaIltur } }).setReg k v
  | 0x441001 =>
    (((s.clearDom k).setDom k 0 w.value).setReg k w.value.length).mapApply (batchPairs (w.value.length / 16) w.value)
  | 0x442001 => ({ s with host := { s.host with resized := false } }).setReg k v
  | 0x500001 => (s.setReg k v).takeSource
  | 0x500002 => s.takePeriod v
  | 0x511001 => State.routesChanged s (s.setDom k 0 w.value)
  | 0x604002 => s.setDom k 0 w.value
  | 0x700201 => if v = 1 then (if s.jobRuns then s else s.startJob) else (if s.jobRuns then s.endJob else s)
  | _ => match dieOfIndex (k / 256) with
    | some (d, 0x80) => s.selectTallies d.num w.value
    | _ => s.setReg k v

/-! ### WRITE -/

/-- An accepted write: at once, or at the next boundary. -/
def State.accept (s : State) (x : WriteEnv) (p : Path) (o : Obj) (k : Nat) (b : Bytes) : State × Resp :=
  if o.acc = .rwt then (s.queueWrite p k b, { s.resp abOk with tick := BitVec.ofNat 32 (s.tickNo + 1) })
  else if o.ty = .domain then (s.applyTable p k b, s.resp abOk)
  else (s.applyNow x p k (leNat b), s.resp abOk)

/-- WRITE (R43). -/
def State.writeObj (s : State) (x : WriteEnv) (m : Msg) : State × Resp :=
  let k := okey m.index.toNat m.sub.toNat
  match s.find m.index.toNat m.sub.toNat with
  | .error e => (s, s.resp e)
  | .ok o =>
    let c := s.checkScalar x.steady m o k m.payload
    if c ≠ abOk then (s, s.resp c) else s.accept x m.path o k m.payload

/-! ### Block transfers (R51, R52) -/

/-- One chunk of a content. -/
def chunk (r : Resp) (c : Bytes) (off : Nat) : Resp :=
  { r with payload := (c.drop off).take 1024, last := decide (c.length ≤ off + 1024) }

/-- A client's snapshot of an object. -/
def State.snap? (s : State) (p : Path) (k : Nat) : Option Snapshot := s.dict.snaps.find? fun x => decide (x.path = p ∧ x.key = k)

/-- The response to a block read that succeeds: PENDING is set while a write of the object waits (R42). -/
def State.blockResp (s : State) (k : Nat) : Resp := { s.resp abOk with pending := (s.waits k).isSome }

/-- READ_BLOCK (R51); the read of CHALLENGE forms a fresh one (R432). -/
def State.readBlock (s : State) (m : Msg) : State × Resp :=
  let k := okey m.index.toNat m.sub.toNat
  match s.find m.index.toNat m.sub.toNat with
  | .error e => (s, s.resp e)
  | .ok o =>
    if o.ty ≠ .domain then (s, s.resp abType)
    else if o.acc = .wo then (s, s.resp abWriteOnly)
    else if s.dict.staged.any (fun x => decide (x.key = k ∧ x.path ≠ m.path)) then (s, s.resp abBusy)
    else if m.offset = 0 then
      let others := s.dict.snaps.filter fun x => !decide (x.path = m.path ∧ x.key = k)
      let t := if k = 0x810001 then s.newChallenge m.path else s
      let c := t.content m.path o k
      if 4 ≤ others.length ∨ 33554432 < (others.map fun x => x.content.length).sum + c.length then (s, s.resp abBusy)
      else ({ t with dict := { t.dict with snaps := others ++ [⟨m.path, k, c⟩] } }, chunk (s.blockResp k) c 0)
    else match s.snap? m.path k with
      | none => (s, s.resp abExpired)
      | some x =>
        if x.content.length ≤ m.offset.toNat then (s, s.resp abSequence)
        else (s, chunk (s.blockResp k) x.content m.offset.toNat)

/-- The whole content of a block write has arrived: all of R43 is applied, then the write; a SESSION_OPEN is checked against
its challenge last (R432). -/
def State.writeTable (s : State) (x : WriteEnv) (m : Msg) (o : Obj) (k : Nat) (c : Bytes) : State × Resp :=
  let a := s.checkTable m o k c
  if a ≠ abOk then (s, s.resp a)
  else if k = 0x810002 then
    let slot := leNat (c.take 1)
    match s.openCheck m.path slot (c.drop 8) with
    | some why => (s.raise 0x8003 1 slot why, s.resp abAuth)
    | none => s.accept x m.path o k c
  else s.accept x m.path o k c

/-- The most bytes that a DOMAIN can take. -/
def domRoom (o : Obj) (k : Nat) : Nat := if k = 0x441001 then 1048576 else if o.size = 0 then 16777216 else o.size

/-- WRITE_BLOCK (R52). DESIGN CHOICE (log 171): a chunk refused with BLOCK_SEQUENCE leaves what is staged as it was. -/
def State.writeBlock (s : State) (x : WriteEnv) (m : Msg) : State × Resp :=
  let k := okey m.index.toNat m.sub.toNat
  let off := m.offset.toNat
  match s.find m.index.toNat m.sub.toNat with
  | .error e => (s, s.resp e)
  | .ok o =>
    if o.ty ≠ .domain then (s, s.resp abType)
    else if s.dict.staged.any (fun y => decide (y.key = k ∧ y.path ≠ m.path)) then (s, s.resp abBusy)
    else
      let mine := s.dict.staged.find? fun y => decide (y.key = k)
      let have' := ((mine.map Staged.content).getD [])
      if domRoom o k < off + m.payload.length then (s, s.resp abSequence)
      else if off ≠ 0 ∧ mine.isNone then
        (s, s.resp (if s.dict.abandoned.any (fun y => decide (y = (m.path, k))) then abAbandoned else abSequence))
      else if off ≠ 0 ∧ off ≠ have'.length then (s, s.resp abSequence)
      else
        let c := (if off = 0 then [] else have') ++ m.payload
        let rest := s.dict.staged.filter fun y => !decide (y.key = k)
        let s := { s with dict := { s.dict with abandoned := s.dict.abandoned.filter fun y => !decide (y = (m.path, k)) } }
        if m.last then ({ s with dict := { s.dict with staged := rest } }).writeTable x m o k c
        else ({ s with dict := { s.dict with staged := rest ++ [⟨m.path, k, c⟩] } }, s.resp abOk)

/-! ### SUBSCRIBE (R53, R54, R63) -/

/-- The keys that a subscription list names, or the abort code of its first failing entry. -/
def State.subKeys (s : State) : Nat → Bytes → Except Nat (List Nat)
  | 0, _ => .ok []
  | n + 1, b =>
    let i := leNat (b.take 2)
    let sub := leNat ((b.drop 2).take 1)
    if leNat ((b.drop 3).take 1) ≠ 0 then .error abReserved
    else match s.find i sub with
      | .error e => .error e
      | .ok o =>
        if o.ty = .vstr ∨ o.ty = .domain then .error abType
        else if o.acc = .wo then .error abWriteOnly
        else match s.subKeys n (b.drop 4) with
          | .error e => .error e
          | .ok l => .ok (okey i sub :: l)

/-- SUBSCRIBE replaces the client's list. DESIGN CHOICE (log 172): the entries are checked first, then OFFSET, then the
limits. -/
def State.subscribe (s : State) (m : Msg) : State × Resp :=
  let p := m.offset.toNat
  let others := s.dict.subs.filter fun x => !decide (x.path = m.path)
  let it := others.filter fun x => decide (x.path ≠ .mailbox)
  if m.payload.length % 4 ≠ 0 then (s, s.resp abType)
  else match s.subKeys (m.payload.length / 4) m.payload with
    | .error e => (s, s.resp e)
    | .ok [] => ({ s with dict := { s.dict with subs := others } }, s.resp abOk)
    | .ok keys =>
      let new : Sub := ⟨m.path, p, keys⟩
      if p = 0 then (s, s.resp abBelow)
      else if 65535 < p then (s, s.resp abAbove)
      else if m.path = .mailbox then
        if 256 < keys.length ∨ 3824 < s.subBytes keys then (s, s.resp abLimit)
        else ({ s with dict := { s.dict with subs := others ++ [new] } }, s.resp abOk)
      else if 8 ≤ it.length ∨ 64 < keys.length ∨ 1024 < s.subBytes keys then (s, s.resp abLimit)
      else if !s.busOk (it ++ [new]) then (s, s.resp abBusLoad)
      else ({ s with dict := { s.dict with subs := others ++ [new] } }, s.resp abOk)

/-! ### One request -/

/-- The service of a request that is neither dropped nor a duplicate; an internal fault refuses it with INTERNAL, and
DICT_INTERNAL tells of it (R65, R66). -/
def State.service (s : State) (x : WriteEnv) (svc : Nat) (describe : Bool) (m : Msg) : State × Resp :=
  if m.fault then (s.raise 0x1102 2 (m.index.toNat * 256 + m.sub.toNat) svc, s.resp abInternal)
  else match svc with
  | 1 => (s, if describe || m.describe then s.describeObj m.path m.index.toNat m.sub.toNat else s.readObj m.index.toNat m.sub.toNat)
  | 2 => s.writeObj x m
  | 3 => s.readBlock m
  | 4 => s.writeBlock x m
  | 5 => s.subscribe m
  | _ => (s, s.resp abService)

/-- Send a response over Iltur. -/
def State.respond (s : State) (svc : Nat) (describe : Bool) (m : Msg) (r : Resp) (t : Option Trailer) : State :=
  s.send (.response m.path (BitVec.ofNat 8 svc) m.requestId r t (answerWire m svc describe r t))

/-- Keep a response (R58) and send it. -/
def State.keepAnswer (s : State) (svc : Nat) (describe : Bool) (m : Msg) (r : Resp) (t : Option Trailer) : State :=
  (s.keep m.path ⟨m.requestId, BitVec.ofNat 8 svc, describe, msgContent m, r, t⟩).respond svc describe m r t

/-- An Iltur request (R50, R58–R60, R433): dropped, answered from its kept response, refused, or served and kept. -/
def State.ilturRequest (s : State) (x : WriteEnv) (svc : Nat) (describe : Bool) (m : Msg) : State :=
  let s := if restartsTimer m svc describe then s.setReg (okey 0x1100 6) 0 else s
  if msgDropped m svc describe then s.bump (okey 0x1100 4) 1
  else
    let s := s.heard m.path
    match s.keptFor m.path m.requestId with
    | some y =>
      if y.service = BitVec.ofNat 8 svc ∧ y.describe = describe ∧ y.msg = msgContent m then
        (s.bump (okey 0x1100 5) 1).respond svc describe m y.resp y.trailer
      else s.respond svc describe m (s.resp abReused) none
    | none =>
      if s.dict.handover then s.keepAnswer svc describe m (s.resp abHandover) none
      else match s.authFails m svc describe with
        | some (slot, why) => (s.raise 0x8003 1 slot why).keepAnswer svc describe m (s.resp abAuth) none
        | none =>
          let s := s.authTake m
          let ses := if m.session then s.session? m.path else none
          let (s, r) := s.service x svc describe m
          let (s, t) := s.signed ses m svc describe r
          s.keepAnswer svc describe m r t

/-- A doorbell (R62): the request area is submitted, dropped, or left alone with OVERRUN set. DESIGN CHOICE (log 173): the
doorbell of a request that is dropped clears OVERRUN too. -/
def State.doorbell (s : State) (x : WriteEnv) (svc : Nat) (describe : Bool) (m : Msg) : State :=
  if s.dict.mbBusy then { s with dict := { s.dict with mbOverrun := true } }
  else
    let s := { s with dict := { s.dict with mbDone := false, mbOverrun := false
                                            mbRequest := areaPut s.dict.mbRequest (msgHeader m svc describe ++ m.payload) } }
    if msgDropped m svc describe then s.bump (okey 0x1100 4) 1
    else
      let s := { s with dict := { s.dict with mbBusy := true, mbLastId := m.requestId } }
      let (s, r) := if s.dict.handover then (s, s.resp abHandover) else s.service x svc describe m
      if s.dict.mbBusy then { s with dict := { s.dict with mbServed := some (r, answerBox m svc describe r) } } else s

/-- Host accesses reach BAR0. -/
def State.barUp (s : State) : Bool := s.hostUp && !s.host.d3hot

/-- A request on either path (R46): none is heard while no pithead serves. -/
def State.request (s : State) (x : WriteEnv) (svc : Nat) (describe : Bool) (m : Msg) : State :=
  if !s.serves then s
  else if viaIltur m then s.ilturRequest x svc describe m
  else if s.barUp then s.doorbell x svc describe m
  else s

end Sys2Proof.Machine
end

