-- ==== Sys2Proof/Machine/Rows.lean ====
section
/-! DEFINITION. The rows that are one dictionary or mailbox request, or what the passage of time does to what the pithead
keeps (chapter 02, and the writes that have a row of their own). -/

namespace Sys2Proof.Machine

/-- The message as a write or read of one object with one payload. -/
def aim (m : Msg) (i sub : Nat) (b : Bytes) : Msg := { m with index := BitVec.ofNat 16 i, sub := BitVec.ofNat 8 sub, payload := b }

/-- The message as a block service of one object. -/
def aimAt (m : Msg) (i sub : Nat) : Msg := aim m i sub m.payload

/-- The input voltage in mV as last measured (object 0x2000.07). -/
def State.lastMv (s : State) : Nat := floorFx (Fx.mul (f32.decode (s.ob 0x2000 7)) (Fx.ofNat 1000))

/-- A write with nothing beside it from the environment. -/
def State.plainEnv (s : State) : WriteEnv := ⟨false, s.lastMv, none⟩

/-- One whole write of an object (R43). -/
def State.writes (s : State) (m : Msg) (i sub : Nat) (b : Bytes) : State := s.request s.plainEnv 2 false (aim m i sub b)

/-- A write that only its own row can carry, since the environment decides its result: a commit, and the recovered
reference. -/
def ownRow (m : Msg) : Bool :=
  decide ((m.index = 0x8200#16 ∧ m.sub = 1#8 ∧ m.payload = [2]) ∨ (m.index = 0x5800#16 ∧ m.sub = 3#8 ∧ m.payload = [1]))

/-! ### The services -/

/-- READ. -/
def execRead (m : Msg) (s : State) : Answer := done s (s.request s.plainEnv 1 false m)

/-- DESCRIBE: a READ with the DESCRIBE flag. -/
def execDescribe (m : Msg) (s : State) : Answer := done s (s.request s.plainEnv 1 true m)

/-- WRITE of an object. -/
def execWrite (m : Msg) (s : State) : Answer := doneMem s (if ownRow m then s else s.request s.plainEnv 2 false m)

/-- READ_BLOCK. -/
def execReadBlock (m : Msg) (s : State) : Answer := done s (s.request s.plainEnv 3 false m)

/-- WRITE_BLOCK. -/
def execWriteBlock (m : Msg) (s : State) : Answer := done s (s.request s.plainEnv 4 false m)

/-- SUBSCRIBE. -/
def execSubscribe (m : Msg) (s : State) : Answer := done s (s.request s.plainEnv 5 false m)

/-- BAD_SERVICE: a service code that no table row defines, or PUBLISH. -/
def execBadService (code : BitVec 8) (m : Msg) (s : State) : Answer :=
  done s (s.request s.plainEnv (if code.toNat = 0 ∨ 6 ≤ code.toNat then code.toNat else 6) false m)

/-- SNAPSHOT_LAPSE (R51): 1 s after its last chunk was read. -/
def execSnapshotLapse (p : Path) (index : BitVec 16) (sub : BitVec 8) (s : State) : Answer :=
  let left := s.dict.snaps.filter fun x => !decide (x.path = p ∧ x.key = okey index.toNat sub.toNat)
  done s { s with dict := { s.dict with snaps := left } }

/-- BLOCK_ABANDONED (R52): a staged write that received no chunk for 1 s. -/
def execBlockAbandoned (index : BitVec 16) (sub : BitVec 8) (s : State) : Answer :=
  let k := okey index.toNat sub.toNat
  let gone := s.dict.staged.filter fun x => decide (x.key = k)
  done s { s with dict := { s.dict with staged := s.dict.staged.filter fun x => !decide (x.key = k)
                                        abandoned := gone.map (fun x => (x.path, k)) ++ s.dict.abandoned } }

/-- KEPT_RESPONSE_EXPIRY (R58): 1 s after the response. -/
def execKeptResponseExpiry (p : Path) (id : BitVec 16) (s : State) : Answer :=
  let left := s.dict.kept.map fun (x : Path × List Kept) => if x.1 = p then (x.1, x.2.filter fun y => !decide (y.id = id)) else x
  done s { s with dict := { s.dict with kept := left } }

/-- MB_DOORBELL (R62). -/
def execMbDoorbell (service : BitVec 8) (m : Msg) (s : State) : Answer :=
  doneMem s (if ownRow m then s else s.request s.plainEnv service.toNat false { m with path := .mailbox })

/-- MB_RESPONSE (R62): the served request's response stands in MB_RESPONSE. -/
def execMbResponse (s : State) : Answer :=
  done s (match s.dict.mbServed with
    | none => s
    | some r =>
      if !s.dict.mbBusy then s
      else
        ({ s with dict := { s.dict with mbBusy := false, mbDone := true, mbServed := none
                                        mbArea := areaPut s.dict.mbArea r.2 } }).msix 0)

/-- PITHEAD_HANDOVER (R17, R60): the role moves from D0 to D8 with the kept responses, the subscriptions and the accepted
writes; until the next boundary requests are refused with HANDOVER. -/
def execPitheadHandover (s : State) : Answer :=
  done s (if !s.serves ∨ s.boot.pithead ≠ some false ∨ s.fenced (.d 8) then s
    else
      { s with boot := { s.boot with pithead := some true }
               sec := { s.sec with sessions := [] }
               dict := { s.dict with staged := [], snaps := [], abandoned := [], handover := true } })

/-! ### Queues (R78, R367) -/

def execQueueEnable (m : Msg) (q : Fin 128) (s : State) : Answer := done s (s.writes m (0x4080 + q.val) 6 [1])
def execQueueDisable (m : Msg) (q : Fin 128) (s : State) : Answer := done s (s.writes m (0x4080 + q.val) 6 [0])
def execQueueHaltRequest (m : Msg) (q : Fin 128) (s : State) : Answer := done s (s.writes m (0x4080 + q.val) 6 [2])

/-- A write of a queue's TAIL mirror (R367): its offset in BAR0, its length, its value. -/
def State.mirrorWrite (s : State) (q off len : Nat) (v : Nat) : State :=
  if !s.barUp ∨ !s.serves ∨ off ≠ 0x10000 + 4 * q ∨ len ≠ 4 then s
  else if s.consistent false (qkey q 7) v then s.setReg (qkey q 7) v
  else (s.bump (okey 0x5140 4) 1).raise 0x5109 1 q v

/-- TAIL_WRITE: of the object, or of its mirror. -/
def execTailWrite (m : Msg) (mirror : Option (Nat × Nat)) (q : Fin 128) (value : BitVec 32) (s : State) : Answer :=
  done s (match mirror with
    | none => s.writes m (0x4080 + q.val) 7 (leBytes 4 value.toNat)
    | some (off, len) => s.mirrorWrite q.val off len value.toNat)

/-! ### Streams and memory (R250, R264) -/

def execResume (m : Msg) (value : BitVec 32) (s : State) : Answer := done s (s.writes m 0x4110 1 (leBytes 4 value.toNat))

/-- The bytes of a batch (R264). -/
def pairBytes (l : List (BitVec 64 × BitVec 64)) : Bytes := l.flatMap fun p => leBytes 8 p.1.toNat ++ leBytes 8 p.2.toNat

/-- MAP_BATCH as one chunk with LAST. -/
def execMapBatch (m : Msg) (pairs : List (BitVec 64 × BitVec 64)) (s : State) : Answer :=
  done s (s.request s.plainEnv 4 false { aim m 0x4410 1 (pairBytes pairs) with offset := 0, last := true })

def execLookupAddr (m : Msg) (addr : BitVec 64) (s : State) : Answer := done s (s.writes m 0x4410 2 (leBytes 8 addr.toNat))

/-! ### Jobs and steps (R38, R211) -/

def execStartJob (m : Msg) (s : State) : Answer := done s (s.writes m 0x7002 1 [1])
def execEndJob (m : Msg) (s : State) : Answer := done s (s.writes m 0x7002 1 [0])
def execInjectReplay (m : Msg) (s : State) : Answer := done s (s.writes m 0x3100 0x0D [1])
def execHeldStepWrite (m : Msg) (value : BitVec 64) (s : State) : Answer := done s (s.writes m 0x3150 5 (leBytes 8 value.toNat))

/-! ### Fixer dies and service (R296, R313, R338) -/

def execFreeze (m : Msg) (value : BitVec 32) (s : State) : Answer := done s (s.writes m 0x6000 2 (leBytes 4 value.toNat))
def execProbeStep (m : Msg) (value : BitVec 32) (s : State) : Answer := done s (s.writes m 0x6020 2 (leBytes 4 value.toNat))
def execFenceDie (m : Msg) (die : Die) (s : State) : Answer := done s (s.writes m 0x7110 1 (leBytes 2 (dieArg die + 1)))
def execReadmitDie (m : Msg) (die : Die) (s : State) : Answer := done s (s.writes m 0x7110 1 (leBytes 2 (dieArg die)))

/-! ### Links and clocks (R353, R356, R373) -/

def execLaneSwap (m : Msg) (value : BitVec 16) (s : State) : Answer := done s (s.writes m 0x5130 2 (leBytes 2 value.toNat))
def execRequalify (m : Msg) (port : BitVec 8) (s : State) : Answer := done s (s.writes m 0x5130 1 [port])

def execClockSelectRecovered (m : Msg) (steady : Bool) (s : State) : Answer :=
  done s (s.request { s.plainEnv with steady := steady } 2 false (aim m 0x5800 3 [1]))

/-! ### Stops and bring-up (R382, R383, R418) -/

/-- ESTOP_REQUEST, with the input voltage of its moment. -/
def execEstopRequest (m : Msg) (mv : Nat) (s : State) : Answer :=
  if beyond mv then .refused .beyondRatings
  else doneMem s (s.request { s.plainEnv with mv := mv } 2 false (aim m 0x2010 5 [1]))

def execEstopRestart (m : Msg) (s : State) : Answer := doneMem s (s.writes m 0x2010 3 [1])
def execBootRestart (m : Msg) (s : State) : Answer := doneMem s (s.writes m 0x1200 0x0A [1])

/-! ### Security (R423–R434) -/

def execLcRequest (m : Msg) (value : BitVec 8) (s : State) : Answer := done s (s.writes m 0x8000 2 [value])
def execIdentityGenerate (m : Msg) (value : BitVec 8) (s : State) : Answer := done s (s.writes m 0x8000 3 [value])
def execFloorAdvance (m : Msg) (value : BitVec 8) (s : State) : Answer := done s (s.writes m 0x8300 2 [value])
def execUpdateOpen (m : Msg) (s : State) : Answer := done s (s.writes m 0x8200 1 [1])
def execUpdateAbandon (m : Msg) (s : State) : Answer := done s (s.writes m 0x8200 1 [3])

/-- IMAGE_CHUNK: one chunk of a segment. -/
def execImageChunk (m : Msg) (s : State) : Answer := done s (s.request s.plainEnv 4 false (aimAt m 0x8200 2))

/-- UPDATE_COMMIT, with what the pithead finds in the staged image. -/
def execUpdateCommit (m : Msg) (staged : ImageCopy) (s : State) : Answer :=
  done s (s.request { s.plainEnv with staged := some staged } 2 false (aim m 0x8200 1 [2]))

def execAttestNonce (m : Msg) (s : State) : Answer := done s (s.request s.plainEnv 4 false (aimAt m 0x8400 3))
def execChallengeRead (m : Msg) (s : State) : Answer := done s (s.request s.plainEnv 3 false (aimAt m 0x8100 1))
def execSessionOpen (m : Msg) (s : State) : Answer := done s (s.request s.plainEnv 4 false (aimAt m 0x8100 2))
def execSessionClose (m : Msg) (value : BitVec 8) (s : State) : Answer := done s (s.writes m 0x8100 6 [value])

/-! ### Observation and the sideband (R444, R448–R455, R461) -/

def execSampleRead (m : Msg) (die : Fin 32) (s : State) : Answer :=
  done s (s.request s.plainEnv 3 false (aimAt m (0xA000 + 0x100 * die.val + 0x82) 2))

def execTraceArm (m : Msg) (s : State) : Answer := done s (s.writes m 0x9110 6 [1])
def execTraceStop (m : Msg) (s : State) : Answer := done s (s.writes m 0x9110 6 [0])
def execTriggerNow (m : Msg) (s : State) : Answer := done s (s.writes m 0x9110 7 [1])
def execFullExposureArm (m : Msg) (value : BitVec 8) (s : State) : Answer := done s (s.writes m 0x9200 1 [value])

def execBreakResume (m : Msg) (die : Fin 32) (s : State) : Answer := done s (s.writes m (0xA000 + 0x100 * die.val + 0x84) 3 [1])
def execSingleStep (m : Msg) (die : Fin 32) (s : State) : Answer := done s (s.writes m (0xA000 + 0x100 * die.val + 0x84) 3 [2])
def execLocate (m : Msg) (value : BitVec 8) (s : State) : Answer := done s (s.writes m 0x1300 2 [value])

end Sys2Proof.Machine
end

