-- ==== Sys2Proof/Machine/Tick.lean ====
section
/-! DEFINITION. The tick (R68–R76): the boundary with its ordered actions, and the external edges that steer the
generator. -/

namespace Sys2Proof.Machine

/-! ### The generator (R68–R73) -/

/-- Length in ns of the tick that ends (R68, R71–R73): as placed in acquisition, else the period that the generator makes,
with its phase correction. -/
def State.tickLen (s : State) : Nat :=
  match s.tick.placed with
  | some n => n
  | none => ((if s.ob 0x5000 7 = 3 then (s.tick.measured : Int) else s.periodNs) + s.tick.correction).toNat

/-- The generator makes a boundary: the counter increments, and a boundary placed from an acquisition edge locks it
(R72). -/
def State.makeBoundary (s : State) : State :=
  let lock := s.tick.placed.isSome
  let s := (s.setReg (okey 0x5000 6) ((s.tickNo + 1) % 2 ^ 64))
  let s := { s with
    tick := { s.tick with now := 0, correction := 0, placed := none
                          acquiring := if lock then none else s.tick.acquiring.map (· + 1) }
    page := { s.page with apFaults := [] }
    dict := { s.dict with handover := false } }
  if lock then (s.setReg (okey 0x5000 7) (s.ob 0x5000 1)).raise 0x5002 0 (s.ob 0x5000 1) 0 else s

/-- The generator enters holdover (R73). -/
def State.holdover (s : State) : State :=
  let s := { s with tick := { s.tick with acquiring := none, missRun := 0 } }
  (s.setReg (okey 0x5000 7) 3).raise 0x5001 1 (s.ob 0x5000 1) (s.ob 0x5000 8)

/-- An edge that is not accepted (R71, R73). -/
def State.strayEdge (s : State) : State := s.bump (okey 0x5000 9) 1

/-- An edge arrives `since` ns after the boundary that opened this tick, `offset` ns off the time at which the generator
expects one (R71, R72). -/
def State.edge (s : State) (since offset : Int) : State :=
  let p : Int := s.periodNs
  match s.tick.acquiring with
  | some n =>
    if s.tick.placed.isNone ∧ p ≤ 2 * (n * p + since) then
      let at' := since + 1200
      { s with tick := { s.tick with placed := some (if p ≤ at' then at' else at' + p).toNat } }
    else s
  | none =>
    if s.ob 0x5000 7 = 0 then s
    else if s.ob 0x5000 7 = 3 ∨ 500 < offset.natAbs then s.strayEdge
    else { s with tick := { s.tick with correction := max (-100) (min 100 offset), missRun := 0
                                        measured := (p + offset).toNat } }

/-- TICK_EDGE: an edge on SB0 while source 1 is followed (R70, R71). -/
def execTickEdge (sinceBoundary : Nat) (offset : Int) (s : State) : Answer :=
  done s (if s.serves ∧ s.ob 0x5000 1 = 1 then s.edge sinceBoundary offset else s)

/-- The sender's edge that a marked codeword gives (R361), in ns: 12.85 ns ÷ 64 a unit of TICK_OFFSET. -/
def State.markerEdge (s : State) (arrivalPs : Int) (tickOffset : Nat) : Int :=
  (arrivalPs - tickOffset * 12850 / 64) / 1000 - s.ob 0x5100 2

/-- TICK_MARKER: a marked codeword on the lane that source 2 follows (R70, R342, R361), by its lane control word: TICK is set and
LANE_ID names the logical lane; the times shown are those of its arrival. -/
def execTickMarker (port : Fin 64) (lane : Fin 8) (sinceBoundary : Nat) (arrivalPs : Int) (control : BitVec 20) (s : State) :
    Answer :=
  let off := laneTickOffset control
  let back := s.markerEdge 0 off
  done s (if s.serves ∧ s.ob 0x5000 1 = 2 ∧ s.ob 0x5000 3 = port.val ∧ s.ob 0x5000 4 = lane.val ∧ laneTick control ∧
      laneId control = lane.val then
    s.edge (sinceBoundary + back) (s.markerEdge arrivalPs off)
  else s)

/-- EDGE_MISSED (R72, R73): the third expected edge in a row that is missed, or three periods of acquisition without
one. -/
def execEdgeMissed (s : State) : Answer :=
  done s (if !s.serves then s
    else match s.tick.acquiring with
      | some n => if 3 ≤ n ∧ s.tick.placed.isNone then (s.bump (okey 0x5000 8) 3).holdover else s
      | none =>
        if s.ob 0x5000 7 = 1 ∨ s.ob 0x5000 7 = 2 then
          let s := s.bump (okey 0x5000 8) 1
          if 2 ≤ s.tick.missRun then s.holdover else { s with tick := { s.tick with missRun := s.tick.missRun + 1 } }
        else s)

/-! ### Step 1 of R76: what a boundary latches -/

/-- A bit error in a line of memory waits for the line's next read (R270, R274, R277). -/
def State.strike (s : State) (u : Upset) : State :=
  let old := (SMap.get? s.page.flaws (lineKey u.line)).getD false
  { s with page := { s.page with flaws := SMap.put s.page.flaws (lineKey u.line) (old || u.uncorrectable) } }

/-- An access to a bin met a bit error (R277, R278): a correction is counted, an uncorrectable error acts by the part of the bin
it lies in. The access wakes the bin (R280). A context copy is written again from the engine's own context and a page-in starts
again, which show in no other state. -/
def State.binUpset (s : State) (u : BinUpset) : State :=
  let s := s.wake u.die.val 18
  if !u.uncorrectable then s.bump (okey (0xA000 + 0x100 * u.die.val + 0x70) 3) 1
  else match binPart u.offset.val with
    | 0 => s.bump (okey (0xA000 + 0x100 * u.die.val + 0x90) 3) 1
    | 1 => s
    | 3 => s
    | _ => s.failUnit (.t u.die) 0 0 3 0x11

/-- The bit errors of the tick that ends. -/
def State.upsets (s : State) (env : TickEnv) : State :=
  (env.binUpsets.filter fun u => s.live (.t u.die)).foldl (fun s u => s.binUpset u) (env.upsets.foldl (fun s u => s.strike u) s)

/-- The measurements of the tick that ends, the tallies and the silence timer. -/
def State.latch (s : State) (env : TickEnv) : State :=
  let s := ((((s.upsets env).latchTallies).latchFreq env.freq).latchRef env.refPpm).latchPower env
  let s := s.setReg (okey 0x1100 6) (satN 32 (s.ob 0x1100 6 + env.silenceMs))
  match env.oscFail with
  | some d => s.oscFailed d
  | none => s.dropCause 5

/-! ### Step 2: heartbeats -/

/-- Heartbeats of the tick that ends: a die that misses two in a row is declared lost (a failure of it: R322), and a die declared
lost at the previous boundary is fenced at this one. A die held in reset posts none (R279). -/
def State.heartbeats (s : State) (silent : List Die) : State :=
  let s := s.tick.lost.foldl (fun s d => s.fenceNext d true) s
  let s := { s with tick := { s.tick with lost := [] } }
  (allDies.filter s.joined).foldl (fun s d =>
    let missed := !s.live d || (silent.any fun x => decide (x = d)) && !s.managersHalted d
    let n := if missed then SMap.get 0 s.tick.missing d.ix + 1 else 0
    let s := { s with tick := { s.tick with missing := if n = 0 then SMap.del s.tick.missing d.ix
                                                       else SMap.put s.tick.missing d.ix n } }
    if n = 2 then
      let s := { s.noteEntry 3 0x3F (unitOfDie d) with tick := { s.tick with lost := s.tick.lost ++ [d] } }
      s.unitSuspect
    else s) s

/-! ### Step 3: numbering -/

/-- Pending numbering changes, with the ports of Drift dies that leave or return (R33–R36, R360); the numbering stands
from step 7 of bring-up on. -/
def State.renumber (s : State) : State :=
  if s.boot.step < 8 then s
  else
  let before := s.num.fenced
  let t := s.numberingChanges
  let t := if t.stepBroken then t.endJob else t
  let after := t.num.fenced
  let t := (after.filter fun d => !before.any fun x => decide (x = d)).foldl (fun s d => s.portsOfFenced d) t
  (before.filter fun d => !after.any fun x => decide (x = d)).foldl (fun s d => s.portsOfReadmitted d) t

/-! ### Step 4: accepted writes -/

/-- A tick-aligned round of the step muster is released at this boundary. -/
def State.stepDue (s : State) (len : Nat) : Bool :=
  s.jobRuns && match s.stepMuster with
    | none => false
    | some m => match (s.mst m).complete with
      | none => false
      | some t => s.inTime m (s.mst m) t len

/-- Accepted RWT writes, in the order of their first acceptance (R45), and what else takes effect with them: a tick source
written before Ready (R70), the cap (R381, R384, R385), a life-cycle transition (R421), a policy image (R209). -/
def State.takeWrites (s : State) (env : TickEnv) (len : Nat) : State :=
  let s := if s.boot.sourceDue ∧ s.isReady then ({ s with boot := { s.boot with sourceDue := false } }).takeSource else s
  let ws := s.dict.rwt
  let s := { s with dict := { s.dict with rwt := [] } }
  let s := ws.foldl (fun s w => s.takeEffect w) s
  let s := if s.pwr.uvCleared then ({ s with pwr := { s.pwr with uvCleared := false } }).setCap 1 false else s
  let s := s.enterSafe
  let s := if s.pwr.rackWrite then s.leaveSafe else s
  let s := s.showCap.lcTransition env.wipeFail
  if s.stepDue len then s else s.switchPolicy

/-- SHAPE_GENERATION follows the shape, once per boundary (R471). -/
def State.countShape (s : State) (before : List Nat) : State :=
  if 8 ≤ s.boot.step ∧ (s.num.changed ∨ before ≠ s.shape) then
    ({ s with num := { s.num with changed := false } }).bump (okey 0x7001 1) 1
  else s

/-! ### Step 5: the verdict -/

/-- The verdict fixed at a release becomes current (R196), or a restored module section is applied (R334); as the epoch
advances, partial reductions are cleared (R363). -/
def State.takeVerdict (s : State) : State :=
  let e := s.epoch
  let s := s.verdictEffect.applySection
  if s.epoch = e then s else s.redClear

/-! ### Step 9: work goes on; retention (R280) -/

/-- Stopes that hold a command, a tag, or wait for one. -/
def State.occupied (s : State) : List (Nat × Nat) :=
  let cs := (s.cmds.filter fun c => decide ((s.qDie c.q).kind = 1)).map fun c =>
    ((s.qDie c.q).num, s.physOf (s.qDie c.q).num (dShaft c.desc))
  let ts := (s.ctxs.filter fun (p : Nat × Ctx) => decide (0 < p.2.tags) || !(s.heldRemote p.1).isEmpty).map fun (p : Nat × Ctx) =>
    (ctxDie p.1, s.physOf (ctxDie p.1) (ctxShaft p.1))
  cs ++ ts

/-- Slots of a ring from its head to its tail. -/
def slotsTo (size tail : Nat) : Nat → Nat → List Nat
  | 0, _ => []
  | n + 1, h => if h = tail then [] else h :: slotsTo size tail n ((h + 1) % size)

/-- The shaft that a waiting descriptor names; 16 stands for every shaft, where the descriptor cannot be read (log 200). -/
def State.slotShaft (s : State) (q slot : Nat) : Nat :=
  match s.access (s.descAddr q slot) false, s.devRead (s.descAddr q slot) 128 with
  | .served, some b => dShaft (BitVec.ofNat 1024 (leNat b))
  | _, _ => 16

/-- Die and logical shaft of the descriptors that wait in the queues of Trify dies (R280). -/
def State.awaited (s : State) : List (Nat × Nat) :=
  ((List.range 128).filter fun q => decide (s.qState q ≠ 0 ∧ (s.qDie q).kind = 1)).flatMap fun q =>
    (slotsTo (s.qSize q) (s.qTail q) (s.qSize q) (s.qHead q)).map fun i => ((s.qDie q).num, s.slotShaft q i)

/-- The physical shafts that waiting descriptors are for. -/
def State.wanted (s : State) : List (Nat × Nat) :=
  s.awaited.flatMap fun x => if x.2 < 16 then [(x.1, s.physOf x.1 x.2)] else (List.range 18).map fun p => (x.1, p)

/-- Good shafts of a die that did nothing in the tick that ends, with nothing that waits for them. -/
def State.idleShafts (s : State) (busy : List (Nat × Nat)) (t : Nat) : List Nat :=
  let mine := (busy.filter fun x => decide (x.1 = t)).map Prod.snd
  (List.range 18).filter fun p => decide (s.physState t p < 16) && !memN p mine

/-- The bin of a die may sleep: all its stopes in service are retained, no trace is armed, no page-in is staged. -/
def State.binIdle (s : State) (t : Nat) (retained : List Nat) : Bool :=
  ((List.range (s.shafts t)).all fun k => memN (s.physOf t k) retained) &&
    decide (s.ob 0x9110 8 ≠ 1 ∧ s.ob 0x9110 8 ≠ 2) && !s.page.ins.any fun i => decide (i.die = t)

/-- The idle stopes of a die enter retention, and its bin after them; those retained already stay. -/
def State.retainDie (s : State) (busy : List (Nat × Nat)) (t : Nat) : State :=
  let old := (s.page.retained.filter fun x => decide (x.1 = t)).map Prod.snd
  let now := old ++ (s.idleShafts busy t).filter fun p => !memN p old
  let now := if !memN 18 now ∧ s.binIdle t now then now ++ [18] else now
  { s with page := { s.page with retained := (s.page.retained.filter fun x => decide (x.1 ≠ t)) ++ now.map fun p => (t, p) } }

/-- Retention at a boundary: the tick that ends is counted for each retained stope, then idle stopes and bins enter. -/
def State.retain (s : State) : State :=
  let s := s.page.retained.foldl (fun (s : State) (x : Nat × Nat) =>
    if x.2 < 18 then s.bump (okey (0xA000 + 0x100 * x.1 + 0x70) 2) 1 else s) s
  let held := s.occupied
  let busy := held ++ s.page.busy ++ s.wanted
  let s := if s.ob 0x4440 1 = 1 then
      ((List.range 32).filter fun t => s.live (Die.ofIx t)).foldl (fun s t => s.retainDie busy t) s
    else s
  { s with page := { s.page with busy := held } }

/-- Page-ins that found no frame are tried again (R265), hosted stopes are swapped and suspended commands restored after them
(R76, R325). -/
def State.resumeWork (s : State) : State := if s.isReady then s.retryPageIns.swapStopes.restoreSuspended.retain else s

/-! ### Step 10: subscriptions (R55, R63) -/

/-- The values of a subscription's objects, in list order. DESIGN CHOICE (log 174): an object of a die fenced since is
published as the pithead holds it. -/
def State.published (s : State) (x : Sub) : Bytes :=
  x.keys.flatMap fun k => match objDef s.fuse (k / 256) (k % 256) with
    | some o => leBytes (tyBytes o.ty) (s.view k)
    | none => []

/-- The newest publish to a client taken out of what was sent, since it was not. -/
def dropPublish (p : Path) : List Out → List Out
  | [] => []
  | o :: l => if (match o with
      | .publish q _ _ _ => decide (q = p)
      | _ => false) then l else o :: dropPublish p l

/-- A publish that has not been sent is replaced by the newer one, and counted (R55). -/
def State.losePublish (s : State) (p : Path) : State :=
  let l := (dropPublish p s.out.reverse).reverse
  if l.length = s.out.length then s else ({ s with out := l }).bump (okey 0x1100 7) 1

/-- Every subscription due at this tick is published; one not sent yet is replaced and counted. -/
def State.publish (s : State) (unsent : List Path) : State :=
  let due := s.dict.subs.filter fun x => decide (0 < x.period ∧ s.tickNo % x.period = 0)
  let out := due.map fun x => (x, s.published x)
  out.foldl (fun (s : State) (y : Sub × Bytes) =>
    match y.1.path with
    | .mailbox =>
      ({ s with dict := { s.dict with pubStart := s.tickNo, pubData := y.2, pubEnd := s.tickNo } }).msix 2
    | p =>
      let s := if unsent.any (fun x => decide (x = p)) then s.losePublish p else s
      s.send (.publish p (s.tickNo % 2 ^ 32) y.2 (publishWire s.tickNo y.2))) s

/-- SB0 as the tick output (R74). -/
def State.drivePulse (s : State) : State := if s.ob 0x5000 5 = 1 ∧ s.isReady then s.send .sb0Pulse else s

/-- The codewords that start first at or after the tick edge, 1.2 µs before the boundary, have been marked on the lanes of every up
port (R361); how long after the edge each lane started one is a free value (log 215). -/
def State.markTick (s : State) : State :=
  (List.range 64).foldl (fun s p => if s.portUp p then
    s.send (.marker p ((List.range 8).map fun k => Config.markOffset s.tickNo (8 * p + k))) else s) s

/-! ### The boundary -/

/-- The boundary actions of R76, in their order. -/
def State.boundary (s : State) (env : TickEnv) : State :=
  let len := s.tickLen
  let shape := s.shape
  let s := s.makeBoundary.drivePulse.markTick
  let s := s.latch env
  let s := s.heartbeats env.silent
  let s := s.renumber
  let s := (s.takeWrites env len).countShape shape
  let s := s.takeVerdict
  let s := if s.jobRuns then s.releaseDue len else s
  let s := s.openPhases
  let s := if s.governorHalted then s else s.govern
  let s := s.resumeWork
  s.publish env.unsent

/-- TICK_BOUNDARY (R76). -/
def execTickBoundary (env : TickEnv) (s : State) : Answer := doneMem s (if s.serves then s.boundary env else s)

end Sys2Proof.Machine
end

