-- ==== Sys2Proof/Machine/Dispatch.lean ====
section
/-! DEFINITION. Dispatch: the one match over the commands, each arm one call of the command's meaning. -/

namespace Sys2Proof.Machine

def exec (i : Instr) (s : State) : Host.Outcome State Fault Refusal :=
  match i with
  | .read m => Sys2Proof.Machine.execRead m s
  | .describe m => Sys2Proof.Machine.execDescribe m s
  | .write m => Sys2Proof.Machine.execWrite m s
  | .readBlock m => Sys2Proof.Machine.execReadBlock m s
  | .writeBlock m => Sys2Proof.Machine.execWriteBlock m s
  | .subscribe m => Sys2Proof.Machine.execSubscribe m s
  | .badService code m => Sys2Proof.Machine.execBadService code m s
  | .snapshotLapse p index sub => Sys2Proof.Machine.execSnapshotLapse p index sub s
  | .blockAbandoned index sub => Sys2Proof.Machine.execBlockAbandoned index sub s
  | .keptResponseExpiry p id => Sys2Proof.Machine.execKeptResponseExpiry p id s
  | .mbDoorbell service m => Sys2Proof.Machine.execMbDoorbell service m s
  | .mbResponse => Sys2Proof.Machine.execMbResponse s
  | .pitheadHandover => Sys2Proof.Machine.execPitheadHandover s
  | .tickBoundary env => Sys2Proof.Machine.execTickBoundary env s
  | .tickEdge sinceBoundary offset => Sys2Proof.Machine.execTickEdge sinceBoundary offset s
  | .tickMarker port lane sinceBoundary arrivalPs tickOffset => Sys2Proof.Machine.execTickMarker port lane sinceBoundary arrivalPs tickOffset s
  | .edgeMissed => Sys2Proof.Machine.execEdgeMissed s
  | .queueEnable m q => Sys2Proof.Machine.execQueueEnable m q s
  | .queueDisable m q => Sys2Proof.Machine.execQueueDisable m q s
  | .queueHaltRequest m q => Sys2Proof.Machine.execQueueHaltRequest m q s
  | .tailWrite m mirror q value => Sys2Proof.Machine.execTailWrite m mirror q value s
  | .descriptorFetch q => Sys2Proof.Machine.execDescriptorFetch q s
  | .admitCommand q now => Sys2Proof.Machine.execAdmitCommand q now s
  | .gatherDeadline die shaft engine => Sys2Proof.Machine.execGatherDeadline die shaft engine s
  | .commandComplete q slot now => Sys2Proof.Machine.execCommandComplete q slot now s
  | .musterTimeout muster => Sys2Proof.Machine.execMusterTimeout muster s
  | .windowEndSuspend q slot consumed => Sys2Proof.Machine.execWindowEndSuspend q slot consumed s
  | .nop q slot => Sys2Proof.Machine.execNop q slot s
  | .arrayProduct q slot stall parity => Sys2Proof.Machine.execArrayProduct q slot stall parity s
  | .arrayDifference q slot stall parity => Sys2Proof.Machine.execArrayDifference q slot stall parity s
  | .arrayAbsDifference q slot stall parity => Sys2Proof.Machine.execArrayAbsDifference q slot stall parity s
  | .arraySquaredDifference q slot stall parity => Sys2Proof.Machine.execArraySquaredDifference q slot stall parity s
  | .arrayLogMode q slot stall bankParity => Sys2Proof.Machine.execArrayLogMode q slot stall bankParity s
  | .arrayReduceMin q slot stall parity => Sys2Proof.Machine.execArrayReduceMin q slot stall parity s
  | .arrayReduceMax q slot stall parity => Sys2Proof.Machine.execArrayReduceMax q slot stall parity s
  | .arrayPaired q slot stall parity => Sys2Proof.Machine.execArrayPaired q slot stall parity s
  | .arrayFp32Accurate q slot stall parity => Sys2Proof.Machine.execArrayFp32Accurate q slot stall parity s
  | .arrayFp64 q slot stall parity => Sys2Proof.Machine.execArrayFp64 q slot stall parity s
  | .passSplit q slot => Sys2Proof.Machine.execPassSplit q slot s
  | .nuggetPoolSwap die shaft engine sub need => Sys2Proof.Machine.execNuggetPoolSwap die shaft engine sub need s
  | .vAdd q slot => Sys2Proof.Machine.execVAdd q slot s
  | .vMul q slot => Sys2Proof.Machine.execVMul q slot s
  | .vAxpby q slot => Sys2Proof.Machine.execVAxpby q slot s
  | .vExp q slot => Sys2Proof.Machine.execVExp q slot s
  | .vRecip q slot => Sys2Proof.Machine.execVRecip q slot s
  | .vRsqrt q slot => Sys2Proof.Machine.execVRsqrt q slot s
  | .vSigmoid q slot => Sys2Proof.Machine.execVSigmoid q slot s
  | .vRowSum q slot => Sys2Proof.Machine.execVRowSum q slot s
  | .vRowMax q slot => Sys2Proof.Machine.execVRowMax q slot s
  | .vSoftmax q slot => Sys2Proof.Machine.execVSoftmax q slot s
  | .vRmsnorm q slot => Sys2Proof.Machine.execVRmsnorm q slot s
  | .vLayernorm q slot => Sys2Proof.Machine.execVLayernorm q slot s
  | .vTopkMax q slot => Sys2Proof.Machine.execVTopkMax q slot s
  | .vTopkMin q slot => Sys2Proof.Machine.execVTopkMin q slot s
  | .vConvert q slot => Sys2Proof.Machine.execVConvert q slot s
  | .copy q slot => Sys2Proof.Machine.execCopy q slot s
  | .arm q slot => Sys2Proof.Machine.execArm q slot s
  | .dump q slot => Sys2Proof.Machine.execDump q slot s
  | .shadowTakeEffect ctx => Sys2Proof.Machine.execShadowTakeEffect ctx s
  | .plateReadReply ctx addr ecc remote => Sys2Proof.Machine.execPlateReadReply ctx addr ecc remote s
  | .writeAck ctx addr faulted => Sys2Proof.Machine.execWriteAck ctx addr faulted s
  | .pageIn addr => Sys2Proof.Machine.execPageIn addr s
  | .pageInDone addr readError => Sys2Proof.Machine.execPageInDone addr readError s
  | .resume m value => Sys2Proof.Machine.execResume m value s
  | .streamResume q slot => Sys2Proof.Machine.execStreamResume q slot s
  | .streamHaltStale ctx => Sys2Proof.Machine.execStreamHaltStale ctx s
  | .remoteTimeout ctx => Sys2Proof.Machine.execRemoteTimeout ctx s
  | .deadlockDetect die shaft blocked => Sys2Proof.Machine.execDeadlockDetect die shaft blocked s
  | .mapBatch m pairs => Sys2Proof.Machine.execMapBatch m pairs s
  | .pageDrainDone addr readError => Sys2Proof.Machine.execPageDrainDone addr readError s
  | .lookupAddr m addr => Sys2Proof.Machine.execLookupAddr m addr s
  | .hostApertureRead offset len => Sys2Proof.Machine.execHostApertureRead offset len s
  | .hostApertureWrite offset data => Sys2Proof.Machine.execHostApertureWrite offset data s
  | .retentionWake die shaft => Sys2Proof.Machine.execRetentionWake die shaft s
  | .canarySegment die work => Sys2Proof.Machine.execCanarySegment die work s
  | .canaryLate die phys => Sys2Proof.Machine.execCanaryLate die phys s
  | .defectListAppend => Sys2Proof.Machine.execDefectListAppend s
  | .startJob m => Sys2Proof.Machine.execStartJob m s
  | .endJob m => Sys2Proof.Machine.execEndJob m s
  | .injectReplay m => Sys2Proof.Machine.execInjectReplay m s
  | .heldStepWrite m value => Sys2Proof.Machine.execHeldStepWrite m value s
  | .update q slot => Sys2Proof.Machine.execUpdate q slot s
  | .verdict q slot => Sys2Proof.Machine.execVerdict q slot s
  | .freeze m value => Sys2Proof.Machine.execFreeze m value s
  | .probeStep m value => Sys2Proof.Machine.execProbeStep m value s
  | .checkpointSave q slot acked => Sys2Proof.Machine.execCheckpointSave q slot acked s
  | .ckptTimeout f => Sys2Proof.Machine.execCkptTimeout f s
  | .restoreGroup q slot peer => Sys2Proof.Machine.execRestoreGroup q slot peer s
  | .restoreModule q slot peer => Sys2Proof.Machine.execRestoreModule q slot peer s
  | .contactSheet q slot peer => Sys2Proof.Machine.execContactSheet q slot peer s
  | .fenceDie m die => Sys2Proof.Machine.execFenceDie m die s
  | .readmitDie m die => Sys2Proof.Machine.execReadmitDie m die s
  | .fixerFirmwareSwitch f => Sys2Proof.Machine.execFixerFirmwareSwitch f s
  | .frameReceive port frame => Sys2Proof.Machine.execFrameReceive port frame s
  | .replayTimeout port => Sys2Proof.Machine.execReplayTimeout port s
  | .plateGapTimeout port => Sys2Proof.Machine.execPlateGapTimeout port s
  | .linkSilence port => Sys2Proof.Machine.execLinkSilence port s
  | .retrain port replays attempts ok => Sys2Proof.Machine.execRetrain port replays attempts ok s
  | .readReq port msg => Sys2Proof.Machine.execReadReq port msg s
  | .data port msg plates rider => Sys2Proof.Machine.execData port msg plates rider s
  | .ack msg => Sys2Proof.Machine.execAck msg s
  | .refuse msg => Sys2Proof.Machine.execRefuse msg s
  | .musterPart msg now => Sys2Proof.Machine.execMusterPart msg now s
  | .musterRelease msg => Sys2Proof.Machine.execMusterRelease msg s
  | .swapReq port lane => Sys2Proof.Machine.execSwapReq port lane s
  | .laneSwap m value => Sys2Proof.Machine.execLaneSwap m value s
  | .requalify m port => Sys2Proof.Machine.execRequalify m port s
  | .qualification port failing ratios peer => Sys2Proof.Machine.execQualification port failing ratios peer s
  | .hostReset surprise => Sys2Proof.Machine.execHostReset surprise s
  | .powerStateChange d3hot => Sys2Proof.Machine.execPowerStateChange d3hot s
  | .doeDiscovery request => Sys2Proof.Machine.execDoeDiscovery request s
  | .getVersion request => Sys2Proof.Machine.execGetVersion request s
  | .getCapabilities request => Sys2Proof.Machine.execGetCapabilities request s
  | .negotiateAlgorithms request pss4096 hash512 => Sys2Proof.Machine.execNegotiateAlgorithms request pss4096 hash512 s
  | .getDigests request => Sys2Proof.Machine.execGetDigests request s
  | .getCertificate request offset len => Sys2Proof.Machine.execGetCertificate request offset len s
  | .challenge request => Sys2Proof.Machine.execChallenge request s
  | .getMeasurements request => Sys2Proof.Machine.execGetMeasurements request s
  | .hostReadTimeout addr => Sys2Proof.Machine.execHostReadTimeout addr s
  | .clockSelectRecovered m steady => Sys2Proof.Machine.execClockSelectRecovered m steady s
  | .referenceLoss cause ppm => Sys2Proof.Machine.execReferenceLoss cause ppm s
  | .domainSwitch die dom => Sys2Proof.Machine.execDomainSwitch die dom s
  | .undervoltageHalving mv => Sys2Proof.Machine.execUndervoltageHalving mv s
  | .undervoltageClear mv => Sys2Proof.Machine.execUndervoltageClear mv s
  | .overvoltageAlert mv => Sys2Proof.Machine.execOvervoltageAlert mv s
  | .overvoltageClear mv => Sys2Proof.Machine.execOvervoltageClear mv s
  | .emergencyStop cause mv => Sys2Proof.Machine.execEmergencyStop cause mv s
  | .estopRequest m mv => Sys2Proof.Machine.execEstopRequest m mv s
  | .estopRestart m => Sys2Proof.Machine.execEstopRestart m s
  | .capSafe => Sys2Proof.Machine.execCapSafe s
  | .capExceeded excessW => Sys2Proof.Machine.execCapExceeded excessW s
  | .gatingLoop die activity measuredW wantsRise now => Sys2Proof.Machine.execGatingLoop die activity measuredW wantsRise now s
  | .estimatorDistrusted die errorTenths => Sys2Proof.Machine.execEstimatorDistrusted die errorTenths s
  | .estimatorTrusted die => Sys2Proof.Machine.execEstimatorTrusted die s
  | .powerStageSilent die => Sys2Proof.Machine.execPowerStageSilent die s
  | .thermalStepUp die tenths stackTenths => Sys2Proof.Machine.execThermalStepUp die tenths stackTenths s
  | .thermalStepDown die tenths stackTenths => Sys2Proof.Machine.execThermalStepDown die tenths stackTenths s
  | .junctionLimit die tenths => Sys2Proof.Machine.execJunctionLimit die tenths s
  | .sensorImplausible die voltage sensor => Sys2Proof.Machine.execSensorImplausible die voltage sensor s
  | .coolantInlet tenths => Sys2Proof.Machine.execCoolantInlet tenths s
  | .auxPowerGood elapsedMs => Sys2Proof.Machine.execAuxPowerGood elapsedMs s
  | .strapLatch straps => Sys2Proof.Machine.execStrapLatch straps s
  | .resetRelease heldMs => Sys2Proof.Machine.execResetRelease heldMs s
  | .resetAssert => Sys2Proof.Machine.execResetAssert s
  | .romSelfCheck d0 d8 elapsedMs => Sys2Proof.Machine.execRomSelfCheck d0 d8 elapsedMs s
  | .imageSelect copies elapsedMs => Sys2Proof.Machine.execImageSelect copies elapsedMs s
  | .powerWave railFail channelFail stackFail elapsedMs => Sys2Proof.Machine.execPowerWave railFail channelFail stackFail elapsedMs s
  | .inrush => Sys2Proof.Machine.execInrush s
  | .firmwareBroadcast failTwice elapsedMs => Sys2Proof.Machine.execFirmwareBroadcast failTwice elapsedMs s
  | .startupTest failed elapsedMs => Sys2Proof.Machine.execStartupTest failed elapsedMs s
  | .defectUnion elapsedMs => Sys2Proof.Machine.execDefectUnion elapsedMs s
  | .clockSetup oscFail elapsedMs => Sys2Proof.Machine.execClockSetup oscFail elapsedMs s
  | .portTraining cable peers elapsedMs => Sys2Proof.Machine.execPortTraining cable peers elapsedMs s
  | .peerTrainingTimeout port => Sys2Proof.Machine.execPeerTrainingTimeout port s
  | .hostLinkTraining link elapsedMs => Sys2Proof.Machine.execHostLinkTraining link elapsedMs s
  | .bringupTimeout => Sys2Proof.Machine.execBringupTimeout s
  | .bootRestart m => Sys2Proof.Machine.execBootRestart m s
  | .lcRequest m value => Sys2Proof.Machine.execLcRequest m value s
  | .identityGenerate m value => Sys2Proof.Machine.execIdentityGenerate m value s
  | .floorAdvance m value => Sys2Proof.Machine.execFloorAdvance m value s
  | .updateOpen m => Sys2Proof.Machine.execUpdateOpen m s
  | .imageChunk m => Sys2Proof.Machine.execImageChunk m s
  | .updateCommit m staged => Sys2Proof.Machine.execUpdateCommit m staged s
  | .updateAbandon m => Sys2Proof.Machine.execUpdateAbandon m s
  | .attestNonce m => Sys2Proof.Machine.execAttestNonce m s
  | .challengeRead m => Sys2Proof.Machine.execChallengeRead m s
  | .sessionOpen m => Sys2Proof.Machine.execSessionOpen m s
  | .sessionClose m value => Sys2Proof.Machine.execSessionClose m value s
  | .sessionTimeout p => Sys2Proof.Machine.execSessionTimeout p s
  | .tamperTrip source die wipeFail => Sys2Proof.Machine.execTamperTrip source die wipeFail s
  | .sampleRead m die => Sys2Proof.Machine.execSampleRead m die s
  | .traceArm m => Sys2Proof.Machine.execTraceArm m s
  | .traceStop m => Sys2Proof.Machine.execTraceStop m s
  | .triggerNow m => Sys2Proof.Machine.execTriggerNow m s
  | .traceFreeze die => Sys2Proof.Machine.execTraceFreeze die s
  | .fullExposureArm m value => Sys2Proof.Machine.execFullExposureArm m value s
  | .breakpointHit die core index => Sys2Proof.Machine.execBreakpointHit die core index s
  | .breakResume m die => Sys2Proof.Machine.execBreakResume m die s
  | .singleStep m die => Sys2Proof.Machine.execSingleStep m die s
  | .locate m value => Sys2Proof.Machine.execLocate m value s
  | .powerRemoved => Sys2Proof.Machine.execPowerRemoved s
  | .junctionLimitClear die tenths => Sys2Proof.Machine.execJunctionLimitClear die tenths s
  | .peerAppears port => Sys2Proof.Machine.execPeerAppears port s
  | .hostLinkUp rate width flit => Sys2Proof.Machine.execHostLinkUp rate width flit s
  | .bar2Resize log2GiB => Sys2Proof.Machine.execBar2Resize log2GiB s
  | .neighbourSolicitation target request => Sys2Proof.Machine.execNeighbourSolicitation target request s
  | .echoRequest request => Sys2Proof.Machine.execEchoRequest request s
  | .sbInputLevelChange pin level => Sys2Proof.Machine.execSbInputLevelChange pin level s

end Sys2Proof.Machine
end

