-- ==== Sys2Proof/Safety.lean ====
section
/-! DEFINITION. Safety: the terms that the statements use for the states the module may stand in, for a request that
reaches the pithead, and for what its client is answered. -/

namespace Sys2Proof

open Sys2Proof.Machine

/-- The invariant of the model: memory stands in its canonical form. -/
abbrev Inv (s : State) : Prop := Mem.wf s.mem = true

/-- The command ends in a next state in which `P` holds. -/
def Ends (c : Instr) (s : State) (P : State → Prop) : Prop := ∃ t, exec c s = .next t ∧ P t

/-- Memory reads as before at every address. -/
def SameMem (s t : State) : Prop := ∀ a, Mem.read t.mem a = Mem.read s.mem a

/-- The commands that can store to memory: the writes that may end in a stop, work and its completion records, pages, links,
the aperture, the boundary, bring-up and the loss of power. -/
def Instr.stores : Instr → Bool
  | .write ..  | .mbDoorbell ..  | .tickBoundary ..  | .descriptorFetch ..  | .admitCommand ..  | .gatherDeadline ..
  | .commandComplete ..  | .musterTimeout ..  | .arrayProduct ..  | .arrayDifference ..  | .arrayAbsDifference ..
  | .arraySquaredDifference ..  | .arrayLogMode ..  | .arrayReduceMin ..  | .arrayReduceMax ..  | .arrayPaired ..
  | .arrayFp32Accurate ..  | .arrayFp64 ..  | .vAdd ..  | .vMul ..  | .vAxpby ..  | .vExp ..  | .vRecip ..
  | .vRsqrt ..  | .vSigmoid ..  | .vRowSum ..  | .vRowMax ..  | .vSoftmax ..  | .vRmsnorm ..  | .vLayernorm ..
  | .vTopkMax ..  | .vTopkMin ..  | .vConvert ..  | .copy ..  | .dump ..  | .pageIn ..  | .pageInDone ..
  | .pageDrainDone ..  | .hostApertureWrite ..  | .update ..  | .verdict ..  | .restoreGroup ..  | .restoreModule ..
  | .contactSheet ..  | .frameReceive ..  | .readReq ..  | .data ..  | .hostReadTimeout ..  | .emergencyStop ..
  | .estopRequest ..  | .estopRestart ..  | .resetRelease ..  | .resetAssert ..  | .romSelfCheck ..
  | .imageSelect ..  | .powerWave ..  | .inrush ..  | .firmwareBroadcast ..  | .startupTest ..  | .defectUnion ..
  | .clockSetup ..  | .portTraining ..  | .bringupTimeout ..  | .bootRestart ..  | .tamperTrip ..
  | .powerRemoved ..  | .sbInputLevelChange .. => true
  | _ => false

/-- The input voltage in mV that a row is shown. -/
def Instr.shownMv : Instr → Option Nat
  | .emergencyStop _ mv => some mv
  | .estopRequest _ mv => some mv
  | .undervoltageHalving mv => some mv
  | .undervoltageClear mv => some mv
  | .overvoltageAlert mv => some mv
  | .overvoltageClear mv => some mv
  | _ => none

/-- A request is served: a pithead serves, the message is not dropped (R50, R62), no handover is in progress (R60), its
service meets no internal fault (R65), and on its path nothing answers it before its service: over Iltur no kept response (R58) and no failed trailer (R433), at the
mailbox a host that reaches BAR0 and no request in progress (R62). -/
def Heard (s : State) (svc : Nat) (describe : Bool) (m : Msg) : Prop :=
  s.serves = true ∧ msgDropped m svc describe = false ∧ s.dict.handover = false ∧ m.fault = false ∧
    if viaIltur m then s.keptFor m.path m.requestId = none ∧ s.authFails m svc describe = none
    else s.barUp = true ∧ s.dict.mbBusy = false

/-- The state in which the service of a request that is served begins: over Iltur the silence timer restarts (R59), the
client counts as heard and its session counter advances; at the mailbox the request area is submitted (R62). -/
def atService (s : State) (svc : Nat) (describe : Bool) (m : Msg) : State :=
  if viaIltur m then
    ((if restartsTimer m svc describe then s.setReg (okey 0x1100 6) 0 else s).heard m.path).authTake m
  else { s with dict := { s.dict with mbDone := false, mbOverrun := false
                                      mbRequest := areaPut s.dict.mbRequest (msgHeader m svc describe ++ m.payload)
                                      mbBusy := true, mbLastId := m.requestId } }

/-- The client has the response: the last thing sent over Iltur, whole (R50), or what the mailbox will show (R62). -/
def Answered (t : State) (svc : Nat) (m : Msg) (r : Resp) : Prop :=
  if viaIltur m then
    ∃ tr d, t.out.getLast? = some (.response m.path (BitVec.ofNat 8 svc) m.requestId r tr (answerWire m svc d r tr))
  else ∃ d, t.dict.mbServed = some (r, answerBox m svc d r)

/-- A client has a response of SUCCESS. -/
def AnsweredOk (t : State) (svc : Nat) (m : Msg) : Prop := ∃ r, r.abort = abOk ∧ Answered t svc m r

/-- The event `code` was raised between the two states with its arguments, numbered as the next one (R64). -/
def Raised (s t : State) (code a0 a1 : Nat) : Prop :=
  ∃ e ∈ t.events, e.code = code ∧ e.arg0 = BitVec.ofNat 32 a0 ∧ e.arg1 = BitVec.ofNat 32 a1 ∧
    e.seq = BitVec.ofNat 32 ((s.bump (okey 0x1110 1) 1).reg (okey 0x1110 1))

/-- An object of the event ring, or of a trace buffer and its trigger. -/
def eventKey (k : Nat) : Prop :=
  k / 256 = 0x1110 ∨ k / 256 = 0x9110 ∨ (0xA000 ≤ k / 256 ∧ k / 256 < 0xC000 ∧ k / 256 % 256 = 0x90)

/-- Every field and every object that no event touches is as before. -/
structure Told (s t : State) : Prop where
  rest : { t with regs := s.regs, host := s.host, obs := s.obs, events := s.events, out := s.out } = s
  objs : ∀ k, ¬ eventKey k → t.reg k = s.reg k

/-- The event `code` is raised, and nothing but the records of events changes. -/
def Tells (u t : State) (code a0 a1 : Nat) : Prop := Told u t ∧ Raised u t code a0 a1

/-- The answer to a request changes nothing but what its client is answered: its kept response, which may displace a client's that
was silent longest (R58), its session's counter, the mailbox's response, and the one thing sent. -/
structure SameButAnswer (m : Msg) (u t : State) : Prop where
  rest     : { t with dict := { t.dict with kept := u.dict.kept, mbServed := u.dict.mbServed }
                      sec := { t.sec with sessions := u.sec.sessions }, out := u.out } = u
  others   : ∀ p i, p ≠ m.path → t.keptFor p i = u.keptFor p i ∨ ∀ j, t.keptFor p j = none
  sessions : t.sec.sessions.filter (fun x => decide (x.path ≠ m.path)) = u.sec.sessions.filter (fun x => decide (x.path ≠ m.path))
  sent     : t.out.take u.out.length = u.out ∧ t.out.length ≤ u.out.length + 1

/-- What a queue had fetched and not admitted is put back, with HEAD at it; nothing changes but that and the objects STATE and
REFUSED_SLOT of the queue (R78). -/
structure PutBack (q : Nat) (u v : State) : Prop where
  rest    : { v with regs := u.regs, cmds := u.cmds, eng := u.eng } = u
  objs    : ∀ k, k ≠ qkey q 6 → k ≠ qkey q 8 → k ≠ qkey q 9 → v.reg k = u.reg k
  cmds    : ∀ c, c ∈ v.cmds ↔ c ∈ u.cmds ∧ ¬ (u.qState q = 1 ∧ c.q = q ∧ c.active = false)
  engines : ∀ k, { v.engine k with gather := (u.engine k).gather } = u.engine k
  head    : ∀ c, u.qState q = 1 → (u.cmds.filter fun x => decide (x.q = q) && !x.active) = [c] → v.qHead q = c.slot
  still   : (u.qState q = 1 → ∀ c ∈ u.cmds, c.q = q → c.active = true) → v.qHead q = u.qHead q

/-- A write that is served, of the scalar object `o`, passes every check of R43 as its service begins. -/
structure Writes (s : State) (x : WriteEnv) (m : Msg) (o : Obj) : Prop where
  heard  : Heard s 2 false m
  found  : (atService s 2 false m).find m.index.toNat m.sub.toNat = .ok o
  scalar : o.ty ≠ .domain
  passes : (atService s 2 false m).checkScalar x.steady m o (okey m.index.toNat m.sub.toNat) m.payload = abOk

/-- The write of a command's own object and value, as the row gives them, is served and passes; the object takes writes at
once. -/
def WritesNow (s : State) (m : Msg) (i sub : Nat) (b : Bytes) : Prop :=
  ∃ o, Writes s s.plainEnv (aim m i sub b) o ∧ o.acc ≠ .rwt

/-- The same for an object whose writes take effect at the next boundary (R42, R45). -/
def WritesLater (s : State) (m : Msg) (i sub : Nat) (b : Bytes) : Prop :=
  ∃ o, Writes s s.plainEnv (aim m i sub b) o ∧ o.acc = .rwt

/-- The command is a write that ends with SUCCESS: `P` says what its service made of the state in which it began, and its
answer changes nothing but the client's own records. -/
def WriteEnds (c : Instr) (s : State) (m : Msg) (P : State → State → Prop) : Prop :=
  Ends c s fun t => AnsweredOk t 2 m ∧ ∃ v, P (atService s 2 false m) v ∧ SameButAnswer m v t

/-- The whole content of a table in one chunk is served and passes every check of R43 as its service begins (R52). -/
structure WritesTable (s : State) (m : Msg) (o : Obj) : Prop where
  heard  : Heard s 4 false m
  found  : (atService s 4 false m).find m.index.toNat m.sub.toNat = .ok o
  table  : o.ty = .domain
  free   : s.dict.staged.any (fun y => decide (y.key = okey m.index.toNat m.sub.toNat)) = false
  start  : m.offset = 0
  whole  : m.last = true
  room   : m.payload.length ≤ domRoom o (okey m.index.toNat m.sub.toNat)
  passes : ∀ l, ({ atService s 4 false m with dict := { (atService s 4 false m).dict with abandoned := l } }).checkTable m o
    (okey m.index.toNat m.sub.toNat) m.payload = abOk

/-- Reads of memory lines that corrected bit errors: only those errors and the counts of corrections differ (R270, R274, R277). -/
structure Corrected (s u : State) : Prop where
  rest  : { u with regs := s.regs, page := { u.page with flaws := s.page.flaws } } = s
  objs  : ∀ k, (∀ f ∈ s.page.flaws, k ≠ correctedKey f.1) → u.reg k = s.reg k
  clean : s.page.flaws = [] → u = s

/-- An object that an array command counts in as it works. -/
def countKey (k : Nat) : Prop := eventKey k ∨ k / 256 = 0x3900 ∨ k = okey 0x3800 5

/-- Nothing but events, what tallies and traces show, the causes of the round, the counts of array commands and what reads of
memory corrected differs. -/
structure Counted (s u : State) : Prop where
  rest : { u with regs := s.regs, host := s.host, obs := s.obs, events := s.events, out := s.out
                  step := { u.step with causes := s.step.causes }, page := { u.page with flaws := s.page.flaws } } = s
  objs : ∀ k, ¬ countKey k → (∀ f ∈ s.page.flaws, k ≠ correctedKey f.1) → u.reg k = s.reg k

end Sys2Proof
end

