-- ==== Sys2Proof/Certificates/Slice0/Obligations.lean ====
section
/-! DEFINITION. The statements for the provers, chapter by chapter of the spec. -/


open Sys2Proof Sys2Proof.Machine

/-! ### The block as a whole -/

/-- A step runs the command at the front of the queue, on the state with the queue's rest. -/
def Obligations.StepRunsTheFrontCommand : Prop :=
  ∀ (s : State) (c : Instr) (rest : List Instr), s.pending = c :: rest → step s = exec c { s with pending := rest }

/-- On an empty queue the block idles: the model's own choice (log entry 1). -/
def Obligations.EmptyQueueIdles : Prop := ∀ s : State, s.pending = [] → step s = .next s

/-- The machine after reset meets the invariant. -/
def Obligations.ResetMeetsInv : Prop := Inv State.reset

/-- Every step keeps memory in its canonical form, whatever the command and from whatever state. -/
def Obligations.StepKeepsInv : Prop := ∀ s t : State, Inv s → step s = .next t → Inv t

/-- R3: the limits fused at manufacture stay as they are for the life of the module, and a step takes from the queue the
command at its front and no other. -/
def Obligations.StepKeepsFuses : Prop :=
  ∀ s t : State, step s = .next t → t.fuse = s.fuse ∧ t.pending = s.pending.tail

/-- A command that can store to memory; every other leaves every byte of memory as it was. -/
def Obligations.OnlyStoringCommandsStore : Prop :=
  ∀ (c : Instr) (s t : State), c.stores = false → exec c s = .next t → SameMem s t

/-- R381, R466: a voltage beyond the ratings of the supply input is refused by the rows that are shown one, under its own
name, and nothing else is ever refused: no command ends in a fault, and every other command answers a next state in every
state. -/
def Obligations.OnlyBeyondRatingsIsRefused : Prop :=
  ∀ (c : Instr) (s : State), ((∃ t, exec c s = .next t) ↔ ¬ (∃ mv, c.shownMv = some mv ∧ 60000 < mv)) ∧
    ∀ mv, c.shownMv = some mv → 60000 < mv → exec c s = .refused .beyondRatings

/-! ### Numbers and messages on the wire -/

/-- R345: a Drift message is read from its 256 bits as it was written into them, whatever its fields hold. -/
def Obligations.DriftMessageRoundTrip : Prop :=
  ∀ (type : BitVec 4) (m : DriftMsg), msgOf (msgBits type m) = (type.toNat, m)

/-- R145, R146: in the four formats with infinities, encoding what a word decodes to gives the word back, for every word
that is no NaN. -/
def Obligations.FloatRoundTrip : Prop :=
  ∀ f ∈ [f64, f32, f16, bf16], ∀ v, v < 2 ^ (1 + f.ebits + f.fbits) → f.decode v ≠ .nan → f.encode (f.decode v) = v

/-- R41: a value is carried in little-endian byte order in exactly its size. -/
def Obligations.LittleEndianRoundTrip : Prop :=
  ∀ n v : Nat, v < 256 ^ n → (leBytes n v).length = n ∧ leNat (leBytes n v) = v

/-! ### The dictionary and the mailbox (chapter 02) -/

/-- R40, R41, R42: a READ is answered with the object's present value in its own size, with PENDING where a write waits; a
DOMAIN object with TYPE_MISMATCH, a WO object with WRITE_ONLY, an object that does not exist with its code; and nothing but
the client's own records changes. -/
def Obligations.ReadAnswers : Prop :=
  ∀ (s : State) (m : Msg), Heard s 1 false m → m.describe = false →
    let u := atService s 1 false m
    let k := okey m.index.toNat m.sub.toNat
    Ends (.read m) s fun t => SameButAnswer m u t ∧ ∃ r, Answered t 1 m r ∧
      match u.find m.index.toNat m.sub.toNat with
      | .error e => r.abort = e
      | .ok o =>
        if o.ty = .domain then r.abort = abType
        else if o.acc = .wo then r.abort = abWriteOnly
        else r.abort = abOk ∧ r.payload = (if o.ty = .vstr then u.vstr k else leBytes (tyBytes o.ty) (u.view k)) ∧
          (o.ty ≠ .vstr → r.pending = (u.waits k).isSome)

/-- R42, R47, R50: a READ with DESCRIBE of any object that exists, a WO object included, is answered with 32 bytes: type and access
codes, size, default, minimum and maximum, with PENDING where a write waits; a service code that no table row defines is refused
with NO_SUCH_SERVICE. -/
def Obligations.DescribeAndBadService : Prop :=
  (∀ (s : State) (m : Msg) (o : Obj), Heard s 1 true m →
    (atService s 1 true m).find m.index.toNat m.sub.toNat = .ok o →
    let u := atService s 1 true m
    let k := okey m.index.toNat m.sub.toNat
    Ends (.describe m) s fun t => SameButAnswer m u t ∧ ∃ r, Answered t 1 m r ∧ r.abort = abOk ∧
      r.pending = (u.waits k).isSome ∧
      r.payload.length = 32 ∧ r.payload.take 4 = [BitVec.ofNat 8 (tyCode o.ty), BitVec.ofNat 8 (accCode o.acc), 0, 0] ∧
      (r.payload.drop 4).take 4 = leBytes 4 (if o.ty = .vstr then (u.vstr k).length
        else if o.ty = .domain then (u.content m.path o k).length else tyBytes o.ty) ∧
      (r.payload.drop 8).take 8 = leBytes 8 (widen o.ty (s.dfltOf o k)) ∧
      (r.payload.drop 16).take 8 = leBytes 8 (widen o.ty o.lo) ∧ r.payload.drop 24 = leBytes 8 (widen o.ty o.hi)) ∧
  (∀ (s : State) (m : Msg) (code : BitVec 8), (code = 0 ∨ 6 ≤ code.toNat) → Heard s code.toNat false m →
    Ends (.badService code m) s fun t => SameButAnswer m (atService s code.toNat false m) t ∧
      ∃ r, Answered t code.toNat m r ∧ r.abort = abService)

/-- R42, R43, R45, R62: a write that passes its checks is answered with SUCCESS; a write of an RWT object then waits with
its payload, and a write of a queue's RING_BASE, RING_SIZE, TARGET or COMPLETION_BASE stands at once, every other scalar
object as it was. The same holds of a request submitted by the mailbox's doorbell. -/
def Obligations.WriteTakesEffect : Prop :=
  ∀ (s : State) (m : Msg) (o : Obj) (c : Instr), ownRow m = false → Writes s s.plainEnv m o →
    (c = .write m ∨ (m.path = .mailbox ∧ c = .mbDoorbell 2 m)) →
    let u := atService s 2 false m
    let k := okey m.index.toNat m.sub.toNat
    (o.acc = .rwt → Ends c s fun t => AnsweredOk t 2 m ∧
      ∃ v : State, { v with dict := { v.dict with rwt := u.dict.rwt } } = u ∧ SameButAnswer m v t ∧
        v.waits k = some m.payload ∧ ∀ j, j ≠ k → v.waits j = u.waits j) ∧
    (o.acc ≠ .rwt → ∀ q : Fin 128, m.index.toNat = 0x4080 + q.val → 1 ≤ m.sub.toNat → m.sub.toNat ≤ 4 → Ends c s fun t =>
      AnsweredOk t 2 m ∧ ∃ v, v = u.setReg k (leNat m.payload) ∧ SameButAnswer m v t)

/-- R43: a write that fails a check is answered with the code of the first check that fails, and it changes nothing. -/
def Obligations.RefusedWriteChangesNothing : Prop :=
  ∀ (s : State) (m : Msg), ownRow m = false → Heard s 2 false m →
    let u := atService s 2 false m
    (∀ e, u.find m.index.toNat m.sub.toNat = .error e →
      Ends (.write m) s fun t => SameButAnswer m u t ∧ ∃ r, Answered t 2 m r ∧ r.abort = e) ∧
    (∀ o a, u.find m.index.toNat m.sub.toNat = .ok o →
      u.checkScalar false m o (okey m.index.toNat m.sub.toNat) m.payload = a → a ≠ abOk →
      Ends (.write m) s fun t => SameButAnswer m u t ∧ ∃ r, Answered t 2 m r ∧ r.abort = a)

/-- R58: a request that matches a kept key and has identical content is answered with the kept response and is not executed
again: it is counted, and no object changes but that count and the silence timer; no write waits for it. One that differs in
content is refused with REQUEST_ID_REUSED, and only the silence timer changes. -/
def Obligations.KeptResponseIsResent : Prop :=
  ∀ (s : State) (m : Msg) (y : Kept), ownRow m = false → s.serves = true → viaIltur m = true → msgDropped m 2 false = false →
    s.keptFor m.path m.requestId = some y →
    let same := y.service = 2#8 ∧ y.describe = false ∧ y.msg = msgContent m
    let still (t : State) : Prop := { t with regs := s.regs, out := s.out, dict := { t.dict with kept := s.dict.kept } } = s ∧
      ∀ p i, t.keptFor p i = s.keptFor p i
    (same → Ends (.write m) s fun t => still t ∧
      t.out = s.out ++ [.response m.path 2#8 m.requestId y.resp y.trailer (answerWire m 2 false y.resp y.trailer)] ∧
      t.reg (okey 0x1100 5) = (s.bump (okey 0x1100 5) 1).reg (okey 0x1100 5) ∧
      ∀ k, k ≠ okey 0x1100 5 → k ≠ okey 0x1100 6 → t.reg k = s.reg k) ∧
    (¬ same → Ends (.write m) s fun t => still t ∧
      (∃ r, r.abort = abReused ∧ t.out = s.out ++ [.response m.path 2#8 m.requestId r none (answerWire m 2 false r none)]) ∧
      ∀ k, k ≠ okey 0x1100 6 → t.reg k = s.reg k)

/-- R51, R444: a first block read of a DOMAIN object, SAMPLE included, keeps a snapshot of its content for the client and
answers with its first 1,024 bytes, LAST where there are no more. -/
def Obligations.BlockReadTakesASnapshot : Prop :=
  ∀ (s : State) (c : Instr) (m : Msg) (o : Obj),
    (c = .readBlock m ∨ ∃ (m' : Msg) (d : Fin 32), c = .sampleRead m' d ∧ m = aimAt m' (0xA000 + 0x100 * d.val + 0x82) 2) →
    Heard s 3 false m → (atService s 3 false m).find m.index.toNat m.sub.toNat = .ok o → o.ty = .domain → o.acc ≠ .wo →
    okey m.index.toNat m.sub.toNat ≠ 0x810001 →
    s.dict.staged.any (fun x => decide (x.key = okey m.index.toNat m.sub.toNat ∧ x.path ≠ m.path)) = false → m.offset = 0 →
    let u := atService s 3 false m
    let k := okey m.index.toNat m.sub.toNat
    let b := u.content m.path o k
    let others := s.dict.snaps.filter fun x => !decide (x.path = m.path ∧ x.key = k)
    others.length < 4 → (others.map fun x => x.content.length).sum + b.length ≤ 33554432 →
    Ends c s fun t => (∃ r, Answered t 3 m r ∧ r.abort = abOk ∧ r.payload = b.take 1024 ∧ r.last = decide (b.length ≤ 1024)) ∧
      ∃ v : State, { v with dict := { v.dict with snaps := u.dict.snaps } } = u ∧ SameButAnswer m v t ∧
        v.snap? m.path k = some ⟨m.path, k, b⟩ ∧ ∀ p j, ¬ (p = m.path ∧ j = k) → v.snap? p j = u.snap? p j

/-- R52: the first chunk of a block write, not its last, is kept staged under its object for its client; the object itself
does not change. -/
def Obligations.BlockWriteStages : Prop :=
  ∀ (s : State) (m : Msg) (o : Obj), Heard s 4 false m →
    let u := atService s 4 false m
    let k := okey m.index.toNat m.sub.toNat
    u.find m.index.toNat m.sub.toNat = .ok o → o.ty = .domain →
    s.dict.staged.any (fun y => decide (y.key = k ∧ y.path ≠ m.path)) = false → m.payload.length ≤ domRoom o k → m.offset = 0 →
    m.last = false →
    Ends (.writeBlock m) s fun t => AnsweredOk t 4 m ∧ ∃ v : State, SameButAnswer m v t ∧
      { v with dict := { v.dict with staged := u.dict.staged, abandoned := u.dict.abandoned } } = u ∧
      v.dict.staged.filter (fun y => decide (y.key = k)) = [⟨m.path, k, m.payload⟩] ∧
      v.dict.staged.filter (fun y => decide (y.key ≠ k)) = u.dict.staged.filter (fun y => decide (y.key ≠ k)) ∧
      v.dict.abandoned = u.dict.abandoned.filter (fun y => !decide (y = (m.path, k)))

/-- R53, R63: a SUBSCRIBE whose entries name readable objects replaces the client's list; an empty one removes it, and the
lists of the other clients stay. -/
def Obligations.SubscribeReplacesTheList : Prop :=
  ∀ (s : State) (m : Msg) (keys : List Nat), Heard s 5 false m → m.payload.length % 4 = 0 →
    let u := atService s 5 false m
    u.subKeys (m.payload.length / 4) m.payload = .ok keys →
    let it := s.dict.subs.filter fun x => !decide (x.path = m.path) && decide (x.path ≠ .mailbox)
    (keys ≠ [] → 1 ≤ m.offset.toNat ∧ m.offset.toNat ≤ 65535 ∧
      if m.path = .mailbox then keys.length ≤ 256 ∧ u.subBytes keys ≤ 3824
      else it.length < 8 ∧ keys.length ≤ 64 ∧ u.subBytes keys ≤ 1024 ∧ u.busOk (it ++ [⟨m.path, m.offset.toNat, keys⟩]) = true) →
    Ends (.subscribe m) s fun t => AnsweredOk t 5 m ∧ ∃ v : State, SameButAnswer m v t ∧
      { v with dict := { v.dict with subs := u.dict.subs } } = u ∧
      v.dict.subs.filter (fun x => decide (x.path = m.path)) = (if keys = [] then [] else [⟨m.path, m.offset.toNat, keys⟩]) ∧
      v.dict.subs.filter (fun x => !decide (x.path = m.path)) = s.dict.subs.filter (fun x => !decide (x.path = m.path))

/-- R51, R52, R58: what a second of silence takes away, in every state: a client's snapshot of an object; a staged block write of an
object, whose client is noted, so that its later chunks are refused with TRANSFER_ABANDONED; a kept response. Every other snapshot,
staged write and kept response stays, and nothing else of the state changes. -/
def Obligations.OneSecondLapses : Prop :=
  (∀ (s : State) (p : Path) (i : BitVec 16) (n : BitVec 8), Ends (.snapshotLapse p i n) s fun t =>
    { t with dict := { t.dict with snaps := s.dict.snaps } } = s ∧
    t.snap? p (okey i.toNat n.toNat) = none ∧
    ∀ p' k, ¬ (p' = p ∧ k = okey i.toNat n.toNat) → t.snap? p' k = s.snap? p' k) ∧
  (∀ (s : State) (i : BitVec 16) (n : BitVec 8), Ends (.blockAbandoned i n) s fun t =>
    let k := okey i.toNat n.toNat
    { t with dict := { t.dict with staged := s.dict.staged, abandoned := s.dict.abandoned } } = s ∧
    (∀ x, x ∈ t.dict.staged ↔ x ∈ s.dict.staged ∧ x.key ≠ k) ∧
    ∀ y, y ∈ t.dict.abandoned ↔ y ∈ s.dict.abandoned ∨ ∃ x ∈ s.dict.staged, x.key = k ∧ y = (x.path, k)) ∧
  (∀ (s : State) (p : Path) (id : BitVec 16), Ends (.keptResponseExpiry p id) s fun t =>
    { t with dict := { t.dict with kept := s.dict.kept } } = s ∧
    t.keptFor p id = none ∧ ∀ p' id', ¬ (p' = p ∧ id' = id) → t.keptFor p' id' = s.keptFor p' id') ∧
  (∀ (s : State) (m : Msg) (o : Obj), Heard s 4 false m → m.offset ≠ 0 →
    let u := atService s 4 false m
    let k := okey m.index.toNat m.sub.toNat
    u.find m.index.toNat m.sub.toNat = .ok o → o.ty = .domain → (∀ y ∈ s.dict.staged, y.key ≠ k) →
    m.offset.toNat + m.payload.length ≤ domRoom o k → (m.path, k) ∈ s.dict.abandoned →
    Ends (.writeBlock m) s fun t => SameButAnswer m u t ∧ ∃ r, Answered t 4 m r ∧ r.abort = abAbandoned)

/-- R60, R62: at completion the module shows the response in MB_RESPONSE, clears BUSY, sets DONE and signals vector 0; and
the role of the pithead moves from D0 to D8 with kept responses, subscriptions and accepted writes, while sessions close and block
transfers in progress are abandoned. Nothing else changes. -/
def Obligations.MailboxResponseAndHandover : Prop :=
  (∀ (s : State) (r : Resp) (b : Bytes), s.dict.mbServed = some (r, b) → s.dict.mbBusy = true → Ends .mbResponse s fun t =>
    { t with dict := s.dict, host := s.host, out := s.out } = s ∧
    t.dict = { s.dict with mbBusy := false, mbDone := true, mbServed := none, mbArea := areaPut s.dict.mbArea b } ∧
    (if s.host.masked then t.out = s.out ∧ 0 ∈ t.host.pendingBits ∧ (∀ v, v ≠ 0 → (v ∈ t.host.pendingBits ↔ v ∈ s.host.pendingBits)) ∧
        { t.host with pendingBits := s.host.pendingBits } = s.host
      else t.host = s.host ∧ t.out = s.out ++ [.msix 0])) ∧
  (∀ s : State, s.serves = true → s.boot.pithead = some false → s.fenced (.d 8) = false → Ends .pitheadHandover s fun t =>
    { t with boot := s.boot, sec := s.sec, dict := s.dict } = s ∧ t.boot = { s.boot with pithead := some true } ∧
    t.sec = { s.sec with sessions := [] } ∧
    t.dict = { s.dict with staged := [], snaps := [], abandoned := [], handover := true })

/-! ### Queues and commands (chapter 03) -/

/-- R77, R78, R367, R473: the writes of a queue's STATE and TAIL, wherever they are served and pass their checks. A write of 1 starts
the queue. A write of 0 or 2 to a running queue puts back what it had fetched and not admitted, with HEAD at the descriptor put
back; a write of 2 also leaves REFUSED_SLOT at HEAD and raises QUEUE_HALTED with reason 6. A write of TAIL changes TAIL alone; the
mirror in BAR0 is a write of the object, and where it would break the rule of R78 nothing is written, and the write is counted and
told. Beside that, no write changes anything but what its client is answered. -/
def Obligations.QueueWrites : Prop :=
  (∀ (s : State) (m : Msg) (q : Fin 128),
    (WritesNow s m (0x4080 + q.val) 6 [1] → WriteEnds (.queueEnable m q) s (aim m (0x4080 + q.val) 6 [1]) fun u v =>
      v = u.setReg (qkey q.val 6) 1) ∧
    (WritesNow s m (0x4080 + q.val) 6 [0] → WriteEnds (.queueDisable m q) s (aim m (0x4080 + q.val) 6 [0]) fun u v =>
      PutBack q.val u v ∧ v.qState q.val = 0 ∧ v.qob q.val 9 = u.qob q.val 9) ∧
    (WritesNow s m (0x4080 + q.val) 6 [2] → WriteEnds (.queueHaltRequest m q) s (aim m (0x4080 + q.val) 6 [2]) fun u v =>
      if u.qState q.val = 2 then v = u
      else ∃ w, PutBack q.val u w ∧ w.qState q.val = 2 ∧ w.qob q.val 9 = w.qHead q.val ∧
        Tells w v 0x4001 (6 * 256 + q.val) (w.qHead q.val))) ∧
  (∀ (s : State) (m : Msg) (q : Fin 128) (v : BitVec 32),
    (WritesNow s m (0x4080 + q.val) 7 (leBytes 4 v.toNat) →
      WriteEnds (.tailWrite m none q v) s (aim m (0x4080 + q.val) 7 (leBytes 4 v.toNat)) fun u w =>
        w = u.setReg (qkey q.val 7) v.toNat) ∧
    (∀ off len, Ends (.tailWrite m (some (off, len)) q v) s fun t =>
      if ¬ (s.barUp = true ∧ s.serves = true ∧ off = 0x10000 + 4 * q.val ∧ len = 4) then t = s
      else if (v.toNat + 2 ^ 32 - s.qHead q.val) % 2 ^ 32 ≤ s.qSize q.val then t = s.setReg (qkey q.val 7) v.toNat
      else Tells (s.bump (okey 0x5140 4) 1) t 0x5109 q.val v.toNat))

/-- R78, R81, R473: a die fetches the descriptor that HEAD reaches. One that passes its checks is a command of the queue
from then on, and HEAD moves one on; one that fails a check never is: its queue stops with STATE 2 and
REFUSED_SLOT at its index, and QUEUE_HALTED tells reason 0. -/
def Obligations.FetchTakesOrRefuses : Prop :=
  ∀ (s : State) (q : Fin 128) (p : Place), s.isReady = true → s.fetchDue q.val = true → s.cmd? q.val (s.qHead q.val) = none →
    s.access (s.descAddr q.val (s.qHead q.val)) false = .served → s.physLine (s.descAddr q.val (s.qHead q.val)) = some p →
    s.lineBad (s.descAddr q.val (s.qHead q.val)) = false → s.fenced (s.qDie q.val) = false →
    let slot := s.qHead q.val
    let d := BitVec.ofNat 1024 (s.loadNat p.data 128)
    let u := (s.sawAddrs [s.descAddr q.val slot]).setReg (qkey q.val 8) ((slot + 1) % 2 ^ 32)
    (u.validate (s.qDie q.val) d = 0 → Ends (.descriptorFetch q) s fun t =>
      t.cmds = s.cmds ++ [Cmd.fetched q.val slot d s.tickNo] ∧
      (∃ v, Corrected u v ∧ { t with cmds := s.cmds, que := s.que } = v) ∧
      ∀ q', q' ≠ q.val → t.qst q' = s.qst q') ∧
    (u.validate (s.qDie q.val) d ≠ 0 → s.recordWaits q.val slot = false → Ends (.descriptorFetch q) s fun t =>
      t.cmd? q.val slot = none ∧ t.qState q.val = 2 ∧ t.qob q.val 9 = slot ∧
      ∃ v, Tells v t 0x4001 q.val slot)

/-- R83, R87, R169, R190: the front command of a queue that the scheduler finds free to go is admitted: it binds the epoch and
the ordinal in force. One that names a context which another command in the same STEP has in use is refused with
KEY_IN_USE, and its queue halts at it. -/
def Obligations.AdmissionBindsOrRefuses : Prop :=
  ∀ (s : State) (q : Fin 128) (now : Nat) (c : Cmd), s.front q.val = some c → s.isReady = true →
    s.fenced (s.qDie q.val) = false →
    let u := { s with tick := { s.tick with now := now } }
    (memN (dOpcode c.desc) [opNop, opArray, opVector] = true → u.gate c now = .go → u.outranked q.val (u.engineOf c) now = false →
      Ends (.admitCommand q now) s fun t => t.mem = s.mem ∧ t.tick.now = now ∧ ∃ c', t.cmd? q.val c.slot = some c' ∧
        c'.phase = .admitted ∧ c'.worked = c.worked ∧ c'.desc = c.desc ∧ c'.epoch = s.epoch ∧ c'.ordinal = s.ordinal) ∧
    (u.gateOrder c = .go → dOpcode c.desc ≠ opVerdict → ¬ (dOpcode c.desc = opArray ∧ dGather c.desc ≠ 0) →
      (∀ x ∈ s.cmds, ¬ (x.q = c.q ∧ x.phase = .gathered)) → u.keyInUse c u.cmds = true → s.recordWaits q.val c.slot = false →
      Ends (.admitCommand q now) s fun t => t.cmd? q.val c.slot = none ∧ t.qState q.val = 2 ∧ t.qob q.val 9 = c.slot ∧
        ∃ v, Tells v t 0x4001 q.val c.slot)

/-- R85, R88, R92: the end of a window, of a gathering and of a muster's patience. A running command stops at the end of its
window: its contexts show SUSPENDED, its cycles count, and where it had used its whole budget the stop is an overrun. A due
batch that fits is admitted, each member with its own record. A round that is not complete in time is told once. -/
def Obligations.WindowsGatheringsAndTimeouts : Prop :=
  (∀ (s : State) (q : Fin 128) (slot : BitVec 32) (used : Nat) (c : Cmd), s.cmd? q.val slot.toNat = some c →
    c.phase = .admitted → c.worked = false →
    Ends (.windowEndSuspend q slot used) s fun t =>
      (∃ c', t.cmd? q.val slot.toNat = some c' ∧ c'.phase = .suspended ∧ c'.consumed = c.consumed + used ∧ c'.desc = c.desc ∧
        c'.overruns = if 256 * dBudget c.desc ≤ c.consumed + used then c.overruns + 1 else c.overruns) ∧
      (∀ b ∈ c.bound, (t.ctx b.1).state = .suspended ∧ (t.ctx b.1).desc = (s.ctx b.1).desc) ∧
      t.reg (okey 0x4000 2) = (if 256 * dBudget c.desc ≤ c.consumed + used then s.bump (okey 0x4000 2) 1 else s).reg (okey 0x4000 2) ∧
      ∀ x y, ¬ (x = q.val ∧ y = slot.toNat) → t.cmd? x y = s.cmd? x y) ∧
  (∀ (s : State) (die : Fin 32) (shaft : Fin 16) (engine : Fin 2) (g : Gather) (first : Cmd),
    let k := ekey (Die.ofIx die.val) shaft.val engine.val
    let l := s.members g
    (s.engine k).gather.filter s.gatherDue = [g] → l.head? = some first → s.isReady = true → s.gatherWaits l = false →
    s.gatherFits k l (max s.tick.now (s.windowStart (Die.ofIx die.val) shaft.val)) = true →
    (∀ c ∈ l, s.keyInUse c s.cmds = false) →
    Ends (.gatherDeadline die shaft engine) s fun t => (t.engine k).gather = (s.engine k).gather.filter (fun x => !decide (x = g)) ∧
      t.reg (okey 0x3900 6) = (s.bump (okey 0x3900 6) 1).reg (okey 0x3900 6) ∧
      ∀ c ∈ l, ∃ c', t.cmd? c.q c.slot = some c' ∧ c'.phase = .admitted ∧ c'.desc = c.desc ∧
        c'.batch = some (first.q, first.slot, first.desc)) ∧
  (∀ (s : State) (m : Fin 4096), Ends (.musterTimeout ⟨m, true⟩) s fun t =>
    if s.jobRuns = true ∧ mEnabled (s.mEntry m.val) = true ∧ 1 < mPod (s.mEntry m.val) then
      (t.mst m.val).broken = true ∧
      ∀ c, (s.cmds.filter fun c => s.waitsOn c m.val) = [c] → s.cmd? c.q c.slot = some c → s.recordWaits c.q c.slot = false →
        t.cmd? c.q c.slot = none
    else t = s) ∧
  (∀ (s : State) (m : Fin 4096), Ends (.musterTimeout ⟨m, false⟩) s fun t =>
    let x := s.mst m.val
    if s.jobRuns = true ∧ mEnabled (s.mEntry m.val) = true ∧ x.timedOut = false ∧ x.complete = none ∧
        (∃ f, x.firstTick = some f ∧ f + s.ob 0x4010 3 ≤ s.tickNo) then
      Tells (s.setMst m.val { x with timedOut := true }) t 0x4003 m.val x.round
    else t = s)

/-- R79, R82, R90, R472: a command whose work has run and whose plates are acknowledged completes: its record, with OK or, where
it arrives too late at its muster, LATE_ARRIVAL, stands at its slot of the completion ring, the queue's count advances, and
the command is gone. Every other byte of memory is as before; an UPDATE, whose results may join its group's, aside. -/
def Obligations.CompletionWritesTheRecord : Prop :=
  ∀ (s : State) (q : Fin 128) (slot : BitVec 32) (now : Nat) (c : Cmd) (p : Place), Inv s →
    s.cmd? q.val slot.toNat = some c → c.phase = .admitted → c.worked = true → c.unacked = 0 →
    (c.bracketed = true ∨ s.bracketTriggers c = false) →
    s.access (s.recordAddr q.val slot.toNat) true = .served → s.physLine (s.recordAddr q.val slot.toNat) = some p →
    dOpcode c.desc ≠ opUpdate →
    let a := p.data + s.recordAddr q.val slot.toNat % 128
    let late := dArriveEn c.desc = true ∧ s.arrival (dArriveMuster c.desc) (dArriveRound c.desc) = .late
    Ends (.commandComplete q slot now) s fun t =>
      t.load a 16 = s.recordBytes c (if late then 0x22 else 0) ∧ t.cmd? q.val slot.toNat = none ∧
      (t.qst q.val).count = (s.qst q.val).count + 1 ∧
      ∀ j, (j < a ∨ a + 16 ≤ j) → Mem.read t.mem j = Mem.read s.mem j

/-! ### The arrays and the vector unit (chapters 04 and 07) -/

/-- R99, R102, R112, R113, R114, R122, R133, R230, R239, R240: an ARRAY command whose operands can be read and whose outputs can
be written runs in its mode: its array takes its setting, and C, and D where it is used, take the results that its operands give,
an over-full tile or vector counting as invalid; the passes that it makes count, the skipped ones aside; its multipliers are free
again. Before its outputs are written nothing but the array's setting, what is counted and told, and the windows of its operands
has changed. -/
def Obligations.ArrayModesWriteTheirResults : Prop :=
  ∀ form ∈ ([(fun q slot n => .arrayProduct q slot n.nugget none, fun m => m.precision = 0 ∧ m.reduce = 0 ∧ m.product = 0),
      (fun q slot n => .arrayDifference q slot n.nugget none, fun m => m.precision = 0 ∧ m.reduce = 0 ∧ m.product = 1),
      (fun q slot n => .arrayAbsDifference q slot n.nugget none, fun m => m.precision = 0 ∧ m.reduce = 0 ∧ m.product = 2),
      (fun q slot n => .arraySquaredDifference q slot n.nugget none, fun m => m.precision = 0 ∧ m.reduce = 0 ∧ m.product = 3),
      (fun q slot n => .arrayLogMode q slot n none, fun m => m.precision = 0 ∧ m.reduce = 0 ∧ m.product = 4),
      (fun q slot n => .arrayReduceMin q slot n.nugget none, fun m => m.reduce = 1),
      (fun q slot n => .arrayReduceMax q slot n.nugget none, fun m => m.reduce = 2),
      (fun q slot n => .arrayPaired q slot n.nugget none, fun m => m.precision = 1),
      (fun q slot n => .arrayFp32Accurate q slot n.nugget none, fun m => m.precision = 2),
      (fun q slot n => .arrayFp64 q slot n.nugget none, fun m => m.precision = 3)] :
      List ((Fin 128 → BitVec 32 → LogStall → Instr) × (Mode → Prop))),
  ∀ (s : State) (q : Fin 128) (slot : BitVec 32) (stall : LogStall) (c : Cmd) (x : ArrayIn),
    s.running q.val slot.toNat opArray = some c → form.2 (dMode c.run) →
    s.checkDraws c (dCtx c.run 2) (stochasticC c.run) = .ok () → (s.stopBath c).arrayIn c = .ok x →
    (s.stopBath c).checkWrite c (dCtx c.run 2) = .ok () →
    (dCtx c.run 3 ≠ 0 → (s.stopBath c).checkWrite c (dCtx c.run 3) = .ok ()) →
    let k := s.engineOf c
    Ends (form.1 q slot stall) s fun t =>
      (∃ u c', Counted (s.stopBath c) u ∧ { c' with epochTold := c.epochTold } = c ∧
        let v := u.fillWindows c' ([x.a, x.b] ++ x.cIn.toList ++ x.dIn.toList)
        let r := v.writeOutput c' (dCtx c.run 2) (stochasticC c.run) (accFmt c.run) x.outC
        t.mem = (if dCtx c.run 3 = 0 then r.1 else (r.1.writeOutput r.2 (dCtx c.run 3) false (accFmt c.run) x.outD).1).mem) ∧
      (∃ c', t.cmd? q.val slot.toNat = some c' ∧ c'.worked = true ∧ c'.phase = .admitted ∧ c'.desc = c.desc ∧
        c'.passes = c.passes + (if c.shared then 0 else passCount c.run - x.skipped)) ∧
      x.badTiles = x.overTiles ∧ x.badVecs = x.overVecs ∧ (t.array (s.arrayOf c)).setting = some (dSetting c.run) ∧
      (t.engine k).held = [] ∧ (t.engine k).waiting = []

/-- R112, R136, R139, R220: a parity fault stops the command of an array before anything of it leaves the tray, the event tells of
it, and its shaft is to be retired at the next boundary. One found during the stop bath that the command needs leaves the array's
old setting in force and stops the old command too. -/
def Obligations.ParityFaultStopsTheCommand : Prop :=
  (∀ form ∈ ([(Instr.arrayProduct, fun m => m.precision = 0 ∧ m.reduce = 0 ∧ m.product = 0),
      (.arrayDifference, fun m => m.precision = 0 ∧ m.reduce = 0 ∧ m.product = 1),
      (.arrayAbsDifference, fun m => m.precision = 0 ∧ m.reduce = 0 ∧ m.product = 2),
      (.arraySquaredDifference, fun m => m.precision = 0 ∧ m.reduce = 0 ∧ m.product = 3),
      (fun q slot n p => .arrayLogMode q slot ⟨n, n⟩ (p.map .array), fun m => m.precision = 0 ∧ m.reduce = 0 ∧ m.product = 4),
      (.arrayReduceMin, fun m => m.reduce = 1), (.arrayReduceMax, fun m => m.reduce = 2),
      (.arrayPaired, fun m => m.precision = 1), (.arrayFp32Accurate, fun m => m.precision = 2),
      (.arrayFp64, fun m => m.precision = 3)] :
      List ((Fin 128 → BitVec 32 → Nat → Option ArrayHit → Instr) × (Mode → Prop))),
    ∀ (s : State) (q : Fin 128) (slot : BitVec 32) (stall : Nat) (p : ArrayHit) (c : Cmd),
      s.running q.val slot.toNat opArray = some c → form.2 (dMode c.run) →
      let bath := p.inBath = true ∧ (s.bathFrom c).isSome = true
      Ends (form.1 q slot stall (some p)) s fun t => t.mem = s.mem ∧
        t.cmd? q.val slot.toNat = some { c with phase := .suspended } ∧
        t.reg (okey 0x3900 5) = (s.bump (okey 0x3900 5) 1).reg (okey 0x3900 5) ∧
        (s.physState (s.physCmd c).1 (s.physCmd c).2 < 16 → s.physCmd c ∈ t.num.fails) ∧
        (∃ e ∈ t.events, e.code = 0x3902 ∧ e.arg0 = BitVec.ofNat 32 (engineArg c.desc) ∧ e.arg1 = BitVec.ofNat 32 p.what.val) ∧
        (¬ bath → (t.array (s.arrayOf c)).setting = some (dSetting c.run)) ∧
        (bath → (t.array (s.arrayOf c)).setting = (s.array (s.arrayOf c)).setting ∧
          ∀ x, s.crossing c = some x → t.cmd? x.q x.slot = some { x with phase := .suspended })) ∧
  (∀ (s : State) (q : Fin 128) (slot : BitVec 32) (stall : LogStall) (b : Fin 4) (h : Fin 2) (c : Cmd),
    s.running q.val slot.toNat opArray = some c → plainMode 4 (dMode c.run) = true →
    Ends (.arrayLogMode q slot stall (some (.bank b h))) s fun t => t.mem = s.mem ∧
      t.cmd? q.val slot.toNat = some { c with phase := .suspended } ∧
      (s.physState (s.physCmd c).1 (s.physCmd c).2 < 16 → s.physCmd c ∈ t.num.fails) ∧
      ∃ e ∈ t.events, e.code = 0x3801 ∧ e.arg0 = BitVec.ofNat 32 (engineArg c.desc) ∧
        e.arg1 = BitVec.ofNat 32 (2 * b.val + h.val))

/-- R101, R112: a pass that ends early makes one further pass. A tile swap takes its stationary-nugget multipliers once they
are free, in the order in which the swaps arose; one that needs none takes none and does not wait, and neither does one of more than
64, whose tile is invalid; the pool of 64 is never exceeded. -/
def Obligations.PassesAndTheNuggetPool : Prop :=
  (∀ (s : State) (q : Fin 128) (slot : BitVec 32) (c : Cmd), s.running q.val slot.toNat opArray = some c →
    Ends (.passSplit q slot) s fun t => t.cmd? q.val slot.toNat = some { c with passes := c.passes + 1 } ∧
      { t with cmds := s.cmds, obs := s.obs } = s) ∧
  (∀ (s : State) (die : Fin 32) (shaft : Fin 16) (engine : Fin 2) (sub : Fin 16) (need : Nat),
    let k := ekey (Die.ofIx die.val) shaft.val engine.val
    Ends (.nuggetPoolSwap die shaft engine sub need) s fun t =>
      { t with eng := s.eng } = s ∧ (∀ j, j ≠ k → t.engine j = s.engine j) ∧
      { t.engine k with held := (s.engine k).held, waiting := (s.engine k).waiting } = s.engine k ∧
      (heldSum (s.engine k).held ≤ 64 → heldSum (t.engine k).held ≤ 64) ∧
      ((∀ w ∈ (s.engine k).waiting, w.1 = sub.val) → need = 0 ∨ 64 < need →
        (t.engine k).held = SMap.del (s.engine k).held sub.val ∧ (t.engine k).waiting = []) ∧
      ((∀ w ∈ (s.engine k).waiting, w.1 = sub.val) → 0 < need → need ≤ 64 → heldSum (SMap.del (s.engine k).held sub.val) + need ≤ 64 →
        (t.engine k).held = SMap.put (SMap.del (s.engine k).held sub.val) sub.val need ∧ (t.engine k).waiting = []) ∧
      (0 < need → need ≤ 64 → 64 < heldSum (SMap.del (s.engine k).held sub.val) + need → (∀ w ∈ (s.engine k).waiting, w.1 = sub.val) →
        (t.engine k).held = SMap.del (s.engine k).held sub.val ∧ (t.engine k).waiting = [(sub.val, need)]))

/-- R128, R129: a VECTOR command whose operands can be read and whose outputs can be written gives C, and D where it is used,
the function of its row of the table, each arithmetic step rounded to F32 with ties away and each sum along a row in the
fixed order. -/
def Obligations.VectorFunctions : Prop :=
  ∀ form ∈ ([(.vAdd, 0x01, fun x r k => rna32 (Fx.add (x.a r k) (x.b r k)), fun _ _ _ => Fx.zero),
      (.vMul, 0x02, fun x r k => rna32 (Fx.mul (x.a r k) (x.b r k)), fun _ _ _ => Fx.zero),
      (.vAxpby, 0x03, fun x r k => rna32 (Fx.add (Fx.mul (f32.decode (oAlpha x.d)) (x.a r k))
        (rna32 (Fx.mul (f32.decode (oBeta x.d)) (x.b r k)))), fun _ _ _ => Fx.zero),
      (.vExp, 0x08, fun x r k => vExpOf (x.a r k), fun _ _ _ => Fx.zero),
      (.vRecip, 0x09, fun x r k => vRecipOf (x.a r k), fun _ _ _ => Fx.zero),
      (.vRsqrt, 0x0A, fun x r k => vRsqrtOf (x.a r k), fun _ _ _ => Fx.zero),
      (.vSigmoid, 0x0B, fun x r k => vSigmoidOf (x.a r k), fun _ _ _ => Fx.zero),
      (.vRowSum, 0x10, fun x r k => [rowSum (x.row r)].getD k Fx.zero, fun _ _ _ => Fx.zero),
      (.vRowMax, 0x11, fun x r _ => (rowMax (x.row r)).1, fun x r _ => Fx.ofNat (rowMax (x.row r)).2),
      (.vSoftmax, 0x18, fun x r k =>
        let es := (x.row r).map fun v => vExpOf (rna32 (Fx.sub v (rowMax (x.row r)).1))
        (es.map fun e => rna32 (Fx.mul e (vRecipOf (rowSum es)))).getD k Fx.zero, fun _ _ _ => Fx.zero),
      (.vRmsnorm, 0x19, fun x r k =>
        let q := rna32 (Fx.div (rowSum ((x.row r).map fun v => rna32 (Fx.mul v v))) (rna32 (Fx.ofNat (x.row r).length)))
        let rs := vRsqrtOf (rna32 (Fx.add q (f32.decode (oEps x.d))))
        (((x.row r).zip x.gains).map fun p => rna32 (Fx.mul (rna32 (Fx.mul p.1 rs)) p.2)).getD k Fx.zero, fun _ _ _ => Fx.zero),
      (.vLayernorm, 0x1A, fun x r k =>
        let n := rna32 (Fx.ofNat (x.row r).length)
        let ds := (x.row r).map fun v => rna32 (Fx.sub v (rna32 (Fx.div (rowSum (x.row r)) n)))
        let v := rna32 (Fx.div (rowSum (ds.map fun e => rna32 (Fx.mul e e))) n)
        let rs := vRsqrtOf (rna32 (Fx.add v (f32.decode (oEps x.d))))
        ((ds.zip x.gains).map fun p => rna32 (Fx.mul (rna32 (Fx.mul p.1 rs)) p.2)).getD k Fx.zero, fun _ _ _ => Fx.zero),
      (.vTopkMax, 0x20, fun x r k => ((topK true (oTopK x.d) (x.row r)).getD k (Fx.zero, 0)).1,
        fun x r k => Fx.ofNat ((topK true (oTopK x.d) (x.row r)).getD k (Fx.zero, 0)).2),
      (.vTopkMin, 0x21, fun x r k => ((topK false (oTopK x.d) (x.row r)).getD k (Fx.zero, 0)).1,
        fun x r k => Fx.ofNat ((topK false (oTopK x.d) (x.row r)).getD k (Fx.zero, 0)).2),
      (.vConvert, 0x28, fun x r k => x.a r k, fun _ _ _ => Fx.zero)] :
      List ((Fin 128 → BitVec 32 → Instr) × Nat × (VecIn → Nat → Nat → Fx) × (VecIn → Nat → Nat → Fx))),
  ∀ (s : State) (q : Fin 128) (slot : BitVec 32) (c : Cmd) (a : Operand) (b : Option Operand),
    let d := c.desc
    let srC := dGradient d 2 && decide (dFmt d 2 ≠ 0x02)
    let srD := dGradient d 3 && decide (dFmt d 3 ≠ 0x02)
    s.running q.val slot.toNat opVector = some c → oFunc d = form.2.1 →
    s.checkDraws c (dCtx d 0) (stochasticIn d 0) = .ok () → (dCtx d 1 ≠ 0 → s.checkDraws c (dCtx d 1) (stochasticIn d 1) = .ok ()) →
    s.checkDraws c (dCtx d 2) srC = .ok () → (dCtx d 3 ≠ 0 → s.checkDraws c (dCtx d 3) srD = .ok ()) →
    s.readOperand c (dCtx d 0) = .ok a →
    (if dCtx d 1 = 0 then b = none else ∃ b', b = some b' ∧ s.readOperand c (dCtx d 1) = .ok b') →
    s.checkWrite c (dCtx d 2) = .ok () → (dCtx d 3 ≠ 0 → s.checkWrite c (dCtx d 3) = .ok ()) →
    Ends (form.1 q slot) s fun t =>
      (∃ u c', Counted s u ∧ { c' with epochTold := c.epochTold } = c ∧
        let v := u.fillWindows c' (a :: b.toList)
        let x : VecIn := ⟨d, v.toF32 c' a (stochasticIn d 0), match b with
          | some b => v.toF32 c' b (stochasticIn d 1)
          | none => fun _ _ => Fx.zero⟩
        let r := v.writeOutput c' (dCtx d 2) srC 0x02 fun _ r k => form.2.2.1 x r k
        t.mem = (if dCtx d 3 = 0 then r.1 else (r.1.writeOutput r.2 (dCtx d 3) srD 0x02 fun _ r k => form.2.2.2 x r k).1).mem) ∧
      ∃ c', t.cmd? q.val slot.toNat = some c' ∧ c'.worked = true ∧ c'.phase = .admitted ∧ c'.desc = d

/-! ### The stream engine (chapter 08) -/

/-- R80, R231, R232, R233, R237: NOP, COPY, ARM and DUMP. A NOP does no work. A COPY between equal formats writes the plates it
read, their data, scales and nuggets unchanged, and between different formats converts them. An ARM whose contexts have all
retired gives each its record at once; the last record of an ARM goes into the shadow of a context that is still outstanding,
and stalls at one whose shadow is pending. A DUMP writes the current records, in order. -/
def Obligations.MoveFunctions : Prop :=
  (∀ (s : State) (q : Fin 128) (slot : BitVec 32) (c : Cmd), s.running q.val slot.toNat opNop = some c →
    Ends (.nop q slot) s fun t => t = s.setCmd { c with worked := true }) ∧
  (∀ (s : State) (q : Fin 128) (slot : BitVec 32) (c : Cmd) (a : Operand),
    let tC := ctxTensor (s.ctx (dCtx c.desc 2)).desc
    let same := decide (tC.fmt = (ctxTensor (s.ctx (dCtx c.desc 0)).desc).fmt)
    let sr := !same && (dGradient c.desc 0 || dGradient c.desc 2)
    s.runningMove q.val slot.toNat 1 = some c → s.checkDraws c (dCtx c.desc 2) sr = .ok () →
    s.readOperand c (dCtx c.desc 0) = .ok a → s.checkWrite c (dCtx c.desc 2) = .ok () →
    Ends (.copy q slot) s fun t =>
      (∃ u v w : State, Counted s u ∧ Told (u.fillWindows c [a]) v ∧ Told (v.emitTensor (dCtx c.desc 2) tC (copyPlates a tC)) w ∧
        t.mem = (if same then w.fillWindow c (dCtx c.desc 2) (copyPlates a tC)
          else (v.writeOutput c (dCtx c.desc 2) sr a.t.fmt fun i r k => (cellAt a.t (fun _ => true) a.ps i r k).value).1).mem) ∧
      (same = true → sameLayout a.t tC = true → ∀ x ∈ copyPlates a tC, ∃ y ∈ a.ps, x.1 = y.1 ∧ x.2.data = y.2.data ∧
        x.2.scale = y.2.scale ∧ x.2.slot = y.2.slot ∧ x.2.epoch = y.2.epoch ∧ x.2.fmt = y.2.fmt ∧ x.2.crc = crc32c x.2.body) ∧
      ∃ c', t.cmd? q.val slot.toNat = some c' ∧ c'.worked = true ∧ c'.phase = .admitted) ∧
  (∀ (s : State) (q : Fin 128) (slot : BitVec 32) (c : Cmd) (recs : Nat → BitVec 512),
    let ctx (j : Nat) := s.localCtx c (oFirst c.desc + j)
    let draw (j : Nat) := if oLoadCounter c.desc then some (recordDraw (recs j)) else none
    s.runningMove q.val slot.toNat 2 = some c → (∀ j, j < oCount c.desc → s.tableRecord c.desc j = some (recs j)) →
    (c.passes = 0 → (∀ j, j < oCount c.desc → (s.ctx (ctx j)).shadow = none ∧ s.outstanding (ctx j) = false) →
      Ends (.arm q slot) s fun t =>
        (∀ j, j < oCount c.desc → t.ctx (ctx j) = (s.ctx (ctx j)).arm (recordDesc (recs j)) (draw j)) ∧
        ∃ c', t.cmd? q.val slot.toNat = some c' ∧ c'.worked = true) ∧
    (∀ j, c.passes = j → j + 1 = oCount c.desc → s.outstanding (ctx j) = true → (s.ctx (ctx j)).shadow = none →
      Ends (.arm q slot) s fun t =>
        t.ctx (ctx j) = { s.ctx (ctx j) with shadow := some (recordDesc (recs j), draw j) } ∧
        t.reg (okey 0x4130 3) = (s.bump (okey 0x4130 3) 1).reg (okey 0x4130 3) ∧
        ∃ c', t.cmd? q.val slot.toNat = some c' ∧ c'.worked = true) ∧
    (∀ j, c.passes = j → j + 1 = oCount c.desc → (s.ctx (ctx j)).shadow ≠ none →
      Ends (.arm q slot) s fun t => t.ctx (ctx j) = s.ctx (ctx j) ∧ t.cmd? q.val slot.toNat = some c)) ∧
  (∀ (s : State) (q : Fin 128) (slot : BitVec 32) (c : Cmd), s.runningMove q.val slot.toNat 3 = some c →
    s.dumpFault c.desc = none →
    Ends (.dump q slot) s fun t => t.cmd? q.val slot.toNat = some { c with worked := true, made := 0, saved := [] } ∧
      t.mem = (List.range (oCount c.desc)).foldl (fun m j => match s.physLine (oTable c.desc + 64 * j) with
        | none => m
        | some p => Mem.writeN m (p.data + (oTable c.desc + 64 * j) % 128)
            (leBytes 64 (ctxRecord (s.ctx (s.localCtx c (oFirst c.desc + j)))))) s.mem)

/-- R229, R233, R239, R240, R247, R250, R251: what happens to one context. A pending shadow takes effect in one step once the
old generation has retired. A tier's acknowledgement frees its tag, and nothing else changes; a late fault halts the command with
TRANSLATION at the page of its address, or with MEMORY where that page could not be copied out. A halted command whose causes have cleared runs again. RESUME clears the TRANSLATION cause of a context. -/
def Obligations.StreamContexts : Prop :=
  (∀ (s : State) (k : BitVec 18) (d : BitVec 364) (draw : Option (BitVec 84)), (s.ctx k.toNat).shadow = some (d, draw) →
    Ends (.shadowTakeEffect k) s fun t =>
      if s.outstanding k.toNat = true then t = s
      else
        let x := s.ctx k.toNat
        t.ctx k.toNat = { x with desc := d, draw := draw.getD x.draw, gen := x.gen + 1, doneGen := x.gen, shadow := none
                                 state := .idle, position := 0, causes := [] } ∧
        { t with ctxs := s.ctxs } = s ∧ ∀ j, j ≠ k.toNat → t.ctx j = s.ctx j) ∧
  (∀ (s : State) (k : BitVec 18) (addr : BitVec 52) (c : Cmd), (s.ctx k.toNat).tags ≠ 0 → s.userOf k.toNat = some c →
    Ends (.writeAck k addr false) s fun t => { t with ctxs := s.ctxs, cmds := s.cmds } = s ∧
      t.ctx k.toNat = { s.ctx k.toNat with tags := (s.ctx k.toNat).tags - 1 } ∧
      t.cmd? c.q c.slot = some { c with unacked := c.unacked - 1 } ∧
      (∀ x y, ¬ (x = c.q ∧ y = c.slot) → t.cmd? x y = s.cmd? x y) ∧ ∀ j, j ≠ k.toNat → t.ctx j = s.ctx j) ∧
  (∀ (s : State) (k : BitVec 18) (addr : BitVec 52) (c : Cmd), (s.ctx k.toNat).tags ≠ 0 → s.userOf k.toNat = some c →
    c.phase ≠ .done → Ends (.writeAck k addr true) s fun t => t.mem = s.mem ∧
      let dead := memN (s.pageStart addr.toNat) s.page.dead
      (∃ c', t.cmd? c.q c.slot = some c' ∧ c'.phase = (if dead then .done else .halted) ∧ c'.worked = false ∧ c'.desc = c.desc) ∧
      (t.ctx k.toNat).state = .halted ∧ (if dead then Cause.memory else .translation) ∈ (t.ctx k.toNat).causes ∧
      (dead = false → s.access addr.toNat true ≠ .noBacking → (t.ctx k.toNat).faultPage = some (s.pageStart addr.toNat))) ∧
  (∀ (s : State) (q : Fin 128) (slot : BitVec 32) (c : Cmd), s.cmd? q.val slot.toNat = some c → c.phase = .halted →
    let u := s.dropCleared c
    Ends (.streamResume q slot) s fun t =>
      if u.causesClear c = true ∧ u.tagsFree (s.qDie q.val).num (dShaft c.desc) (c.bound.map Prod.fst) = true then
        (∃ c', t.cmd? q.val slot.toNat = some c' ∧ { c' with since := c.since, turn := c.turn } =
          { c with phase := .admitted, haltTick := none, staleTold := false, waitsFor := [] }) ∧
        ∀ b ∈ c.bound, (t.ctx b.1).state = .running ∧ (t.ctx b.1).causes = [] ∧ (t.ctx b.1).desc = (s.ctx b.1).desc
      else t = u) ∧
  (∀ (s : State) (m : Msg) (v : BitVec 32), WritesNow s m 0x4110 1 (leBytes 4 v.toNat) →
    WriteEnds (.resume m v) s (aim m 0x4110 1 (leBytes 4 v.toNat)) fun u w =>
      { w with ctxs := u.ctxs } = u ∧ (∀ j, j ≠ v.toNat → w.ctx j = u.ctx j) ∧
      w.ctx v.toNat = { u.ctx v.toNat with faultPage := none
                                           causes := (u.ctx v.toNat).causes.filter fun k => !decide (k = .translation) })

/-- R159, R239, R249, R251, R271: a plate that a context has asked for. One that passes its checks is kept for the command
where it came over a link, and lets it run on where it came from a tier; a reply that matches no tag held, its reuse count among
it, is discarded whole; an uncorrectable error halts the stream with MEMORY, and its command is to complete with
DISCARDED_FOR_REPLAY; a correction in a stope is counted. -/
def Obligations.PlateReplies : Prop :=
  ∀ (s : State) (k : BitVec 18) (addr : BitVec 52) (ecc : Ecc) (c : Cmd) (off : Nat), s.userOf k.toNat = some c →
    let x := s.ctx k.toNat
    let t0 := ctxTensor x.desc
    let stops (t : State) := (∃ c', t.cmd? c.q c.slot = some c' ∧ c'.phase = .done ∧ c'.status = 0x23 ∧ c'.worked = false ∧
        c'.desc = c.desc ∧ c'.haltTick = some (c.haltTick.getD s.tickNo)) ∧
      Cause.memory ∈ (t.ctx k.toNat).causes ∧ (t.ctx k.toNat).state = .halted ∧ bit t.step.causes 5 = true
    lineOffset t0 addr.toNat = some off →
    (∀ (r : RemReply) (e n : Nat) (u : TagUse), s.tagOf (streamReqId k.toNat r.tag.toNat r.reuse) = some (e, n, u) →
      u.ctx = k.toNat → u.addr = addr.toNat → u.write = false → u.want = true → s.remote t0 = true →
      c.phase ≠ .done → s.stale (Plate.ofBytes r.bytes 0) = false →
      plateCheck t0.fmt none (lineInBlock t0 off) (Plate.ofBytes r.bytes 0) = 0 →
      Ends (.plateReadReply k addr ecc (some r)) s fun t =>
        t.ctx k.toNat = { x with got := SMap.put x.got addr.toNat r.bytes } ∧ t.cmds = s.cmds ∧ t.mem = s.mem ∧
        ∀ j, j ≠ k.toNat → t.ctx j = s.ctx j) ∧
    (∀ r : RemReply, s.tagOf (streamReqId k.toNat r.tag.toNat r.reuse) = none →
      Ends (.plateReadReply k addr ecc (some r)) s fun t => t = s) ∧
    (∀ pl, t0.stope = false → s.remote t0 = false → s.physLine addr.toNat = some pl → ecc = .clean → s.lineErr pl.data = false →
      plateCheck t0.fmt (some addr.toNat) (lineInBlock t0 off) (s.plateAt pl) = 0 →
      Ends (.plateReadReply k addr ecc none) s fun t => t.ctxs = s.ctxs ∧ t.cmds = s.cmds) ∧
    (∀ pl, t0.stope = false → s.remote t0 = false → s.physLine addr.toNat = some pl → ecc = .uncorrectable → c.phase ≠ .done →
      Ends (.plateReadReply k addr ecc none) s stops) ∧
    (t0.stope = true → c.phase ≠ .done → Ends (.plateReadReply k addr ecc none) s fun t => match ecc with
      | .clean => t.ctxs = s.ctxs ∧ t.cmds = s.cmds
      | .corrected => t.ctxs = s.ctxs ∧ t.cmds = s.cmds ∧
          t.reg (okey (0xA000 + 0x100 * ctxDie k.toNat + 0x70) 3) =
            (s.bump (okey (0xA000 + 0x100 * ctxDie k.toNat + 0x70) 3) 1).reg (okey (0xA000 + 0x100 * ctxDie k.toNat + 0x70) 3)
      | .uncorrectable => stops t)

/-- R250, R251, R255, R256: halts that last or that come from outside. A halt not cleared after HALT_STALE_TICKS is told once.
A remote tag without a reply halts its stream with LINK, and the tag's reuse count moves on. Of a deadlocked set the command with
the highest context number halts with DEADLOCK until the others have left. -/
def Obligations.StreamHalts : Prop :=
  (∀ (s : State) (k : BitVec 18) (c : Cmd), s.userOf k.toNat = some c → Ends (.streamHaltStale k) s fun t =>
    if c.phase = .halted ∧ c.staleTold = false ∧ c.haltTick.getD s.tickNo + s.ob 0x4100 3 ≤ s.tickNo ∧
        (s.ctx k.toNat).causes ≠ [] then
      Tells (s.setCmd { c with staleTold := true }) t 0x4105 k.toNat (highestCause (s.ctx k.toNat).causes)
    else t = s) ∧
  (∀ (s : State) (k : BitVec 18) (c : Cmd) (n : Nat) (u : TagUse), s.userOf k.toNat = some c → c.phase ≠ .done →
    ((s.heldRemote k.toNat).find? fun x => x.2.want) = some (n, u) → Ends (.remoteTimeout k) s fun t =>
      (∃ c', t.cmd? c.q c.slot = some c' ∧ c'.phase = .halted ∧ c'.desc = c.desc) ∧ t.mem = s.mem ∧
      (t.rtag (streamKey k.toNat) n).reuse = (s.rtag (streamKey k.toNat) n).reuse + 1 ∧ Cause.link ∈ (t.ctx k.toNat).causes ∧
      t.reg (okey 0x4130 6) = (s.bump (okey 0x4130 6) 1).reg (okey 0x4130 6) ∧
      ∃ v, Tells v t 0x4104 k.toNat (cModule (s.ctx k.toNat).desc)) ∧
  (∀ (s : State) (die : Fin 32) (shaft : Fin 16) (blocked : List (Fin 128 × BitVec 32)) (set : List Cmd) (c : Cmd),
    set = (blocked.filterMap fun b => s.cmd? b.1.val b.2.toNat) → set.length = blocked.length → 2 ≤ set.length →
    (∀ x ∈ set, x.phase = .admitted ∧ s.qDie x.q = Die.ofIx die.val ∧ dShaft x.desc = shaft.val ∧ x.bound ≠ [] ∧
      s.blockedLong x = true) →
    (set.find? fun x => decide (x.topCtx = set.foldl (fun a y => max a y.topCtx) 0)) = some c →
    Ends (.deadlockDetect die shaft blocked) s fun t =>
      (∃ c', t.cmd? c.q c.slot = some c' ∧ c'.phase = .halted ∧ c'.worked = false ∧
        ∀ x ∈ set, ¬ (x.q = c.q ∧ x.slot = c.slot) → (x.q, x.slot) ∈ c'.waitsFor) ∧
      Cause.deadlock ∈ (t.ctx c.topCtx).causes ∧
      (∀ x y, ¬ (x = c.q ∧ y = c.slot) → t.cmd? x y = s.cmd? x y) ∧
      t.reg (okey 0x4130 2) = (s.bump (okey 0x4130 2) 1).reg (okey 0x4130 2) ∧
      ∃ v, Tells v t 0x4103 c.topCtx set.length)

/-! ### Memory (chapter 09) -/

/-- R262, R264, R265, R266, R280: pages. A page-in starts with the frame chosen for it, the bin it is staged in awake; where there
is no frame the page is noted, to be tried again, and MEMORY_FULL tells of it. At its end its entry shows the frame, present and
clean, and the contexts that waited go on. A page that has drained takes its new entry, its bytes copied where it is copied at all;
where that copy meets an uncorrectable error it is left unmapped, and MEM_UE tells of it. -/
def Obligations.PageInsAndDrains : Prop :=
  (∀ (s : State) (addr : BitVec 52) (die : Nat), s.pagerDie (s.pageStart addr.toNat) = some die →
    s.access addr.toNat false = .absent → s.draining addr.toNat = false →
    (∀ i ∈ s.page.ins, i.page ≠ s.pageStart addr.toNat) →
    (∀ f, s.chooseFrame die (s.entryAt addr.toNat) = some f → Ends (.pageIn addr) s fun t =>
      t = { s with page := { s.page with ins := s.page.ins ++ [⟨s.pageStart addr.toNat, f.1, f.2.1, f.2.2, die⟩]
                                         full := SMap.del s.page.full (s.pageStart addr.toNat)
                                         retained := s.page.retained.filter fun r => !decide (r = (die, 18)) } }) ∧
    (s.chooseFrame die (s.entryAt addr.toNat) = none → s.fetchWaiters (s.pageStart addr.toNat) = [] →
      s.recordWaiters (s.pageStart addr.toNat) = [] → Ends (.pageIn addr) s fun t =>
        Tells { s with page := { s.page with full := SMap.put s.page.full (s.pageStart addr.toNat) die } } t 0x4404 ((s.pageWaiters (s.pageStart addr.toNat)).headD 0) (addrHi (s.pageStart addr.toNat)))) ∧
  (∀ (s : State) (addr : BitVec 52) (i : PageIn) (src : Parts),
    let page := s.pageStart addr.toNat
    SMap.get? s.page.large (page / 2 ^ 30) = none → (s.page.ins.find? fun i => decide (i.page = page)) = some i →
    s.backParts (s.entryAt addr.toNat) = some src → i.tier < 2 → i.unit < 64 → i.frame < 2 ^ 20 →
    (eBackTier (s.entryAt addr.toNat) = 1 →
      s.frameErr (1, eBackUnit (s.entryAt addr.toNat), eBackFrame (s.entryAt addr.toNat)) = none) →
    Ends (.pageInDone addr false) s fun t =>
      let e := t.entryAt page
      ePresent e = true ∧ eDirty e = false ∧ eTier e = i.tier ∧ eUnit e = i.unit ∧ eFrame e = i.frame ∧
      e % 2 ^ 32 = s.entryAt page % 2 ^ 32 ∧ t.page.ins = s.page.ins.filter (fun j => !decide (j.page = page)) ∧
      t.mem = (s.copyPage src (frameParts i.tier i.unit i.frame)).mem ∧
      t.reg (okey 0x4410 6) = (s.bump (okey 0x4410 6) 1).reg (okey 0x4410 6) ∧
      ∀ k ∈ s.pageWaiters page, (t.ctx k).faultPage = none ∧ Cause.translation ∉ (t.ctx k).causes) ∧
  (∀ (s : State) (addr : BitVec 52) (d : Drain),
    let page := s.pageStart addr.toNat
    (s.page.drains.find? fun d => decide (d.page = page)) = some d →
    let old := d.old.toNat
    let new := d.new.toNat
    (∀ bad : Option (BitVec 30), (s.copies page old new = true → s.drainErr page old (bad.map BitVec.toNat) = none) →
      Ends (.pageDrainDone addr bad) s fun t =>
        t.page.drains = s.page.drains.filter (fun x => !decide (x.page = page)) ∧
        (⟨t.page.small, t.page.large⟩ : Tables) = Tables.put (Tables.put ⟨s.page.small, s.page.large⟩ page 0) page new ∧
        t.mem = (if s.copies page old new then s.copyOut old new else s).mem) ∧
    (∀ (bad : Option (BitVec 30)) f k, s.copies page old new = true → s.drainErr page old (bad.map BitVec.toNat) = some (f, k) →
      Ends (.pageDrainDone addr bad) s fun t =>
        t.page.drains = s.page.drains.filter (fun x => !decide (x.page = page)) ∧ page ∈ t.page.dead ∧ t.mem = s.mem ∧
        (⟨t.page.small, t.page.large⟩ : Tables) = Tables.put ⟨s.page.small, s.page.large⟩ page 0 ∧
        ∃ e ∈ t.events, e.code = 0x4401 ∧ e.arg0 = BitVec.ofNat 32 (ueArg f).1 ∧ e.arg1 = BitVec.ofNat 32 (ueArg f).2))

/-- R264: a batch of mapping entries that passes its checks waits, whole, for the next boundary, and no entry has changed. A
write of LOOKUP_ADDR changes it alone, and LOOKUP_ENTRY then shows the entry of that address. -/
def Obligations.MappingWrites : Prop :=
  (∀ (s : State) (m : Msg) (pairs : List (BitVec 64 × BitVec 64)) (o : Obj),
    let m' := { aim m 0x4410 1 (pairBytes pairs) with offset := 0, last := true }
    WritesTable s m' o → Ends (.mapBatch m pairs) s fun t => AnsweredOk t 4 m' ∧ ∃ v : State, SameButAnswer m' v t ∧
      { v with dict := { v.dict with rwt := s.dict.rwt, abandoned := s.dict.abandoned } } = atService s 4 false m' ∧
      v.waits (okey 0x4410 1) = some (pairBytes pairs) ∧ ∀ j, j ≠ okey 0x4410 1 → v.waits j = s.waits j) ∧
  (∀ (s : State) (m : Msg) (addr : BitVec 64), WritesNow s m 0x4410 2 (leBytes 8 addr.toNat) →
    WriteEnds (.lookupAddr m addr) s (aim m 0x4410 2 (leBytes 8 addr.toNat)) fun u v =>
      v = u.setReg (okey 0x4410 2) addr.toNat ∧ v.view (okey 0x4410 3) = u.entryAt addr.toNat)

/-- R268, R270, R271, R366: the aperture. A read of the data part is answered with the bytes that stand there, where no line of it
meets an uncorrectable error, and what it corrects is counted; a write puts its bytes there, where the page is present and writable, and no other byte changes. Where
the page is not present a read is answered with Completer Abort, a write is dropped, and APERTURE_FAULT is raised once per page
and tick. -/
def Obligations.ApertureReadsAndWrites : Prop :=
  ∀ (s : State) (off : Nat), s.hostUp = true → s.host.d3hot = false → off < s.barSize / 2 →
    let a := s.apertureBase + off
    let told := memN (s.pageStart a) s.page.apFaults
    (∀ p n, s.physLine a = some p → (apLines (.data a) n).find? s.lineBad = none →
      Ends (.hostApertureRead off n) s fun t => ∃ u, Corrected s u ∧ t = u.send (.aperture (some (s.load (p.data + a % 128) n)) false)) ∧
    (∀ p b, Inv s → s.physLine a = some p → s.access a true = .served →
      Ends (.hostApertureWrite off b) s fun t => { t with mem := s.mem, page := s.page } = s ∧
        t.load (p.data + a % 128) b.length = b ∧
        ∀ j, (j < p.data + a % 128 ∨ p.data + a % 128 + b.length ≤ j) → Mem.read t.mem j = Mem.read s.mem j) ∧
    (s.physLine a = none → ∀ n b,
      (Ends (.hostApertureRead off n) s fun t => ∃ u, t = u.send (.aperture none false) ∧
        if told then u = s
        else Tells { s with page := { s.page with apFaults := s.pageStart a :: s.page.apFaults } } u 0x4405 (bits off 41 21) 0) ∧
      (Ends (.hostApertureWrite off b) s fun t =>
        if told then t = s
        else Tells { s with page := { s.page with apFaults := s.pageStart a :: s.page.apFaults } } t 0x4405 (bits off 41 21) 1))

/-- R265, R280, R368: a page-in from host memory whose read times out ends with nothing installed, and a context that waited
halts with MEMORY, its command to complete with DISCARDED_FOR_REPLAY. A retained stope or bin that wakes leaves the list of
retained ones, and nothing else changes. -/
def Obligations.HostReadTimeoutAndWake : Prop :=
  (∀ (s : State) (addr : BitVec 52) (i : PageIn) (k : Nat) (c : Cmd),
    let page := s.pageStart addr.toNat
    eBackTier (s.entryAt addr.toNat) = 2 → (s.page.ins.find? fun i => decide (i.page = page)) = some i →
    s.pageWaiters page = [k] → s.userOf k = some c → (∀ q, q < 128 → s.pageStart (s.descAddr q (s.qHead q)) ≠ page) →
    (∀ x ∈ s.cmds, s.pageStart (s.recordAddr x.q x.slot) ≠ page) →
    Ends (.hostReadTimeout addr) s fun t =>
      t.page = { s.page with ins := s.page.ins.filter fun j => !decide (j.page = page) } ∧ SameMem s t ∧
      (∃ c', t.cmd? c.q c.slot = some c' ∧ c'.phase = .done ∧ c'.status = 0x23 ∧ c'.worked = false ∧ c'.desc = c.desc) ∧
      (t.ctx k).state = .halted ∧ Cause.memory ∈ (t.ctx k).causes ∧ bit t.step.causes 5 = true) ∧
  (∀ (s : State) (die : Fin 32) (shaft : Option (Fin 18)),
    let unit := (shaft.map Fin.val).getD 18
    Ends (.retentionWake die shaft) s fun t => { t with page := { t.page with retained := s.page.retained } } = s ∧
      ∀ r, r ∈ t.page.retained ↔ r ∈ s.page.retained ∧ r ≠ (die.val, unit))

/-- R25, R28, R273, R281, R282, R318, R319, R322: what the canary finds on a die in service; a die out of service runs none. A
pass of a good shaft sets its T_pass to the tick and counts. A failed vector counts and is told, with the shaft to be retired at
the next boundary. A scrub counts what it corrected, and a background region that passes counts as tested. A shaft whose bound
has gone by without a pass is counted and told once; and the entries that wait are appended to both copies of the field defect
list, with its generation and the counter one on. -/
def Obligations.CanaryAndTheDefectList : Prop :=
  (∀ (s : State) (die : Die) (work : CanaryWork), s.live die = false ∨ s.noSlot die work = true →
    Ends (.canarySegment die work) s fun t => t = s) ∧
  (∀ (s : State) (n : Fin 32) (p : Fin 18), s.live (.t n) = true → s.physState n.val p.val < 16 → s.tickNo < 2 ^ 64 →
    s.noSlot (.t n) (.segment (some p) true) = false →
    Ends (.canarySegment (.t n) (.segment (some p) true)) s fun t => t.tPass n.val p.val = s.tickNo ∧
      (n.val, p.val) ∉ t.page.retained ∧
      (∀ x y, ¬ (x = n.val ∧ y = p.val) → x < 32 → y < 18 → t.tPass x y = s.tPass x y) ∧
      t.regs = (s.bump (okey 0x7100 2) 1).regs ∧ t.num = s.num ∧ SMap.get? t.can.lowClock (canKey n.val p.val) = none) ∧
  (∀ (s : State) (n : Fin 32) (p : Fin 18) (group : Nat) (v : BitVec 32), s.live (.t n) = true →
    s.physState n.val p.val < 16 → s.noSlot (.t n) (.vectorFail 1 p.val group v) = false →
    Ends (.canarySegment (.t n) (.vectorFail 1 p.val group v)) s fun t => (n.val, p.val) ∈ t.num.fails ∧
      t.reg (okey 0x7100 3) = (s.bump (okey 0x7100 3) 1).reg (okey 0x7100 3) ∧
      ∃ e ∈ t.events, e.code = 0x7101 ∧ e.unit = unitId (.t n) 1 p.val ∧ e.arg0 = BitVec.ofNat 32 group) ∧
  (∀ (s : State) (die : Die) (lpddr full : Bool) (unit corrected : Nat), s.live die = true → s.isReady = true →
    Ends (.canarySegment die (.scrub lpddr unit corrected [] full)) s fun t =>
      { t with regs := s.regs } = s ∧
      t.reg (okey 0x4430 (if lpddr then 3 else 1)) =
        (s.bump (okey 0x4430 (if lpddr then 3 else 1)) corrected).reg (okey 0x4430 (if lpddr then 3 else 1)) ∧
      t.reg (okey 0x4430 6) = (if full then (s.bump (okey 0x4430 6) 1).reg (okey 0x4430 6) else s.reg (okey 0x4430 6))) ∧
  (∀ (s : State) (n : Fin 32) (shaft : Option (Fin 18)) (region : Nat), s.live (.t n) = true →
    s.noSlot (.t n) (.bgTest shaft region false) = false →
    Ends (.canarySegment (.t n) (.bgTest shaft region false)) s fun t =>
      { t with page := { t.page with retained := s.page.retained, retest := s.page.retest } } = s.bump (okey 0x4440 2) 1 ∧
      (∀ r, r ∈ t.page.retained ↔ r ∈ s.page.retained ∧ r ≠ (n.val, (shaft.map Fin.val).getD 18)) ∧
      ∀ r, r ∈ t.page.retest ↔ r ∈ s.page.retest ∧ ∀ p, shaft = some p → r ≠ (n.val, p.val, region)) ∧
  (∀ (s : State) (die : Fin 32) (phys : Fin 18),
    let since := s.tickNo - s.tPass die.val phys.val
    Ends (.canaryLate die phys) s fun t =>
      if s.live (.t die) = true ∧ s.physState die.val phys.val < 16 ∧ memN (canKey die.val phys.val) s.can.lateTold = false ∧
          canaryBound (s.lowest die.val phys.val) < since * s.periodNs + s.tick.now then
        memN (canKey die.val phys.val) t.can.lateTold = true ∧ t.num = s.num ∧
        t.reg (okey 0x7100 4) = (s.bump (okey 0x7100 4) 1).reg (okey 0x7100 4) ∧
        ∃ u, Tells u t 0x7102 (die.val * 32 + phys.val) since
      else t = s) ∧
  (∀ s : State, s.serves = true → s.num.append ≠ [] → s.num.counter < 1024 →
    s.list.entries.length + s.num.append.length ≤ 4088 → Ends .defectListAppend s fun t =>
      let l : ListCopy := { s.list with generation := s.list.generation + 1, entries := s.list.entries ++ s.num.append
                                        digestOk := true }
      t.num = { s.num with append := [], copies := (l, l), counter := s.num.counter + 1 } ∧
      t.reg (okey 0x7003 1) = l.generation % 2 ^ 32 ∧ t.reg (okey 0x7003 2) = l.entries.length ∧
      t.reg (okey 0x7003 3) = 1024 - (s.num.counter + 1))

/-! ### Jobs, steps, the Fixer dies (chapters 01, 06, 10 and 11) -/

/-- R36, R38, R45, R211, R296, R313, R336: START_JOB and END_JOB are writes that wait for the next boundary; INJECT_REPLAY posts
its cause for the running step at once; a write of HELD_STEP puts the step into the record of its layer. FREEZE acts at once
where no job runs, and waits for the die's next commit where one does; PROBE_STEP shows the sixteen rates of its step; a die
that is to be fenced or readmitted waits for the next boundary. -/
def Obligations.JobFixerAndServiceWrites : Prop :=
  (∀ (s : State) (m : Msg) (c : Instr) (b : Byte), (c = .startJob m ∧ b = 1) ∨ (c = .endJob m ∧ b = 0) →
    WritesLater s m 0x7002 1 [b] → WriteEnds c s (aim m 0x7002 1 [b]) fun u v =>
      { v with dict := { v.dict with rwt := u.dict.rwt } } = u ∧ v.waits (okey 0x7002 1) = some [b] ∧ ∀ j, j ≠ okey 0x7002 1 → v.waits j = u.waits j) ∧
  (∀ (s : State) (m : Msg), WritesNow s m 0x3100 0x0D [1] → WriteEnds (.injectReplay m) s (aim m 0x3100 0x0D [1]) fun u v =>
    v = { u with step := { u.step with causes := u.step.causes ||| 2 ^ 9 } }) ∧
  (∀ (s : State) (m : Msg) (x : BitVec 64), WritesNow s m 0x3150 5 (leBytes 8 x.toNat) →
    WriteEnds (.heldStepWrite m x) s (aim m 0x3150 5 (leBytes 8 x.toNat)) fun u v =>
      { v with dom := u.dom } = u ∧
      ∀ l, v.steer l = if l = bits x.toNat 43 32 then setBits (u.steer l) 191 160 (bits x.toNat 31 0) else u.steer l) ∧
  (∀ (s : State) (m : Msg) (x : BitVec 32), WritesNow s m 0x6000 2 (leBytes 4 x.toNat) →
    WriteEnds (.freeze m x) s (aim m 0x6000 2 (leBytes 4 x.toNat)) fun u v =>
      let f := bits x.toNat 15 12
      let g := bits x.toNat 11 0
      if u.jobRuns then
        { v with fix := u.fix } = u ∧ SMap.get? (v.fixer f).freezes g = some (bit x.toNat 16) ∧
        (∀ j, j ≠ g → SMap.get? (v.fixer f).freezes j = SMap.get? (u.fixer f).freezes j) ∧ ∀ j, j ≠ f → v.fixer j = u.fixer j
      else
        { v with dom := u.dom } = u ∧ v.group f g = setBits (u.group f g) 679 679 (b2n (bit x.toNat 16)) ∧
        ∀ f' g', f' < 16 → g' < 4096 → ¬ (f' = f ∧ g' = g) → v.group f' g' = u.group f' g') ∧
  (∀ (s : State) (m : Msg) (x : BitVec 32), WritesNow s m 0x6020 2 (leBytes 4 x.toNat) →
    WriteEnds (.probeStep m x) s (aim m 0x6020 2 (leBytes 4 x.toNat)) fun u v =>
      { v with regs := u.regs, dom := u.dom } = u ∧ v.ob 0x6020 2 = x.toNat ∧
      (∀ j, j ≠ okey 0x6020 2 → v.reg j = u.reg j) ∧
      ∀ k, k < 16 → v.domNat 0x602003 (4 * k) 4 = (enc32 (learningRate (u.schedule k) x.toNat)).toNat) ∧
  (∀ (s : State) (m : Msg) (die : Die), WritesNow s m 0x7110 1 (leBytes 2 (dieArg die + 1)) →
    WriteEnds (.fenceDie m die) s (aim m 0x7110 1 (leBytes 2 (dieArg die + 1))) fun u v =>
      { v with num := { v.num with fences := u.num.fences } } = u ∧ ∃ lost, (die, lost) ∈ v.num.fences) ∧
  (∀ (s : State) (m : Msg) (die : Die), WritesNow s m 0x7110 1 (leBytes 2 (dieArg die)) →
    WriteEnds (.readmitDie m die) s (aim m 0x7110 1 (leBytes 2 (dieArg die))) fun u v =>
      { v with num := { v.num with readmits := u.num.readmits } } = u ∧ ∀ d, d ∈ v.num.readmits ↔ d = die ∨ d ∈ u.num.readmits)

/-- R158: the plate check is CRC-32C over bytes 0 to 139: the remainder that the reflected message, its first 32 bits inverted,
leaves by the polynomial, reflected and inverted; over "123456789" it is 0xE3069283. -/
def Obligations.PlateCheckIsCrc32c : Prop :=
  crc32c [0x31, 0x32, 0x33, 0x34, 0x35, 0x36, 0x37, 0x38, 0x39] = 0xE3069283 ∧
  (∀ p : Plate, p.body.length = 140 ∧ p.seal.bytes = p.body ++ leBytes 4 (crc32c p.body)) ∧
  ∀ bs : Bytes, ∃ (quotient : List Nat) (rem : BitVec 32),
    quotient.foldl (fun a i => a ^^^ (0x11EDC6F41 <<< i))
      ((bs.foldl (fun a (b : Byte) => a * 256 + b.reverse.toNat) 0 <<< 32) ^^^ (0xFFFFFFFF <<< (8 * bs.length))) = rem.toNat ∧
    crc32c bs = rem.reverse.toNat ^^^ 0xFFFFFFFF

/-- R300, R301, R302: what one element becomes under momentum, under the moment pair with bias correction, and under sign
momentum, each fma, product, quotient and root rounded once. -/
def Obligations.UpdateRules : Prop :=
  ∀ (p : Params) (lr g w m r : Fx) (n : Nat),
    let f (x y z : Fx) : Fx := rna32 (Fx.add (Fx.mul x y) z)
    let mul (x y : Fx) : Fx := rna32 (Fx.mul x y)
    let ob1 := rna32 (Fx.sub Fx.one p.beta1)
    let ob2 := rna32 (Fx.sub Fx.one p.beta2)
    let w1 := f (mul lr p.decay).negate w w
    let u (rule : Nat) := updElt (prologue rule p lr n) g w m r
    (u 0 = let m' := f p.beta1 m g
      ⟨f lr.negate (if p.lookahead then f p.beta1 m' g else m') w1, m', r⟩) ∧
    (u 1 = let a1 := rna32 (rna64 (Fx.div lr (rna64 (Fx.sub Fx.one (pow64 p.beta1 n)))))
      let k2 := rna32 (rna64 (Fx.div Fx.one (rna64 (Fx.sqrt (rna64 (Fx.sub Fx.one (pow64 p.beta2 n)))))))
      let m' := f p.beta1 m (mul ob1 g)
      let r' := rna32 (Fx.sqrt (f p.beta2 (mul r r) (mul ob2 (mul g g))))
      ⟨f a1.negate (rna32 (Fx.div m' (f r' k2 p.eps))) w1, m', r'⟩) ∧
    (u 2 = ⟨f lr.negate (match f p.beta1 m (mul ob1 g) with
        | .nan => .nan
        | .inf neg => .fin neg 1 0
        | .fin neg k _ => if k = 0 then Fx.zero else .fin neg 1 0) w1, f p.beta2 m (mul ob2 g), r⟩)

/-- R289, R296, R297, R304, R307, R309: an UPDATE. A frozen touch reads its gradient, counts and changes no memory. A dense
group under a rule of one moment writes to its other side, and to it alone, the halves of its new weights and its new moment;
every form whose regions can be read and written completes. A touched group's rows are held, and memory is as before. A memory
error ends the command with DISCARDED_FOR_REPLAY. -/
def Obligations.UpdatesWriteTheOtherSide : Prop :=
  ∀ (s : State) (q : Fin 128) (slot : BitVec 32) (c : Cmd), s.running q.val slot.toNat opUpdate = some c →
    let f := s.fixOf c
    let g := oGroup c.desc
    let e := s.group f g
    let sd := gSide e
    let gt := s.gradT c e
    let all (t : Tensor) := s.readFix t (tensorLines t)
    (c.passes = 1 → ∀ gp, all gt = .ok gp → Ends (.update q slot) s fun t =>
      t.cmd? q.val slot.toNat = some { c with worked := true } ∧ t.mem = s.mem ∧ t.dom = s.dom ∧ t.fix = s.fix ∧
      t.reg (okey 0x6050 3) = (s.bump (okey 0x6050 3) 1).reg (okey 0x6050 3)) ∧
    (c.passes ≠ 1 → gTouched e = false → ∀ u, s.updDenseRun c = .ok u → Ends (.update q slot) s fun t =>
      (∃ c', t.cmd? q.val slot.toNat = some c' ∧ c'.worked = true ∧ c'.phase = c.phase) ∧ t.dom = s.dom ∧ t.fix = s.fix ∧
      t.reg (okey 0x6050 5) = (s.bump (okey 0x6050 5) (gRows e * gCols e)).reg (okey 0x6050 5)) ∧
    (c.passes ≠ 1 → gTouched e = false → gRule e = 0 ∨ gRule e = 2 → SMap.get 0 c.expo 0 = 0 → ∀ gp hp lp mp,
      all gt = .ok gp → all (s.hiT e sd) = .ok hp → all (s.loT e sd) = .ok lp → all (s.mT e sd) = .ok mp →
      s.fixWritable [s.hiT e (1 - sd), s.loT e (1 - sd), s.mT e (1 - sd)] = .ok () →
      let new (i j : Nat) : EltUpd :=
        if i < gRows e ∧ j < gCols e then
          updElt (s.prologueOf c e) (gradVal c.desc (cellAt gt (epochOk c gt) gp 0 i j).value)
            (dec32 (weightBits (rawOf (s.hiT e sd) hp i j) (rawOf (s.loT e sd) lp i j)))
            (cellAt (s.mT e sd) anyPlate mp 0 i j).value Fx.zero
        else ⟨Fx.zero, Fx.zero, Fx.zero⟩
      let half (t : Tensor) (v : BitVec 32 → Nat) := rawPlates t (List.range (gRows e)) fun i j => v (enc32 (new i j).w)
      let mT := s.mT e (1 - sd)
      let o (u : State) := (convertTensor mT (u.fixConv e 0x10) fun _ i j => (new i j).m).plates
      Ends (.update q slot) s fun t => ∃ u : State, u.mem = s.mem ∧ u.page = s.page ∧ u.dom = s.dom ∧
        t.mem = (((u.writeFix (s.hiT e (1 - sd)) (half (s.hiT e (1 - sd)) fun w => w.toNat / 65536)).writeFix
          (s.loT e (1 - sd)) (half (s.loT e (1 - sd)) fun w => w.toNat % 65536)).writeFix
          mT (finishPlates mT 0 ((tensorLines mT).map fun l => (l, SMap.get Plate.empty (o u) l)))).mem) ∧
    (c.passes ≠ 1 → gTouched e = true → ∀ u rows, s.updRowsRun c = .ok u → s.rowList c.desc = .ok rows →
      Ends (.update q slot) s fun t => t.mem = s.mem ∧ t.dom = s.dom ∧
        ((t.fixer f).holds.filter fun h => decide (h.group = g)).map HeldRow.row = rows ∧
        ((t.fixer f).holds.filter fun h => !decide (h.group = g)) = (s.fixer f).holds.filter (fun h => !decide (h.group = g)) ∧
        ∃ c', t.cmd? q.val slot.toNat = some c' ∧ c'.worked = true) ∧
    (∀ b, (if c.passes = 1 then s.touchRun c else if gTouched e then s.updRowsRun c else s.updDenseRun c) = .error b →
      Ends (.update q slot) s fun t => t.mem = s.mem ∧ t.fix = s.fix ∧ bit t.step.causes 5 = true ∧
        ∃ c', t.cmd? q.val slot.toNat = some c' ∧ c'.phase = .done ∧ c'.status = 0x23 ∧ c'.worked = false)

/-- R199, R291, R308, R309: a VERDICT. On the PASS of its step every applied group is committed: a dense group's sides change
roles, its LAST_STEP is the step and its count moves on, with no weight copied. On any other verdict what the step applied is
dropped, and no group changes. Either way the hold area of the die is empty. -/
def Obligations.VerdictsCommitOrDiscard : Prop :=
  ∀ (s : State) (q : Fin 128) (slot : BitVec 32) (c : Cmd), s.running q.val slot.toNat opVerdict = some c →
    let f := s.fixOf c
    (c.passes = vPass → s.verdictWaits f = false → Ends (.verdict q slot) s fun t =>
      (t.fixer f).applied = [] ∧ (t.fixer f).holds = [] ∧ (t.fixer f).freezes = [] ∧
      ((∀ x ∈ s.cmds, dOpcode x.desc = opUpdate → s.qDie x.q ≠ Die.ofIx (48 + f)) →
        ∃ posts, t.cmd? q.val slot.toNat = some { c with worked := true, posts := c.posts ++ posts })) ∧
    (c.passes = vPass → s.verdictWaits f = true → Ends (.verdict q slot) s fun t => t = s) ∧
    (c.passes = vPass → s.verdictWaits f = false → (s.fixer f).freezes = [] →
      (∀ x ∈ s.cmds, dOpcode x.desc = opUpdate → s.qDie x.q ≠ Die.ofIx (48 + f)) → ∀ g fmt, g < 4096 →
      ((s.fixer f).applied.filter fun a => decide (a.2.2 = dStep c.desc)) = [(g, fmt, dStep c.desc)] →
      gTouched (s.group f g) = false → gFollow (s.group f g) = false → Ends (.verdict q slot) s fun t =>
        let e := s.group f g
        let e' := t.group f g
        gSide e' = 1 - gSide e ∧ gLast e' = dStep c.desc ∧ gUpdates e' = min (gUpdates e + 1) (2 ^ 32 - 1) ∧ gHi e' = gHi e ∧
        (∀ g', g' < 4096 → g' ≠ g → t.group f g' = s.group f g') ∧ t.mem = s.mem ∧
        t.reg (okey 0x6050 1) = (s.bump (okey 0x6050 1) 1).reg (okey 0x6050 1)) ∧
    (c.passes ≠ vPass → Ends (.verdict q slot) s fun t =>
      t.cmd? q.val slot.toNat = some { c with worked := true } ∧ t.mem = s.mem ∧ t.dom = s.dom ∧
      (t.fixer f).applied = (s.fixer f).applied.filter (fun a => !decide (a.2.2 = dStep c.desc)) ∧ (t.fixer f).holds = [] ∧
      (t.fixer f).freezes = (s.fixer f).freezes)

/-- R327, R329, R330, R332, R338: a SAVE whose parts can be read, and whose writes are all acknowledged over a usable route, ends
with its slot complete at its step, CKPT_STATUS and the count showing it; any other ends with its slot incomplete, counted and
told. A SAVE that has no acknowledgement in time stops so. A waiting Fixer image takes over once the die has no Fixer command
admitted, and is entered in the measurement log. -/
def Obligations.SavesAndTheFixerImage : Prop :=
  (∀ (s : State) (q : Fin 128) (slot : BitVec 32) (acked : Bool) (c : Cmd) (sv : Save),
    s.running q.val slot.toNat opCheckpoint = some c → oCkFunc c.desc = 1 → (s.fixer (s.fixOf c)).save = some sv →
    let f := s.fixOf c
    let x := s.fixer f
    let tab (g : Nat) : Nat := ((SMap.get? sv.bound g).map BitVec.toNat).getD (s.group f g)
    let fault := (s.savedGroups x tab sv.slot sv.bound).2.2
    (fault = none → acked = true → s.routeUsable (kModule (s.ckptEntry f)) = true → sv.step < 2 ^ 32 →
      Ends (.checkpointSave q slot acked) s fun t => t.cmd? q.val slot.toNat = some { c with worked := true } ∧
        (t.fixer f).save = none ∧ (if sv.slot = 0 then (t.fixer f).slots.1 else (t.fixer f).slots.2) = some sv.step ∧
        (if sv.slot = 0 then (t.fixer f).slots.2 = x.slots.2 else (t.fixer f).slots.1 = x.slots.1) ∧
        t.domNat 0x6C1001 (16 * f) 4 = sv.step ∧ t.domNat 0x6C1001 (16 * f + 9) 1 = 1 ∧
        t.reg (okey 0x6C10 2) = (s.bump (okey 0x6C10 2) 1).reg (okey 0x6C10 2)) ∧
    ((acked = false ∨ s.routeUsable (kModule (s.ckptEntry f)) = false ∨ fault ≠ none) →
      Ends (.checkpointSave q slot acked) s fun t => t.cmd? q.val slot.toNat = some { c with worked := true } ∧ (t.fixer f).save = none ∧
        (if sv.slot = 0 then (t.fixer f).slots.1 else (t.fixer f).slots.2) = none ∧ t.domNat 0x6C1001 (16 * f + 9) 1 = 2 ∧
        t.reg (okey 0x6C10 3) = (s.bump (okey 0x6C10 3) 1).reg (okey 0x6C10 3))) ∧
  (∀ (s : State) (f : Fin 16), Ends (.ckptTimeout f) s fun t => match (s.fixer f.val).save with
    | none => t = s
    | some sv => (t.fixer f.val).save = none ∧
        (if sv.slot = 0 then (t.fixer f.val).slots.1 else (t.fixer f.val).slots.2) = none ∧
        t.reg (okey 0x6C10 3) = (s.bump (okey 0x6C10 3) 1).reg (okey 0x6C10 3) ∧ t.ports = s.ports ∧
        (∃ e ∈ t.events, e.code = 0x6C01 ∧ e.arg0 = BitVec.ofNat 32 f.val ∧ e.arg1 = BitVec.ofNat 32 sv.step) ∧
        ∀ c, s.cmd? sv.q sv.qslot = some c → t.cmd? sv.q sv.qslot = some { c with worked := true }) ∧
  (∀ (s : State) (f : Fin 16) (im : ImageCopy), (s.fixer f.val).newImage = some im →
    let busy := s.cmds.any fun c => decide (s.qDie c.q = .f f) && c.active && decide (c.phase ≠ .done) &&
      decide (dOpcode c.desc = opUpdate ∨ dOpcode c.desc = opCheckpoint ∨ dOpcode c.desc = opSheet)
    Ends (.fixerFirmwareSwitch f) s fun t =>
      if busy = true ∨ s.live (.f f) = false then t = s
      else { t with fix := s.fix, sec := s.sec } = s ∧ t.fixer f.val = { s.fixer f.val with newImage := none } ∧
        ∀ p, (im.parts.find? fun p => decide (p.1 = 4)) = some p →
          t.sec.log = s.sec.log ++ [(s.sec.log.length, unitOfDie (.f f), 4, im.version, p.2)])

/-- R328, R333, R334, R335: restoring. A RESTORE_GROUP whose slot and groups fit, and whose plates can be read and written,
copies its rows; where no slot is complete, the groups do not fit or work has begun, it is refused and its queue halts. The section of a
RESTORE_MODULE waits for the next boundary. A contact sheet whose plates can be read and written counts, shows its step and is
told. -/
def Obligations.RestoresAndContactSheets : Prop :=
  (∀ (s : State) (q : Fin 128) (slot : BitVec 32) (peer : List (Nat × Byte)) (c : Cmd),
    s.running q.val slot.toNat opCheckpoint = some c → oCkFunc c.desc = 2 →
    (s.step.worked = false → ∀ k tab u, peerSlot peer c.desc = some k → peerTable peer k (oSrcGroup c.desc) = .ok tab →
      restoreFits c.desc (tab (oSrcGroup c.desc)) (s.group (s.fixOf c) (oDstGroup c.desc)) = true →
      s.restoreRows c peer k tab = .ok u → Ends (.restoreGroup q slot peer) s fun t => t = u ∧ t.dom = s.dom ∧
        (∃ c', t.cmd? q.val slot.toNat = some c' ∧ c'.worked = true) ∧
        ∀ n, (oDstGroup c.desc, n) ∉ (t.fixer (s.fixOf c)).clean) ∧
    ((s.step.worked = true ∨ peerSlot peer c.desc = none ∨ ∃ k tab, peerSlot peer c.desc = some k ∧
        peerTable peer k (oSrcGroup c.desc) = .ok tab ∧
        restoreFits c.desc (tab (oSrcGroup c.desc)) (s.group (s.fixOf c) (oDstGroup c.desc)) = false) → Ends (.restoreGroup q slot peer) s fun t =>
      t.qState q.val = 2 ∧ t.qob q.val 9 = slot.toNat ∧ t.dom = s.dom)) ∧
  (∀ (s : State) (q : Fin 128) (slot : BitVec 32) (peer : List (Nat × Byte)) (c : Cmd) (k : Nat) (sec : List (Nat × Byte)),
    s.running q.val slot.toNat opCheckpoint = some c → oCkFunc c.desc = 3 → s.step.worked = false →
    peerSlot peer c.desc = some k → peerSection peer k = .ok sec → Ends (.restoreModule q slot peer) s fun t =>
      t.step = { s.step with restore := some sec } ∧ t.dom = s.dom ∧ t.mem = s.mem ∧ (c.bound = [] → t.regs = s.regs) ∧
      t.cmd? q.val slot.toNat = some { c with worked := true, made := 0, saved := [] }) ∧
  (∀ (s : State) (q : Fin 128) (slot : BitVec 32) (peer : List (Nat × Byte)) (c : Cmd) (tab : Nat → Nat) (u : SheetRun),
    let step := (if c.passes = 0 then (s.fixer (s.fixOf c)).slots.1 else (s.fixer (s.fixOf c)).slots.2).getD 0
    s.running q.val slot.toNat opSheet = some c →
    peerTable peer c.passes (oFirstGroup c.desc + oGroupCount c.desc - 1) = .ok tab → s.sheetRun c peer c.passes tab = .ok u →
    Ends (.contactSheet q slot peer) s fun t => t.mem = u.s.mem ∧ t.dom = s.dom ∧ t.fix = s.fix ∧ t.ob 0x6C20 2 = step ∧
      t.reg (okey 0x6C20 1) = (s.bump (okey 0x6C20 1) 1).reg (okey 0x6C20 1) ∧
      (∃ e ∈ t.events, e.code = 0x6C03 ∧ e.arg0 = BitVec.ofNat 32 (s.fixOf c) ∧ e.arg1 = BitVec.ofNat 32 step) ∧
      t.cmd? q.val slot.toNat = some { c with worked := true, made := 0, saved := [], posts := c.posts ++ u.posts })

/-! ### Drift links and their messages (chapter 12) -/

/-- R346, R348, R349, R350, R351: frames. A frame on a port out of service, or of another LINK_GEN, leaves everything as it was;
one that does not decode, or that is not the next one, is answered with NAK once; one with a plate that fails its check here is not
taken either, and is asked for again. An accepted one advances the expected number, frees what it acknowledges and adds its credits
before its slots are taken. A replay time-out sends again what is not
acknowledged, and the eighth in a row retrains; a gap between plates is answered with NAK. -/
def Obligations.FramesAreTakenInOrder : Prop :=
  let naks (s t : State) (p : Nat) : Prop := (t.port p).discarding = true ∧ t.regs = s.regs ∧ t.cmds = s.cmds ∧ t.mem = s.mem ∧
    t.out = (if (s.port p).discarding then s.out else s.out ++ [.nak p ((s.port p).rxNext - 1)]) ∧
    ∀ j, j ≠ p → t.port j = s.port j
  (∀ (s : State) (port : Fin 64) (rx : FrameRx),
    let p := port.val
    let x := s.port p
    let f := frameOfRx rx
    let good := f.decoded = true ∧ f.checkOk = true
    (s.portUp p = false ∨ (good ∧ f.linkGen ≠ x.linkGen) → Ends (.frameReceive port rx) s fun t => t = s) ∧
    (s.portUp p = true → (¬ good ∨ (f.linkGen = x.linkGen ∧ f.idle = false ∧ f.seq ≠ x.rxNext)) →
      Ends (.frameReceive port rx) s fun t => naks s t p) ∧
    (s.portUp p = true → good → f.linkGen = x.linkGen → f.idle = false → f.seq = x.rxNext → s.frameFaults p f ≠ [] →
      Ends (.frameReceive port rx) s fun t => { t.port p with discarding := x.discarding } = x ∧ (t.port p).discarding = true ∧
        t.cmds = s.cmds ∧ t.ctxs = s.ctxs ∧ t.mem = s.mem ∧ (∀ j, j ≠ p → t.port j = s.port j) ∧
        (x.discarding = false → .nak p (x.rxNext - 1) ∈ t.out)) ∧
    (s.portUp p = true → good → f.linkGen = x.linkGen → f.idle = true ∨ (f.seq = x.rxNext ∧ s.frameFaults p f = []) →
      f.swapReq = false → f.nak = false →
      Ends (.frameReceive port rx) s fun t => ∃ u : State, { u with ports := s.ports } = s ∧ (∀ j, j ≠ p → u.port j = s.port j) ∧
        t = (if f.idle then u else f.slots.foldl (fun v y => v.takeSlot p y) u) ∧
        (u.port p).rxNext = (if f.idle then x.rxNext else x.rxNext + 1) ∧
        (u.port p).creditReq = x.creditReq + f.creditReq.toNat ∧ (u.port p).creditRsp = x.creditRsp + f.creditRsp.toNat ∧
        let n := (f.ackSeq - x.ackSeq).toNat
        (0 < n → n ≤ x.unacked → (u.port p).ackSeq = f.ackSeq ∧ (u.port p).unacked = x.unacked - n ∧ (u.port p).replayRun = 0) ∧
        (n = 0 ∨ x.unacked < n → (u.port p).ackSeq = x.ackSeq ∧ (u.port p).unacked = x.unacked))) ∧
  (∀ (s : State) (port : Fin 64),
    let p := port.val
    let x := s.port p
    (s.portUp p = false ∨ x.unacked = 0 → Ends (.replayTimeout port) s fun t => t = s) ∧
    (s.portUp p = true → 0 < x.unacked → x.replayRun < 7 → Ends (.replayTimeout port) s fun t =>
      t.out = s.out ++ [.replay p (x.ackSeq + 1)] ∧ t.port p = { x with replayRun := x.replayRun + 1 } ∧
      t.regs = (s.bump (portObj p 0x46) x.unacked).regs ∧ ∀ j, j ≠ p → t.port j = s.port j) ∧
    (s.portUp p = true → 0 < x.unacked → 7 ≤ x.replayRun → Ends (.replayTimeout port) s fun t =>
      t.portState p = 4 ∧ (t.port p).unacked = 0 ∧ (t.port p).labels = [] ∧ (t.port p).opens = [])) ∧
  (∀ (s : State) (port : Fin 64), Ends (.plateGapTimeout port) s fun t =>
    if s.portUp port.val then naks s t port.val else t = s)

/-- R351, R353, R354, R355, R356, R414: links. Silence makes a port retrain, its link void; a retraining that succeeds within
three attempts brings the port up again with a new LINK_GEN and full credits, and one that does not holds it down. The end of
a qualification window gives the port its state by its failing lanes. A lane moves to the spare by request of either side;
REQUALIFY takes a port out of service; a peer that appears makes a port qualify, and one that does not train in time leaves it
without a peer. -/
def Obligations.LinksTrainSwapAndFall : Prop :=
  (∀ (s : State) (port : Fin 64),
    let p := port.val
    Ends (.linkSilence port) s fun t => if s.portUp p = false then t = s else
      t.portState p = 4 ∧ (t.port p).unacked = 0 ∧ (t.port p).labels = [] ∧ (t.port p).opens = [] ∧
      t.reg (portObj p 0x47) = (s.bump (portObj p 0x47) 1).reg (portObj p 0x47) ∧ ∃ v, Tells v t 0x5101 p 0) ∧
  (∀ (s : State) (port : Fin 64) (replays ok : Bool) (attempts : Nat),
    let p := port.val
    Ends (.retrain port replays attempts ok) s fun t =>
      if s.portUp p = false ∧ s.portState p ≠ 4 then t = s
      else if ok = true ∧ attempts ≤ 3 then
        t.portState p = s.servingState p ∧ (t.port p).linkGen = (s.port p).linkGen + 1 ∧ (t.port p).rxNext = 0 ∧
        (t.port p).txNext = 0 ∧ (t.port p).unacked = 0 ∧ (t.port p).creditReq = 3072 ∧ (t.port p).creditRsp = 1024 ∧
        ∃ v, Tells v t 0x5102 p (s.peerModule p)
      else t.portState p = 5 ∧ ∃ v, Tells v t 0x5104 p 1) ∧
  (∀ (s : State) (port : Fin 64) (failing : List (Fin 9)) (ratios : List (BitVec 32)) (peer : BitVec 12 × Fin 64),
    let p := port.val
    Ends (.qualification port failing ratios peer) s fun t =>
      s.portState p = 1 → s.fenced (portDie p) = false →
        t.peerModule p = peer.1.toNat ∧ p ∉ t.boot.training ∧
        if peer.1.toNat = s.moduleId then t.portState p = 5
        else match (failing.map Fin.val).eraseDups with
          | [] => t.portState p = 2 ∧ t.reg (portObj p 0x42) = 0x76543210 ∧ (t.port p).trained = true
          | [k] => t.portState p = 3 ∧ (t.port p).trained = true ∧
              if k = 8 then t.reg (portObj p 0x42) = 0x76543210 ∧ (t.port p).spareBad = true
              else bits (t.reg (portObj p 0x42)) (4 * k + 3) (4 * k) = 8
          | _ => t.portState p = 5) ∧
  (∀ (s : State) (port : Fin 64) (lane : Fin 8),
    let p := port.val
    let k := lane.val
    Ends (.swapReq port lane) s fun t =>
      if s.portState p ≠ 2 then t = s
      else if (s.port p).spareBad = true then t.portState p = 5
      else t.portState p = 3 ∧ bits (t.reg (portObj p 0x42)) (4 * k + 3) (4 * k) = 8 ∧
        ∃ v, Tells v t 0x5103 p (k * 16 + bits (s.reg (portObj p 0x42)) (4 * k + 3) (4 * k))) ∧
  (∀ (s : State) (m : Msg) (x : BitVec 16), WritesNow s m 0x5130 2 (leBytes 2 x.toNat) →
    let p := bits x.toNat 8 3
    let k := bits x.toNat 2 0
    WriteEnds (.laneSwap m x) s (aim m 0x5130 2 (leBytes 2 x.toNat)) fun u v =>
      (u.portState p = 2 → (u.port p).spareBad = false →
        v.portState p = 3 ∧ bits (v.reg (portObj p 0x42)) (4 * k + 3) (4 * k) = 8 ∧ .swapReq p k ∈ v.out) ∧
      (u.portState p = 3 ∨ (u.portState p = 2 ∧ (u.port p).spareBad = true) → v.portState p = 5) ∧
      (u.portUp p = false → v = u)) ∧
  (∀ (s : State) (m : Msg) (b : BitVec 8), WritesNow s m 0x5130 1 [b] → WriteEnds (.requalify m b) s (aim m 0x5130 1 [b]) fun u v =>
    if u.fenced (portDie b.toNat) then v = u
    else v.portState b.toNat = 1 ∧ (v.port b.toNat).trained = false ∧ (v.port b.toNat).labels = []) ∧
  (∀ (s : State) (port : Fin 64), Ends (.peerAppears port) s fun t =>
    if s.isReady = true ∧ s.portState port.val = 0 ∧ s.fenced (portDie port.val) = false then
      t.portState port.val = 1 ∧ (t.port port.val).cable = true ∧ ∀ k, k ≠ portKey port.val → t.reg k = s.reg k
    else t = s) ∧
  (∀ (s : State) (port : Fin 64), Ends (.peerTrainingTimeout port) s fun t =>
    if port.val ∈ s.boot.training then
      t.portState port.val = 0 ∧ t.boot.training = s.boot.training.filter (fun x => decide (x ≠ port.val))
    else t = s)

/-- R346, R347, R352, R358, R362, R193: READ_REQ and DATA. A read request for lines that stand in memory is answered with their
plates, one that meets an uncorrectable error or no page with REFUSE; what is for another module is sent on. A whole write
transfer whose plate passes its check puts it at its line, or adds it to the reduction line there, and is acknowledged; a stale plate
is counted and dropped. A rider reaches the step muster's root, or brings the combined rider. Nothing is taken through a port that is
down. -/
def Obligations.ReadRequestsAndData : Prop :=
  let sent (t : State) (r type : Nat) (msg : DriftMsg) (plates : List Bytes) (rider : Option Rider) : Prop :=
    ∃ label, t.out.getLast? = some (.drift r type { msg with label := label } plates rider)
  (∀ (s : State) (port : Fin 64) (m : DriftMsg) (plates : List (Fin 8 × Bytes)) (rider : Option Rider), s.portUp port.val = false →
    (Ends (.readReq port m) s fun t => t = s) ∧ (Ends (.data port m plates rider) s fun t => t = s)) ∧
  (∀ (s : State) (port : Fin 64) (m : DriftMsg) (r : Nat), s.portUp port.val = true → m.dest.toNat = s.moduleId →
    s.routePort m.src.toNat m.requestId.toNat s.moduleId = some r →
    ((∀ a ∈ msgLines m, s.access a false = .served) → (msgLines m).find? s.lineBad = none →
      Ends (.readReq port m) s fun t => (∃ u, Corrected s u ∧ { t with ports := s.ports, out := s.out } = u) ∧
        sent t r 2 (mkMsg m.src.toNat s.moduleId m.countM1.toNat 1 0 m.requestId.toNat 0 0)
          ((msgLines m).map fun a => match s.physLine a with
            | some pl => (s.plateAt pl).bytes
            | none => []) none) ∧
    (∀ a, (∀ a ∈ msgLines m, s.access a false = .served) → (msgLines m).find? s.lineBad = some a →
      Ends (.readReq port m) s fun t => t.mem = s.mem ∧
        sent t r 4 (mkMsg m.src.toNat s.moduleId 0 1 0 m.requestId.toNat 0 0) [] none) ∧
    (s.access m.address.toNat false = .noBacking → Ends (.readReq port m) s fun t => t.mem = s.mem ∧ t.regs = s.regs ∧
      sent t r 4 (mkMsg m.src.toNat s.moduleId 0 0 0 m.requestId.toNat 0 0) [] none)) ∧
  (∀ (s : State) (port : Fin 64) (m : DriftMsg) (r : Nat), s.portUp port.val = true → m.dest.toNat ≠ s.moduleId →
    s.routePort m.dest.toNat m.requestId.toNat m.src.toNat = some r →
    (Ends (.readReq port m) s fun t => t.mem = s.mem ∧ t.regs = s.regs ∧ sent t r 1 m [] none) ∧
    ∀ rider, m.kind = 2 → Ends (.data port m [] rider) s fun t => t.step = s.step ∧ sent t r 2 m [] rider) ∧
  (∀ (s : State) (port : Fin 64) (m : DriftMsg) (b : Bytes) (r : Nat), s.portUp port.val = true → m.dest.toNat = s.moduleId →
    s.routePort m.src.toNat m.requestId.toNat s.moduleId = some r → m.kind = 0 → m.countM1 = 0 → 0 < m.label.toNat →
    m.label.toNat < 2047 → s.arrivalFault m 0 b = none →
    let a := m.address.toNat
    let pl := Plate.ofBytes b 0
    let ack := mkMsg m.src.toNat s.moduleId 0 0 0 m.requestId.toNat 0 0
    (∀ q, s.stale pl = false → s.reduceAt a = none → s.access a true = .served → s.physLine a = some q →
      Ends (.data port m [(0, b)] none) s fun t => t.mem = (s.putPlate q pl).mem ∧ t.regs = s.regs ∧ t.cmds = s.cmds ∧
        sent t r 3 ack [] none) ∧
    (∀ d k, s.stale pl = false → s.reduceAt a = some (d, k) → s.fenced (Die.ofIx (32 + d)) = false →
      s.failedUnits (Die.ofIx (32 + d)) 5 = [] →
      Ends (.data port m [(0, b)] none) s fun t => ∃ u : State, { u with ports := s.ports } = s ∧
        t = ((u.reduceAdd d k a pl).tellEpoch false (s.epochHit [(a, pl)])).answer 3 0 m []) ∧
    (s.stale pl = true → Ends (.data port m [(0, b)] none) s fun t => t.mem = s.mem ∧ t.out = s.out ∧
      t.reg (okey 0x5120 5) = (s.bump (okey 0x5120 5) 1).reg (okey 0x5120 5))) ∧
  (∀ (s : State) (port : Fin 64) (m : DriftMsg) (rider : Rider) (r : Nat), s.portUp port.val = true →
    m.dest.toNat = s.moduleId → m.kind = 2 → s.routePort m.src.toNat m.requestId.toNat s.moduleId = some r →
    Ends (.data port m [] (some rider)) s fun t => t.mem = s.mem ∧ t.regs = s.regs ∧
      sent t r 3 (mkMsg m.src.toNat s.moduleId 0 0 0 m.requestId.toNat 0 0) [] none ∧
      if mRoot (s.mEntry m.muster.toNat) = s.moduleId then (m.src.toNat, rider) ∈ t.step.others ∧ t.step.combined = s.step.combined
      else t.step = { s.step with combined := some rider })

/-- R91, R93, R249, R251, R332, R347: ACK, REFUSE, MUSTER_PART and MUSTER_RELEASE for this module. An acknowledged plate gives back
its tag, whose reuse count moves on; a message of another reuse count is discarded. A refusal halts its stream by its KIND, and stops
the SAVE it names. A part
joins its round at the root, which is complete with the last one; a release opens the next round at once, or notes that it
opens at the boundary when it is due. -/
def Obligations.AcknowledgementsAndMusterMessages : Prop :=
  (∀ (s : State) (m : DriftMsg), m.dest.toNat = s.moduleId → bits m.requestId.toNat 31 29 = 1 →
    (s.tagOf m.requestId.toNat = none → (Ends (.ack m) s fun t => t = s) ∧ Ends (.refuse m) s fun t => t = s) ∧
    ∀ (e n k addr : Nat) (write : Bool) (port : Option Nat) (c : Cmd),
      s.tagOf m.requestId.toNat = some (e, n, ⟨k, addr, write, true, port⟩) → s.userOf k = some c →
      (write = true → Ends (.ack m) s fun t => (t.rtag e n).reuse = (s.rtag e n).reuse + 1 ∧
        t.cmd? c.q c.slot = some { c with unacked := c.unacked - 1 } ∧
        (∀ x y, ¬ (x = c.q ∧ y = c.slot) → t.cmd? x y = s.cmd? x y) ∧ t.ctxs = s.ctxs ∧ t.mem = s.mem) ∧
      (c.phase ≠ .done → Ends (.refuse m) s fun t =>
        (t.ctx k).state = .halted ∧ (t.rtag e n).reuse = (s.rtag e n).reuse + 1 ∧ t.mem = s.mem ∧
        (match m.kind.toNat with
          | 0 => Cause.translation ∈ (t.ctx k).causes ∧
              ∃ x ∈ t.events, x.code = 0x4101 ∧ x.arg0 = BitVec.ofNat 32 k ∧ x.arg1 = BitVec.ofNat 32 (addrHi addr)
          | 1 => Cause.memory ∈ (t.ctx k).causes ∧ bit t.step.causes 5 = true
          | _ => Cause.link ∈ (t.ctx k).causes ∧
              ∃ x ∈ t.events, x.code = 0x4104 ∧ x.arg0 = BitVec.ofNat 32 k ∧ x.arg1 = BitVec.ofNat 32 (cModule (s.ctx k).desc)) ∧
        ∃ c', t.cmd? c.q c.slot = some c' ∧ c'.desc = c.desc ∧ c'.phase = (if m.kind.toNat = 1 then .done else .halted))) ∧
  (∀ (s : State) (m : DriftMsg), m.dest.toNat = s.moduleId → bits m.requestId.toNat 31 29 = 3 →
    let f := bits m.requestId.toNat 28 24 % 16
    ∀ sv, (s.fixer f).save = some sv → Ends (.refuse m) s fun t => (t.fixer f).save = none ∧
      t.reg (okey 0x6C10 3) = (s.bump (okey 0x6C10 3) 1).reg (okey 0x6C10 3)) ∧
  (∀ (s : State) (m : DriftMsg) (now : Nat),
    let mu := m.muster.toNat
    let e := s.mEntry mu
    let x := s.mst mu
    m.dest.toNat = s.moduleId → mEnabled e = true → mRoot e = s.moduleId → x.round = m.round.toNat → x.complete = none →
    s.jobRuns = true → mImmediate e = false → memN m.src.toNat x.parts = false →
    Ends (.musterPart m now) s fun t => (t.mst mu).parts = m.src.toNat :: x.parts ∧ (t.mst mu).round = x.round ∧
      (t.mst mu).complete = (if mPod e ≤ x.parts.length + 1 then some now else none) ∧
      (∀ j, j ≠ mu → t.mst j = s.mst j) ∧ t.regs = s.regs ∧ t.tick = { s.tick with now := now }) ∧
  (∀ (s : State) (m : DriftMsg),
    let mu := m.muster.toNat
    let e := s.mEntry mu
    let x := s.mst mu
    m.dest.toNat = s.moduleId →
    (mEnabled e = true → mRoot e ≠ s.moduleId → x.round = m.round.toNat → x.partDone = true → s.jobRuns = true →
      (mImmediate e = false → Ends (.musterRelease m) s fun t =>
        t = s.setMst mu { x with complete := some s.tick.now, released := true }) ∧
      (mImmediate e = true → s.isStep mu = false → x.held = [] → 0 < mExpected e → Ends (.musterRelease m) s fun t =>
        t.mst mu = { x with round := (x.round + 1) % 65536, count := 0, partDone := false, parts := [], complete := none
                            released := false, timedOut := false, firstTick := none } ∧
        ∀ j, j ≠ mu → t.mst j = s.mst j)) ∧
    (x.round ≠ m.round.toNat → (Ends (.musterRelease m) s fun t => t = s) ∧
      (mRoot e = s.moduleId → ∀ now, Ends (.musterPart m now) s fun t => t = s)))

/-! ### The host port, the Iltur segment, clocks and the tick (chapters 02, 03, 12 and 13) -/

/-- R49, R366, R367, R368, R369, R370, R415: the host port and its protocols. A link that goes down takes the port back to its
reset values, counted and told; power states and BAR2 sizes are taken while the link is up; a link that trains shows its rate
and width and signals the vectors that were pending. Each request of the DOE mailbox and of the segment's ICMPv6 is answered
once. -/
def Obligations.HostPortAndItsProtocols : Prop :=
  (∀ (s : State) (surprise : Bool), Ends (.hostReset surprise) s fun t => if s.hostUp = false then t = s else
    t.hostUp = false ∧ t.dict.mbBusy = false ∧ t.dict.mbServed = none ∧ t.host.d3hot = false ∧ t.host.negotiated = false ∧
    t.host.bar2 = 8 ∧ t.mem = s.mem ∧ t.cmds = s.cmds ∧
    t.reg (okey 0x5140 3) = (s.bump (okey 0x5140 3) 1).reg (okey 0x5140 3) ∧ ∃ v, Tells v t 0x510A (b2n surprise) 0) ∧
  (∀ (s : State) (d3 : Bool), Ends (.powerStateChange d3) s fun t =>
    t = if s.hostUp then { s with host := { s.host with d3hot := d3 } } else s) ∧
  (∀ (s : State) (n : Fin 11), Ends (.bar2Resize n) s fun t =>
    if s.hostUp then t = { s with host := { s.host with bar2 := n.val, resized := true } } ∧
      t.apertureBase % (t.barSize / 2) = 0 ∧ t.barSize = 2 ^ n.val * 2 ^ 30
    else t = s) ∧
  (∀ (s : State) (rate : Fin 7) (width : Fin 32) (flit : Bool), Ends (.hostLinkUp rate width flit) s fun t =>
    if s.boot.step = 11 ∧ s.serves = true ∧ s.hostUp = false ∧ rate.val ≠ 0 ∧ s.fenced (.d 0) = false ∧ s.host.lost = false then
      t.ob 0x5140 2 = rate.val * 4096 + width.val * 16 + b2n flit ∧ t.hostUp = true ∧ t.host.masked = false ∧
      t.host.pendingBits = [] ∧ (∀ v ∈ s.host.pendingBits, .msix v ∈ t.out) ∧
      ∀ k, k ≠ okey 0x5140 2 → t.reg k = s.reg k
    else t = s) ∧
  (∀ (s : State) (req : Bytes) (offset len : Nat) (pss hash : Bool), s.hostUp = true → s.serves = true →
    let chain := s.domBytes 0x800005 0 (s.reg 0x800005)
    let put (n : Nat) (b : Bytes) : State := s.send (.protocol n (Config.protocolAnswer n (req ++ b)))
    let ok (b : Bytes) : Bytes := if s.host.negotiated then b else []
    (Ends (.doeDiscovery req) s fun t => t = put 2 []) ∧
    (Ends (.getVersion req) s fun t => t = { put 3 [] with host := { s.host with negotiated := false } }) ∧
    (Ends (.getCapabilities req) s fun t => t = put 4 []) ∧
    (Ends (.negotiateAlgorithms req pss hash) s fun t => t.host.negotiated = (pss && hash) ∧
      { t with host := s.host } = put 5 [if pss && hash then 1 else 0]) ∧
    (Ends (.getDigests req) s fun t => t = put 6 (ok (Config.sha512 chain))) ∧
    (Ends (.getCertificate req offset len) s fun t => t = put 7 (ok ((chain.drop offset).take len))) ∧
    (Ends (.challenge req) s fun t => t = put 8 (ok (Config.rsaSign (s.signKey.getD []) (Config.sha512 req)))) ∧
    (Ends (.getMeasurements req) s fun t => t = put 9 (ok (s.sec.log.flatMap logBytes)))) ∧
  (∀ (s : State) (target : BitVec 128) (req : Bytes),
    (Ends (.neighbourSolicitation target req) s fun t => t = if s.serves = true ∧ target = linkLocal s.fuse.eui48 then
      s.send (.protocol 0 (Config.protocolAnswer 0 req)) else s) ∧
    (Ends (.echoRequest req) s fun t => t = if s.serves then s.send (.protocol 1 (Config.protocolAnswer 1 req)) else s))

/-- R373, R374, R375, R377, R379, R380: the clocks. Taking the recovered reference sets every switching domain waiting, and adds 512
to the time base; losing it counts, tells and switches back what runs from it. A domain switches once, and with the last one
CLOCK_STATE shows the source. -/
def Obligations.ClocksSwitchByDomain : Prop :=
  (∀ (s : State) (m : Msg) (steady : Bool) (o : Obj),
    Writes s { s.plainEnv with steady := steady } (aim m 0x5800 3 [1]) o → o.acc ≠ .rwt →
    WriteEnds (.clockSelectRecovered m steady) s (aim m 0x5800 3 [1]) fun u v =>
      if u.ob 0x5810 1 = 1 then v = u
      else v.ob 0x5800 3 = 1 ∧ v.ob 0x5810 1 = (if u.switching = [] then 1 else 2) ∧
        v.clk = { u.clk with waiting := u.switching, toRecovered := true, phaseAdds := u.clk.phaseAdds + 512 }) ∧
  (∀ (s : State) (cause : Fin 3) (ppm : BitVec 32), Ends (.referenceLoss cause ppm) s fun t =>
    let st := s.ob 0x5810 1
    if ¬ (st = 1 ∨ (st = 2 ∧ s.clk.toRecovered = true)) ∨ (cause.val = 0 ∧ s.portUp (s.ob 0x5800 1) = true) then t = s
    else t.ob 0x5810 2 = ppmF32 ppm ∧ t.reg (okey 0x5810 3) = (s.bump (okey 0x5810 3) 1).reg (okey 0x5810 3) ∧
      t.ob 0x5800 3 = 0 ∧ t.ob 0x5810 1 = (if s.clk.onRecovered = [] then 0 else 2) ∧
      t.clk = { s.clk with waiting := s.clk.onRecovered, toRecovered := false, phaseAdds := s.clk.phaseAdds + 512 } ∧
      ∃ e ∈ t.events, e.code = 0x5801 ∧ e.arg0 = BitVec.ofNat 32 cause.val ∧ e.arg1 = ppm) ∧
  (∀ (s : State) (die : Die) (dom : ClockDomain), Ends (.domainSwitch die dom) s fun t =>
    let k := (die.ix, dom)
    if k ∉ s.clk.waiting then t = s
    else k ∉ t.clk.waiting ∧ (∀ j, j ≠ k → (j ∈ t.clk.waiting ↔ j ∈ s.clk.waiting)) ∧
      (k ∈ t.clk.onRecovered ↔ s.clk.toRecovered = true) ∧
      (dom = .array → t.reg (okey 0x5810 4) = (s.bump (okey 0x5810 4) 512).reg (okey 0x5810 4)) ∧
      (t.clk.waiting = [] → s.ob 0x5810 1 = 2 → t.ob 0x5810 1 = b2n s.clk.toRecovered))

/-- R68, R70, R71, R72, R73, R361: the edges that steer the generator. An edge of the source that is followed corrects the next
boundary by at most 100 ns; one that is more than 500 ns off, or comes in holdover, is counted; while acquiring, the first
edge half a period past b0 places the boundary 1,200 ns after it. The third expected edge missed in a row, or three periods of
acquisition without one, begins holdover. -/
def Obligations.EdgesSteerTheTick : Prop :=
  let steered (s t : State) (since offset : Int) : Prop :=
    match s.tick.acquiring with
    | some n =>
      if s.tick.placed = none ∧ (s.periodNs : Int) ≤ 2 * (n * s.periodNs + since) then
        let at' : Int := if (s.periodNs : Int) ≤ since + 1200 then since + 1200 else since + 1200 + s.periodNs
        t = { s with tick := { s.tick with placed := some at'.toNat } }
      else t = s
    | none =>
      if s.ob 0x5000 7 = 0 then t = s
      else if s.ob 0x5000 7 = 3 ∨ offset < -500 ∨ 500 < offset then t = s.bump (okey 0x5000 9) 1
      else { t with tick := s.tick } = s ∧ t.tick = { s.tick with correction := t.tick.correction, missRun := 0
                                                                  measured := ((s.periodNs : Int) + offset).toNat } ∧
        -100 ≤ t.tick.correction ∧ t.tick.correction ≤ 100 ∧
        (-100 ≤ offset → offset ≤ 100 → t.tick.correction = offset)
  (∀ (s : State) (since : Nat) (offset : Int), Ends (.tickEdge since offset) s fun t =>
    if s.serves = true ∧ s.ob 0x5000 1 = 1 then steered s t since offset else t = s) ∧
  (∀ (s : State) (port : Fin 64) (lane : Fin 8) (since : Nat) (arrivalPs : Int) (control : BitVec 20),
    let off : Int := bits control.toNat 6 1
    Ends (.tickMarker port lane since arrivalPs control) s fun t =>
      if s.serves = true ∧ s.ob 0x5000 1 = 2 ∧ s.ob 0x5000 3 = port.val ∧ s.ob 0x5000 4 = lane.val ∧
          bit control.toNat 7 = true ∧ bits control.toNat 19 16 = lane.val then
        steered s t (since + ((0 - off * 12850 / 64) / 1000 - s.ob 0x5100 2))
          ((arrivalPs - off * 12850 / 64) / 1000 - s.ob 0x5100 2)
      else t = s) ∧
  (∀ s : State, s.serves = true → Ends .edgeMissed s fun t =>
    let gone := t.ob 0x5000 7 = 3 ∧ t.tick.acquiring = none ∧ ∃ v, Tells v t 0x5001 (s.ob 0x5000 1) (t.ob 0x5000 8)
    match s.tick.acquiring with
    | some n => if 3 ≤ n ∧ s.tick.placed = none then gone else t = s
    | none =>
      if s.ob 0x5000 7 ≠ 1 ∧ s.ob 0x5000 7 ≠ 2 then t = s
      else t.reg (okey 0x5000 8) = (s.bump (okey 0x5000 8) 1).reg (okey 0x5000 8) ∧
        if 2 ≤ s.tick.missRun then gone else t.tick = { s.tick with missRun := s.tick.missRun + 1 })

/-- R38, R45, R55, R60, R68, R76, R336: a boundary. The tick's number increments, every accepted write takes effect and none waits, a
handover ends, and every subscription of the segment that is due is published. A job starts or ends as it was written; a die that
is to be fenced is fenced; the second heartbeat missed in a row makes a die lost. -/
def Obligations.BoundariesTakeWhatWaits : Prop :=
  (∀ (s : State) (env : TickEnv), s.serves = false → Ends (.tickBoundary env) s fun t => t = s) ∧
  (∀ (s : State) (env : TickEnv), s.serves = true → Ends (.tickBoundary env) s fun t =>
    t.dict.rwt = [] ∧ t.dict.handover = false ∧
    ((∀ w ∈ s.dict.rwt, w.key ≠ okey 0x5000 6) → t.tickNo = (s.tickNo + 1) % 2 ^ 64) ∧
    (∀ x ∈ t.dict.subs, x.path ≠ .mailbox → 0 < x.period → t.tickNo % x.period = 0 → (∀ y ∈ t.dict.subs, y.path = x.path → y = x) →
      ∃ payload, Out.publish x.path (t.tickNo % 2 ^ 32) payload (publishWire t.tickNo payload) ∈ t.out ∧
        (env.unsent = [] → payload = t.published x)) ∧
    (∀ b it, s.dict.rwt = [⟨okey 0x7002 1, [b], it⟩] → b = 1 → t.jobRuns = true) ∧
    (∀ b it, s.dict.rwt = [⟨okey 0x7002 1, [b], it⟩] → b = 0 → t.jobRuns = false) ∧
    (∀ k ∈ [okey 0x3110 1, okey 0x3110 2, okey 0x6000 1, okey 0x6C00 2, okey 0x5800 4, okey 0x5800 5, okey 0x9110 2,
        okey 0x9110 3, okey 0x9110 4], ∀ v it, s.dict.rwt = [⟨k, v, it⟩] → t.reg k = leNat v) ∧
    (env.oscFail = none → s.dict.rwt = [] → s.num.readmits = [] → 8 ≤ s.boot.step → ∀ f ∈ s.num.fences, t.fenced f.1 = true) ∧
    (env.oscFail = none → ∀ d ∈ env.silent, s.live d = true → s.managersHalted d = false → SMap.get 0 s.tick.missing d.ix = 1 →
      d ∈ t.tick.lost))

/-! ### Power and temperature (chapter 14) -/

/-- R381, R384, R385, R386: voltage alerts and the cap. Below 45.0 V the cap is halved at once and told; from 46.0 V on the
alert ends and the cap is restored at the next boundary. Above 57.0 V SB1 tells, until 56.5 V. A silence past its bound makes
the safe state due; ten ticks over the cap are told once. Every row changes nothing else. -/
def Obligations.VoltageAlertsAndTheCap : Prop :=
  (∀ (s : State) (mv : Nat), mv ≤ 60000 →
    (Ends (.undervoltageHalving mv) s fun t =>
      if s.serves = true ∧ mv < 45000 ∧ (s.halved = false ∨ s.pwr.uvCleared = true) then
        t.halved = true ∧ t.safe = s.safe ∧ t.overvoltage = s.overvoltage ∧ t.ob 0x2000 4 = t.cap ∧ t.alert = true ∧
        t.pwr = { s.pwr with uvCleared := false } ∧ ∃ v, Tells v t 0x2003 mv 0
      else t = s) ∧
    (Ends (.undervoltageClear mv) s fun t =>
      if s.serves = false ∨ mv < 46000 then t = s
      else t.boot.causes = s.boot.causes.filter (fun c => decide (c ≠ 2)) ∧ t.halved = s.halved ∧
        if s.halved = true ∧ s.pwr.uvCleared = false then t.pwr = { s.pwr with uvCleared := true } ∧ ∃ v, Tells v t 0x2003 mv 1
        else t = s.dropCause 2) ∧
    (Ends (.overvoltageAlert mv) s fun t =>
      if s.serves = true ∧ 57000 < mv ∧ s.overvoltage = false then
        t.overvoltage = true ∧ t.halved = s.halved ∧ t.safe = s.safe ∧ t.alert = true ∧ ∃ v, Tells v t 0x200B mv 0
      else t = s) ∧
    (Ends (.overvoltageClear mv) s fun t =>
      if s.serves = false ∨ 56500 < mv then t = s
      else t.overvoltage = false ∧ t.halved = s.halved ∧ t.safe = s.safe ∧
        t.boot.causes = s.boot.causes.filter (fun c => decide (c ≠ 3)) ∧
        (s.overvoltage = true → ∃ v, Tells v t 0x200B mv 1))) ∧
  (∀ s : State, Ends .capSafe s fun t =>
    t = if s.serves = true ∧ s.ob 0x2000 3 ≠ 0 ∧ s.ob 0x2000 3 < s.ob 0x1100 6 + (s.ob 0x5000 2 + 999) / 1000 ∧ s.safe = false then
      { s with pwr := { s.pwr with safeDue := true } } else s) ∧
  (∀ (s : State) (w : Nat), Ends (.capExceeded w) s fun t =>
    if s.serves = true ∧ 10 ≤ s.pwr.overRun ∧ s.pwr.exceededTold = false then
      Tells { s with pwr := { s.pwr with exceededTold := true } } t 0x200A (s.ob 0x2000 4) w
    else t = s)

/-- R390, R391, R392, R393, R395, R396, R470: a die's power and heat. The fast loop never lets issue rise above what its allocation
allows, its slope, its slot and the junction limit, and lets current fall by at most twice the slope. Trust is lost and regained by the counts of its error. A die whose power
stages are silent is to be fenced. A thermal step goes up with what is measured, and down one at a time; at the junction limit
issue is held to a quarter and SB1 tells. A sensor that disagrees is set aside; a warm inlet is told once. -/
def Obligations.GatingTrustAndTemperature : Prop :=
  (∀ (s : State) (die : Fin 32) (activity : Nat) (w : BitVec 32) (wants : Bool) (now : Nat),
    let d := die.val
    Ends (.gatingLoop die activity w wants now) s fun t => if s.live (.t die) = false then t = s else
      { t with pwr := { t.pwr with gate := s.pwr.gate, floor := s.pwr.floor, idleFor := s.pwr.idleFor } } = s ∧
      (∀ j, j ≠ d → SMap.get? t.pwr.gate j = SMap.get? s.pwr.gate j ∧ SMap.get? t.pwr.floor j = SMap.get? s.pwr.floor j) ∧
      SMap.get? t.pwr.floor d = some (activity - 2 * s.ob 0x2010 1 * 2 ^ 20 / 10000) ∧
      ∃ g, SMap.get? t.pwr.gate d = some g ∧ g ≤ s.allowed d activity w ∧ g ≤ activity + s.ob 0x2010 1 * 2 ^ 20 / 10000 ∧
        g ≤ 2 ^ 20 ∧ (memN d s.pwr.junction = true → g ≤ 2 ^ 18) ∧
        (wants = true → s.ob 0x2010 2 = 1 → 4 ≤ SMap.get 0 s.pwr.idleFor d →
          (now % 16000 < 500 * d ∨ 500 * d + 500 ≤ now % 16000) → g ≤ activity)) ∧
  (∀ (s : State) (die : Fin 32) (tenths : Nat),
    let k := dkeyOf (.t die) 0x20 6
    (Ends (.estimatorDistrusted die tenths) s fun t =>
      if s.live (.t die) = true ∧ s.distrusted die.val = false ∧
          (s.ob 0x2020 2 ≤ SMap.get 0 s.pwr.large die.val ∨ s.gainAtLimit die.val = true) then
        t.distrusted die.val = true ∧ (∀ j, j ≠ k → ¬ eventKey j → t.reg j = s.reg j) ∧
        ∃ v, Tells v t 0x2005 (unitOfDie (.t die)).toNat tenths
      else t = s) ∧
    (Ends (.estimatorTrusted die) s fun t =>
      if s.live (.t die) = true ∧ s.distrusted die.val = true ∧ 64 ≤ SMap.get 0 s.pwr.small die.val ∧
          s.gainAtLimit die.val = false then
        t.distrusted die.val = false ∧ (∀ j, j ≠ k → ¬ eventKey j → t.reg j = s.reg j) ∧
        ∃ v, Tells v t 0x2006 (unitOfDie (.t die)).toNat 0
      else t = s) ∧
    (Ends (.powerStageSilent die) s fun t =>
      if s.live (.t die) = true ∧ memN (unitOfDie (.t die)).toNat (s.num.unitFails.map BitVec.toNat) = false then
        unitOfDie (.t die) ∈ t.num.unitFails ∧ (∃ lost, (Die.t die, lost) ∈ t.num.fences) ∧ t.regs = s.regs ∧
        ∃ e, t.num.append = s.num.append ++ [e] ∧ entryUnit e = unitOfDie (.t die)
      else t = s)) ∧
  (∀ (s : State) (die : Die) (tenths stack : Int),
    let k := dkeyOf die 0x20 7
    let want := if die.kind = 1 then entryStep tenths stack else if 1000 ≤ tenths then 4 else 0
    Ends (.thermalStepUp die tenths stack) s fun t =>
      if s.live die = true ∧ (if die.kind = 1 then s.reg k < want else want = 4 ∧ s.reg k ≠ 4) then
        t.reg k = want ∧ (∀ j, j ≠ k → ¬ eventKey j → t.reg j = s.reg j) ∧
        ∃ v, Tells v t 0x2007 (unitOfDie die).toNat (want * 256 + degrees tenths)
      else t = s) ∧
  (∀ (s : State) (die : Fin 32) (tenths stack : Int),
    let k := dkeyOf (.t die) 0x20 7
    let n := s.reg k
    Ends (.thermalStepDown die tenths stack) s fun t =>
      if s.live (.t die) = true ∧ 0 < n ∧ belowStep n tenths stack = true ∧ 100 ≤ SMap.get 0 s.pwr.below die.val ∧
          ¬ (n = 2 ∧ 4 < s.asideTemps (.t die)) then
        t.reg k = n - 1 ∧ (∀ j, j ≠ k → ¬ eventKey j → t.reg j = s.reg j) ∧
        ∃ v, Tells v t 0x2007 (unitOfDie (.t die)).toNat ((n - 1) * 256 + degrees tenths)
      else t = s) ∧
  (∀ (s : State) (die : Die) (tenths : Int),
    (Ends (.junctionLimit die tenths) s fun t =>
      if s.live die = true ∧ 1050 ≤ tenths ∧ memN die.ix s.pwr.junction = false then
        { t with pwr := { t.pwr with junction := s.pwr.junction, gate := s.pwr.gate } } = s ∧ die.ix ∈ t.pwr.junction ∧
        t.alert = true ∧ (die.kind = 1 → ∃ g, SMap.get? t.pwr.gate die.ix = some g ∧ g ≤ 2 ^ 18)
      else t = s) ∧
    (Ends (.junctionLimitClear die tenths) s fun t =>
      if 1030 ≤ tenths then t = s
      else t.pwr.junction = s.pwr.junction.filter (fun x => decide (x ≠ die.ix)) ∧
        t.boot.causes = s.boot.causes.filter (fun x => decide (x ≠ 4)) ∧ t.regs = s.regs ∧ t.pwr.gate = s.pwr.gate)) ∧
  (∀ (s : State) (die : Die) (voltage : Bool) (i : Fin 24),
    let k := dkeyOf die 0x26 1
    let b := if voltage then 24 + i.val else i.val
    Ends (.sensorImplausible die voltage i) s fun t =>
      if s.live die = true ∧ i.val < (if voltage then (sensorCounts die).2.1 else (sensorCounts die).1) ∧ bit (s.reg k) b = false then
        t.reg k = setBits (s.reg k) b b 1 ∧ t.mem = s.mem ∧
        (die.kind = 1 → 4 < t.asideTemps die → 2 ≤ t.reg (dkeyOf die 0x20 7))
      else t = s) ∧
  (∀ (s : State) (tenths : Int), Ends (.coolantInlet tenths) s fun t =>
    if s.serves = true ∧ 450 < tenths ∧ s.pwr.coolant = false then
      t.alert = true ∧ Tells { s with pwr := { s.pwr with coolant := true } } t 0x200C (tenths.toNat % 2 ^ 32) 0
    else t = s)

/-- R381, R382, R383, R405, R435: stops, and the loss of power. A cause of R382 that holds in Ready stops the module: its job and
all work end, power goes, and what stood in memory is lost; before Ready it stops bring-up with its code; a further cause
changes only the causes that hold. A request over the dictionary is cause 6; a restart takes bring-up up at step 4. A tamper
wipes the sealed banks and closes the sessions besides. Reset and removed power bring the module back to its start, fuses and
what non-volatile devices hold standing. -/
def Obligations.StopsAndTheLossOfPower : Prop :=
  let dark (t : State) : Prop := t.cmds = [] ∧ t.jobRuns = false ∧ t.page.small = [] ∧ t.page.large = [] ∧
    t.boot.powered = [] ∧ t.boot.admitted = [] ∧ ∀ a, a < hostAt 0 → Mem.read t.mem a = 0
  let idle (s : State) : Prop := s.boot.aux = true ∧ s.boot.resetHeld = false
  (∀ (s : State) (cause : Fin 7) (mv : Nat), mv ≤ 60000 → idle s →
    cause.val ≠ 0 → (cause.val = 2 → mv < 42000) → (cause.val = 3 → 58500 < mv) →
    (s.boot.estop = true ∨ s.boot.stopped = true ∨ s.boot.tamperHold = true → Ends (.emergencyStop cause mv) s fun t =>
      t.regs = s.regs ∧ t.mem = s.mem ∧ t.cmds = s.cmds ∧ (cause.val ≠ 6 → memN cause.val t.boot.causes = true)) ∧
    (s.boot.estop = false → s.boot.stopped = false → s.boot.tamperHold = false →
      Ends (.emergencyStop cause mv) s fun t => dark t ∧ t.ob 0x2010 4 = cause.val ∧ bit (t.ob 0x2000 5) 3 = true ∧
        if s.boot.step = 11 then t.boot.estop = true ∧ t.boot.stopped = false
        else t.boot.stopped = true ∧ t.boot.estop = false ∧ t.ob 0x1200 1 = 0x8F ∧
          t.ob 0x1200 2 = s.boot.step * 2 ^ 24 + 0x8F * 2 ^ 16 + cause.val)) ∧
  (∀ (s : State) (cause : Fin 7) (mv : Nat), mv ≤ 60000 →
    cause.val = 0 ∨ (cause.val = 2 ∧ 42000 ≤ mv) ∨ (cause.val = 3 ∧ mv ≤ 58500) ∨
      (2 ≤ cause.val ∧ (s.boot.aux = false ∨ s.boot.resetHeld = true)) →
    Ends (.emergencyStop cause mv) s fun t => t = s) ∧
  (∀ (s : State) (m : Msg) (mv : Nat), mv ≤ 60000 → WritesNow s m 0x2010 5 [1] → idle s → s.boot.step = 11 →
    s.boot.estop = false → s.boot.stopped = false → s.boot.tamperHold = false →
    Ends (.estopRequest m mv) s fun t => dark t ∧ t.ob 0x2010 4 = 6 ∧ t.boot.estop = true) ∧
  (∀ (s : State) (m : Msg), WritesNow s m 0x2010 3 [1] → WriteEnds (.estopRestart m) s (aim m 0x2010 3 [1]) fun u v =>
    v.boot = { u.boot with estop := false, stopped := false, step := 4, waves := 0 } ∧ bit (v.ob 0x2000 5) 3 = false ∧
    v.ob 0x1200 1 = 4 ∧ v.mem = u.mem ∧ v.fuse = u.fuse) ∧
  (∀ (s : State) (source : Fin 5) (die : Die), source.val ≠ 0 → idle s → Ends (.tamperTrip source die []) s fun t =>
    t.sec.sealed = [] ∧ t.sec.sessions = [] ∧ t.sec.stage = none ∧ t.sec.unwrapped = false ∧
    t.reg (okey 0x8500 1) = (s.bump (okey 0x8500 1) 1).reg (okey 0x8500 1) ∧ t.boot.tamperHold = true ∧
    (s.boot.tamperHold = false → dark t ∧
      (s.boot.step ≠ 11 → t.boot.stopped = true ∧ t.ob 0x1200 1 = 0x8C))) ∧
  (∀ (s : State) (source : Fin 5) (die : Die) (l : List Die),
    source.val = 0 ∨ s.boot.aux = false ∨ s.boot.resetHeld = true → Ends (.tamperTrip source die l) s fun t => t = s) ∧
  (∀ s : State,
    let kept (t : State) : Prop := t.fuse = s.fuse ∧ t.num.copies = s.num.copies ∧ t.num.counter = s.num.counter ∧
      t.sec.identity = s.sec.identity ∧ t.ob 0x8000 1 = s.ob 0x8000 1 ∧ t.ob 0x8300 1 = s.ob 0x8300 1
    let start (t : State) : Prop := t.sec.sessions = [] ∧ t.dict = State.reset.dict ∧ t.events = [] ∧ t.boot.resetHeld = true ∧
      t.boot.latched = false ∧ t.boot.pithead = none
    (idle s → Ends .resetAssert s fun t => dark t ∧ kept t ∧ start t ∧ t.boot.step = 1 ∧ t.boot.aux = true) ∧
    (¬ idle s → Ends .resetAssert s fun t => t = s) ∧
    (Ends .powerRemoved s fun t => dark t ∧ kept t ∧ start t ∧ t.boot.step = 0 ∧ t.boot.aux = false))

/-! ### Bring-up (chapter 15) -/

/-- R401–R407, R417, R418, R422: from auxiliary power to the running image. The strap word gives MODULE_ID and PLCA_NODE_ID;
an SB2 still asserted at the release stops bring-up. The ROM checks give the pithead role, D0 before D8; none, or SCRAP, stops.
Of the copies that verify, are not below the floor and may boot, the highest version whose digest verifies runs; none stops
bring-up with ROLLBACK or NO_IMAGE. A step past its worst case stops with TIMEOUT, and a boot restart goes back to step 2. -/
def Obligations.FromPowerToTheImage : Prop :=
  let stop (s t : State) (code detail : Nat) : Prop :=
    t.boot.stopped = true ∧ t.ob 0x1200 1 = code ∧ t.ob 0x1200 2 = s.boot.step * 2 ^ 24 + code * 2 ^ 16 + detail
  (∀ (s : State) (ms : Nat), Ends (.auxPowerGood ms) s fun t => if s.boot.aux = true then t = s else
    t.boot = { s.boot with aux := true, resetHeld := true, latched := false, step := 1, totalMs := 0 } ∧
    t.regs = s.regs ∧ t.domNat 0x120003 0 4 = ms % 2 ^ 32) ∧
  (∀ (s : State) (w : BitVec 12), Ends (.strapLatch w) s fun t =>
    if s.boot.aux = true ∧ s.boot.resetHeld = true ∧ s.boot.latched = false then
      t.ob 0x5100 1 = w.toNat ∧ t.ob 0x1200 5 = w.toNat ∧ t.ob 0x1100 1 = 1 + w.toNat % 254 ∧
      t.boot = { s.boot with latched := true, sb2 := bit w.toNat 2 } ∧
      ∀ k, ¬ k ∈ [okey 0x5100 1, okey 0x1200 5, okey 0x1100 1] → t.reg k = s.reg k
    else t = s) ∧
  (∀ (s : State) (ms : Nat), Ends (.resetRelease ms) s fun t =>
    if s.boot.aux = true ∧ s.boot.resetHeld = true ∧ s.boot.latched = true then
      t.boot.resetHeld = false ∧ t.boot.totalMs = ms ∧
      (s.boot.sb2 = true → t.boot.step = 2 ∧ t.ob 0x1200 1 = 1 ∧ t.mem = s.mem) ∧
      (s.boot.sb2 = false → s.boot.estop = false → s.boot.stopped = false → s.boot.tamperHold = false →
        t.ob 0x2010 4 = 1 ∧ stop { s with boot := { s.boot with step := 1 } } t 0x8F 1)
    else t = s) ∧
  (∀ (s : State) (d0 d8 : Bool) (ms : Nat), s.inStep 2 = true → Ends (.romSelfCheck d0 d8 ms) s fun t =>
    if d0 = false ∧ d8 = false then stop s t 0x82 0
    else t.boot.pithead = some (!d0) ∧ t.ob 0x1200 8 = b2n (!d0) ∧ t.serves = true ∧
      (if s.lcState = 4 then stop s t 0x85 4
      else (s.domNat 0x120003 4 4 + ms ≤ 500 → t.boot.step = 3 ∧ t.ob 0x1200 1 = 3 ∧ t.boot.stopped = false ∧
          t.ob 0x2000 4 = t.cap) ∧
        (500 < s.domNat 0x120003 4 4 + ms → s.domNat 0x120003 4 4 + ms < 2 ^ 32 → stop s t 0x89 0))) ∧
  (∀ (s : State) (copies : List ImageCopy) (ms : Nat), s.inStep 3 = true → (s.foundCopies copies).length ≤ 4 →
    let l := s.foundCopies copies
    let good (im : ImageCopy) : Bool := im.sigOk && decide (s.ob 0x8300 1 ≤ im.secVersion) && s.lcBoots im && im.digestOk
    Ends (.imageSelect copies ms) s fun t => t.ob 0x1200 9 = (s.bump (okey 0x1200 9) 1).reg (okey 0x1200 9) ∧
      (∀ x ∈ l, good x = true → s.domNat 0x120003 8 4 + ms ≤ 3000 → t.boot.step = 4 ∧ t.ob 0x1200 1 = 4 ∧
        t.boot.stopped = false ∧ t.mem = s.mem ∧ ∃ im ∈ l, good im = true ∧ t.sec.running = some im ∧ x.version.toNat ≤ im.version.toNat ∧
          t.sec.policy = (if im.flagPolicy then some im.version else none) ∧ t.sec.unwrapped = s.sec.identity.isSome) ∧
      ((∀ x ∈ l, good x = false) → ∃ rejects,
        stop s t (if (∃ x ∈ l, x.sigOk = true) ∧ ∀ x ∈ l, x.sigOk = true → x.secVersion < s.ob 0x8300 1 then 0x84 else 0x83)
          rejects)) ∧
  (∀ (s : State) (n : Nat), 2 ≤ n → n ≤ 9 → s.inStep n = true → s.timerStands = false →
    Ends .bringupTimeout s fun t => stop s t 0x89 0 ∧ ∀ a, a < hostAt 0 → Mem.read t.mem a = 0) ∧
  (∀ s : State, (∀ n, 2 ≤ n → n ≤ 9 → s.inStep n = false) ∨ s.timerStands = true → Ends .bringupTimeout s fun t => t = s) ∧
  (∀ (s : State) (m : Msg), WritesNow s m 0x1200 0x0A [1] → Ends (.bootRestart m) s fun t =>
    t.boot.step = 2 ∧ t.boot.stopped = false ∧ t.boot.pithead = none ∧ t.cmds = [] ∧ t.events = [] ∧ t.mem = s.mem ∧
    t.ob 0x8000 1 = s.ob 0x8000 1 ∧ t.ob 0x5100 1 = s.ob 0x5100 1)

/-- R382, R403, R408–R416, R461: from the power waves to Ready. Each wave powers its dies and fences those that fail; a die
that fails its image twice is fenced and every other powered die is admitted; the start-up test notes what failed and
starts T_pass; the defect union fixes numbering, or stops bring-up where no list, no shaft or no Fixer die is left; the
oscillator check is an emergency stop where it fails; ports train, and step 10 ends in Ready with its event. SB2 asserted
after the latch is an emergency stop. -/
def Obligations.FromPowerWavesToReady : Prop :=
  let stop (s t : State) (code detail : Nat) : Prop :=
    t.boot.stopped = true ∧ t.ob 0x1200 1 = code ∧ t.ob 0x1200 2 = s.boot.step * 2 ^ 24 + code * 2 ^ 16 + detail
  (∀ (s : State) (rf : List Die) (cf : List (Fin 16 × Fin 16)) (sf : List (Fin 64)) (ms : Nat),
    s.inStep 4 = true → s.boot.waves ≤ 5 → s.domNat 0x120003 12 4 + ms ≤ 6000 → Ends (.powerWave rf cf sf ms) s fun t =>
      t.boot.waves = s.boot.waves + 1 ∧ t.boot.step = (if s.boot.waves = 5 then 5 else 4) ∧
      (∀ d ∈ waveDies s.boot.waves, s.fenced d = false → if d ∈ rf then t.fenced d = true else d ∈ t.boot.powered) ∧
      (s.boot.waves = 1 → ∀ x ∈ cf, t.fenced (.f x.1) = true) ∧
      (2 ≤ s.boot.waves → ∀ u ∈ sf, u.val / 16 = s.boot.waves - 2 →
        unitId (Die.ofIx (u.val / 2)) 3 (u.val % 2) ∈ t.num.unitFails)) ∧
  (∀ s : State, s.inStep 4 = true → Ends .inrush s fun t => stop s t 0x86 (s.boot.waves + 1)) ∧
  (∀ (s : State) (fails : List (Die × Bool)) (ms : Nat), s.inStep 5 = true → s.domNat 0x120003 16 4 + ms ≤ 400 →
    Ends (.firmwareBroadcast fails ms) s fun t => t.boot.step = 6 ∧ ∀ d, s.fenced d = false →
      (t.live d = true ↔ d ∈ s.boot.powered ∧ d ∉ fails.map Prod.fst) ∧
      (d ∈ s.boot.powered → d ∈ fails.map Prod.fst → t.fenced d = true)) ∧
  (∀ (s : State) (failed : List (BitVec 32 × Nat)) (ms : Nat), s.inStep 6 = true → s.domNat 0x120003 20 4 + ms ≤ 12000 →
    s.tickNo < 2 ^ 64 → Ends (.startupTest failed ms) s fun t => t.boot.step = 7 ∧
      t.num = { s.num with startFail := failed.filter fun f => s.live (dieOfUnit f.1) } ∧
      ∀ x y, x < 32 → y < 18 → s.live (Die.ofIx x) = true → (∀ g, (unitId (Die.ofIx x) 1 y, g) ∉ failed) →
        t.tPass x y = s.tickNo) ∧
  (∀ (s : State) (ms : Nat), s.inStep 7 = true → Ends (.defectUnion ms) s fun t =>
    (s.chooseList = none → stop s t 0x88 3) ∧
    ∀ u, s.chooseList = some u →
      u.num.copies.1 = u.num.copies.2 ∧ (u.num.copies.1 = s.num.copies.1 ∨ u.num.copies.1 = s.num.copies.2) ∧
      let v := u.unionDone
      (v.ob 0x7001 2 = 0 → stop s t 0x87 0) ∧ (v.ob 0x7001 2 ≠ 0 → v.ob 0x7001 5 = 0 → stop s t 0x87 1) ∧
      (v.ob 0x7001 2 ≠ 0 → v.ob 0x7001 5 ≠ 0 → v.domNat 0x120003 24 4 + ms ≤ 1200 → t.boot.step = 8 ∧ t.num = v.num ∧
        t.ob 0x7001 2 = ((List.range 32).map t.shafts).sum ∧ ∀ k, k ≠ okey 0x1200 1 → t.reg k = v.reg k)) ∧
  (∀ (s : State) (ms : Nat), s.inStep 8 = true → s.domNat 0x120003 28 4 + ms ≤ 50 → Ends (.clockSetup none ms) s fun t =>
    t.clk = { s.clk with running := true } ∧ t.boot.step = 9 ∧ t.ob 0x1200 1 = 9) ∧
  (∀ (s : State) (d : Die) (ms : Nat), s.inStep 8 = true → s.boot.tamperHold = false →
    Ends (.clockSetup (some d) ms) s fun t => t.ob 0x2010 4 = 5 ∧ memN 5 t.boot.causes = true ∧ stop s t 0x8F 5) ∧
  (∀ (s : State) (cable peers : List (Fin 64)) (ms : Nat), s.inStep 9 = true → s.boot.training = [] →
    s.domNat 0x120003 32 4 + ms ≤ 35000 → Ends (.portTraining cable peers ms) s fun t =>
      (∀ p : Fin 64, t.portState p.val = (if s.live (portDie p.val) = false then 6 else if p ∈ cable ∨ p ∈ peers then 1 else 0) ∧
        (p.val ∈ t.boot.training ↔ s.live (portDie p.val) = true ∧ (p ∈ cable ∨ p ∈ peers))) ∧
      t.boot.step = if t.boot.training = [] then 10 else 9) ∧
  (∀ (s : State) (link : Option (Fin 7 × Fin 32 × Bool)) (ms : Nat), s.inStep 10 = true →
    Ends (.hostLinkTraining link ms) s fun t => t.boot.step = 11 ∧ t.ob 0x1200 1 = 0x0B ∧ t.boot.sourceDue = true ∧
      t.ob 0x1200 4 = s.boot.totalMs + min ms 1000 ∧ t.ob 0x1200 8 = t.bootFlags ∧
      Raised s t 0x1201 (s.boot.totalMs + min ms 1000) t.bootFlags ∧
      t.ob 0x5140 2 = match link with
        | some (r, w, flit) => if r.val = 0 ∨ s.fenced (.d 0) = true then s.ob 0x5140 2 else r.val * 4096 + w.val * 16 + b2n flit
        | none => s.ob 0x5140 2) ∧
  (∀ s : State, (Ends (.sbInputLevelChange .sb2 true) s fun t =>
      t.boot = { s.boot with sb2 := true, causes := s.boot.causes.filter fun x => decide (x ≠ 1) } ∧ { t with boot := s.boot } = s) ∧
    (s.boot.latched = false → Ends (.sbInputLevelChange .sb2 false) s fun t => t = { s with boot := { s.boot with sb2 := false } }) ∧
    (s.boot.latched = true → s.boot.aux = true → s.boot.resetHeld = false → s.boot.step = 11 → s.boot.estop = false →
      s.boot.stopped = false → s.boot.tamperHold = false → Ends (.sbInputLevelChange .sb2 false) s fun t =>
        t.boot.estop = true ∧ t.boot.sb2 = false ∧ t.ob 0x2010 4 = 1 ∧ memN 1 t.boot.causes = true) ∧
    ∀ (p : InPin) (level : Bool), p ≠ .sb2 → Ends (.sbInputLevelChange p level) s fun t =>
      { t with boot := { t.boot with inputs := s.boot.inputs } } = s ∧
      (t.boot.inputs.find? fun x => decide (x.1 = p)) = some (p, level) ∧
      ∀ q, q ≠ p → (t.boot.inputs.find? fun x => decide (x.1 = q)) = s.boot.inputs.find? fun x => decide (x.1 = q))

/-! ### Security and life cycle (chapter 16) -/

/-- R423, R424, R426, R427, R430, R432, R434: what the writes of chapter 16 do. A life-cycle transition waits for the next
boundary; an identity is drawn and its key held unwrapped; the floor rises to the running image's version; an update is
opened for the image that did not boot, filled, written to both devices or rejected with its reason, or abandoned; a nonce
forms the signed report; a challenge is drawn for its reader; a session opens on a signature that verifies against it, and
AUTH_FAIL tells of one that does not; a session closes. -/
def Obligations.SecurityWritesAndSessions : Prop :=
  (∀ (s : State) (m : Msg) (v : BitVec 8), WritesNow s m 0x8000 2 [v] → WriteEnds (.lcRequest m v) s (aim m 0x8000 2 [v])
    fun u w => w = { u with sec := { u.sec with lcPending := some v.toNat } }) ∧
  (∀ (s : State) (m : Msg) (v : BitVec 8), WritesNow s m 0x8000 3 [v] →
    WriteEnds (.identityGenerate m v) s (aim m 0x8000 3 [v]) fun u w => w.ob 0x8000 3 = b2n (decide (v = 1)) ∧
      (v ≠ 1 → { w with regs := u.regs } = u) ∧
      (v = 1 → { w with regs := u.regs, sec := u.sec } = u ∧ w.sec.random = u.sec.random + 1 ∧ w.sec.unwrapped = true ∧
        32 ∈ w.sec.sealed ∧
        w.sec.identity = some (fit 516 (Config.keyPair u.sec.random).1, (Config.keyPair u.sec.random).2))) ∧
  (∀ (s : State) (m : Msg) (v : BitVec 8) (im : ImageCopy), WritesNow s m 0x8300 2 [v] → s.sec.running = some im →
    WriteEnds (.floorAdvance m v) s (aim m 0x8300 2 [v]) fun u w => if v = 1 then
      w.ob 0x8300 1 = im.secVersion ∧ ∃ x, Tells x w 0x8005 (u.ob 0x8300 1) im.secVersion
    else w = u) ∧
  (∀ (s : State) (m : Msg), WritesNow s m 0x8200 1 [1] → WriteEnds (.updateOpen m) s (aim m 0x8200 1 [1]) fun u w =>
    w = { u with sec := { u.sec with stage := some (1 - bits (u.ob 0x1200 6) 0 0, []) } }) ∧
  (∀ (s : State) (m : Msg), WritesNow s m 0x8200 1 [3] → WriteEnds (.updateAbandon m) s (aim m 0x8200 1 [3]) fun u w =>
    w = { u with sec := { u.sec with stage := none } }) ∧
  (∀ (s : State) (m : Msg) (im : ImageCopy) (t : Nat) (l : List (Nat × Bytes)), WritesNow s m 0x8200 1 [2] →
    s.sec.stage = some (t, l) → WriteEnds (.updateCommit m im) s (aim m 0x8200 1 [2]) fun u w => w.sec.stage = none ∧
      if im.sigOk = true ∧ im.digestOk = true ∧ u.ob 0x8300 1 ≤ im.secVersion then
        w.regs = u.regs ∧ w.events = u.events ∧ w.sec.images.length = u.sec.images.length ∧
        (∀ j, j < u.sec.images.length → w.sec.images[j]? = if j = t ∨ j = 2 + t then some im else u.sec.images[j]?) ∧
        (∀ f : Fin 16, u.live (.f f) = true → im.parts.any (fun p => decide (p.1 = 4)) = true →
          (w.fixer f.val).newImage = some im) ∧
        (im.flagPolicy = true → w.sec.policyDue = some im)
      else w.sec.images = u.sec.images ∧ w.fix = u.fix ∧
        ∃ x, Tells x w 0x8004 im.version.toNat (if im.sigOk = false then 0 else if im.digestOk = false then 1 else 2)) ∧
  (∀ (s : State) (m : Msg) (o : Obj) (t : Nat) (l : List (Nat × Bytes)), WritesTable s (aimAt m 0x8200 2) o →
    s.sec.stage = some (t, l) → Ends (.imageChunk m) s fun x => AnsweredOk x 4 (aimAt m 0x8200 2) ∧
      x.sec.stage = some (t, l ++ [(leNat (m.payload.take 8), m.payload.drop 8)]) ∧ x.regs = (atService s 4 false (aimAt m 0x8200 2)).regs) ∧
  (∀ (s : State) (m : Msg) (o : Obj) (key : Bytes), WritesTable s (aimAt m 0x8400 3) o → s.signKey = some key →
    Ends (.attestNonce m) s fun x => AnsweredOk x 4 (aimAt m 0x8400 3) ∧
      x.domBytes 0x840004 0 1024 = (atService s 4 false (aimAt m 0x8400 3)).report key m.payload) ∧
  (∀ (s : State) (m : Msg) (o : Obj),
    let m' := aimAt m 0x8100 1
    let c := fit 64 (Config.random64 s.sec.random)
    Heard s 3 false m' → (atService s 3 false m').find 0x8100 1 = .ok o → m.offset = 0 → s.dict.snaps = [] →
    s.dict.staged = [] → Ends (.challengeRead m) s fun t => t.challenge? m.path = some c ∧ t.sec.random = s.sec.random + 1 ∧
      ∃ r, r.abort = abOk ∧ r.payload = c ∧ r.last = true ∧ Answered t 3 m' r) ∧
  (∀ (s : State) (m : Msg) (o : Obj),
    let m' := aimAt m 0x8100 2
    let slot := leNat (m.payload.take 1)
    let u := atService s 4 false m'
    WritesTable s m' o → Ends (.sessionOpen m) s fun t => match u.openCheck m.path slot (m.payload.drop 8) with
      | none => AnsweredOk t 4 m' ∧ t.sec.random = s.sec.random + 1 ∧ ∃ x, t.session? m.path = some x ∧ x.slot = slot ∧
          x.key = fit 64 (Config.random64 s.sec.random) ∧ x.opened = s.tickNo ∧
          x.sealed = fit 512 (Config.oaep (u.slotKey slot) x.key)
      | some why => (∃ r, r.abort = abAuth ∧ Answered t 4 m' r) ∧ t.sec.random = s.sec.random ∧ Raised u t 0x8003 slot why) ∧
  (∀ (s : State) (m : Msg) (v : BitVec 8), WritesNow s m 0x8100 6 [v] → WriteEnds (.sessionClose m v) s (aim m 0x8100 6 [v])
    fun u w => w = if v = 0 then u.closeSession m.path else u) ∧
  (∀ (s : State) (p : Path), Ends (.sessionTimeout p) s fun t => t.session? p = none ∧
    (∀ q, q ≠ p → t.session? q = s.session? q) ∧ { t with sec := { t.sec with sessions := s.sec.sessions } } = s)

/-! ### Observation (chapter 17) -/

/-- R449, R450, R451, R453, R454, R455, R458: arming empties every buffer and starts the trace, a write of 0 stops it, and a
write of 1 fires the trigger of an armed trace once; a die's buffer freezes 1,000 ticks after it. A breakpoint that is set
for the core halts the cores of its scope; resume lets every core of the die go; LOCATE holds what is written. -/
def Obligations.TracesAndBreakpoints : Prop :=
  (∀ (s : State) (m : Msg), WritesNow s m 0x9110 6 [1] → WriteEnds (.traceArm m) s (aim m 0x9110 6 [1]) fun u v =>
    { v with regs := u.regs, obs := u.obs } = u ∧ v.ob 0x9110 8 = 1 ∧ v.obs.trigTick = none ∧
    ∀ t, t < 32 → v.traceBuf t = TraceBuf.fresh ∧ v.ob (0xA000 + 0x100 * t + 0x90) 2 = 0 ∧ v.ob (0xA000 + 0x100 * t + 0x90) 3 = 0) ∧
  (∀ (s : State) (m : Msg), WritesNow s m 0x9110 6 [0] → WriteEnds (.traceStop m) s (aim m 0x9110 6 [0]) fun u v =>
    v = u.setReg (okey 0x9110 8) 0) ∧
  (∀ (s : State) (m : Msg), WritesNow s m 0x9110 7 [1] → WriteEnds (.triggerNow m) s (aim m 0x9110 7 [1]) fun u v =>
    if u.ob 0x9110 8 = 1 then v.obs.trigTick = some u.tickNo ∧ Raised u v 0x9001 0 ((u.traceBuf 0).seq % 2 ^ 32) else v = u) ∧
  (∀ (s : State) (die : Fin 32), Ends (.traceFreeze die) s fun t => match s.obs.trigTick with
    | none => t = s
    | some k => if s.ob 0x9110 8 = 2 ∧ (k + 1000 ≤ s.tickNo ∨ (s.traceBuf die.val).post = some 0) then
        t.traceBuf die.val = { s.traceBuf die.val with frozen := true } ∧
        (∀ j, j ≠ die.val → t.traceBuf j = s.traceBuf j) ∧ t.ob 0x9110 8 = if t.allFrozen then 3 else 2
      else t = s) ∧
  (∀ (s : State) (m : Msg) (x : BitVec 8), WritesNow s m 0x9200 1 [x] →
    WriteEnds (.fullExposureArm m x) s (aim m 0x9200 1 [x]) fun u v =>
      v.ob 0x9200 1 = b2n (decide (x = 1)) ∧ ∃ w n, Tells w v 0x9002 n (b2n (decide (x ≠ 1))) ∧ w.ctxs = u.ctxs ∧ w.cmds = u.cmds) ∧
  (∀ (s : State) (die : Fin 32) (core : Fin 76) (i : Fin 8),
    let e := s.breakEntry die.val i.val
    let halted (t : State) (c : Nat) : Prop := (die.val, c) ∈ t.obs.halted
    s.live (.t die) = true → 1 ≤ bits e 47 44 → bits e 47 44 ≤ 5 → ¬ halted s core.val →
    bits e 63 48 = 0xFFFF ∨ bits e 63 48 = 0x2000 + 256 * die.val + core.val →
    72 ≤ core.val ∨ s.physState die.val (core.val / 4) = 0 ∨ s.physState die.val (core.val / 4) = 2 →
    Ends (.breakpointHit die core i) s fun t =>
      (∀ c, c < 76 → (halted t c ↔ halted s c ∨ match bits e 43 42 with
        | 0 => c = core.val
        | 1 => c = core.val ∨ (core.val < 72 ∧ c / 4 = core.val / 4)
        | _ => True)) ∧
      t.ob (0xA000 + 0x100 * die.val + 0x84) 4 = (0x2000 + 256 * die.val + core.val) * 65536 + i.val ∧
      bits (t.breakEntry die.val i.val) 47 44 = (if bit e 40 = true then 0 else bits e 47 44) ∧
      (bits e 43 42 = 0 → ∃ x ∈ t.events, x.code = 0x9003 ∧
        x.arg0 = BitVec.ofNat 32 (0x2000 + 256 * die.val + core.val) ∧ x.arg1 = BitVec.ofNat 32 i.val)) ∧
  (∀ (s : State) (die : Fin 32) (core : Fin 76) (i : Fin 8), s.live (.t die) = false →
    Ends (.breakpointHit die core i) s fun t => t = s) ∧
  (∀ (s : State) (m : Msg) (die : Fin 32), WritesNow s m (0xA000 + 0x100 * die.val + 0x84) 3 [1] →
    WriteEnds (.breakResume m die) s (aim m (0xA000 + 0x100 * die.val + 0x84) 3 [1]) fun u v =>
      (∀ h, h ∈ v.obs.halted ↔ h ∈ u.obs.halted ∧ h.1 ≠ die.val) ∧ v.cmds = u.cmds ∧
      ∀ c, ctxDie c = die.val → Cause.breakpoint ∉ (v.ctx c).causes) ∧
  (∀ (s : State) (m : Msg) (die : Fin 32), WritesNow s m (0xA000 + 0x100 * die.val + 0x84) 3 [2] →
    WriteEnds (.singleStep m die) s (aim m (0xA000 + 0x100 * die.val + 0x84) 3 [2]) fun u v => v = u) ∧
  (∀ (s : State) (m : Msg) (x : BitVec 8), WritesNow s m 0x1300 2 [x] →
    WriteEnds (.locate m x) s (aim m 0x1300 2 [x]) fun u v => v = u.setReg (okey 0x1300 2) x.toNat)
end

