-- ==== Sys2Proof/Laws/SMap.lean ====
section
/-! SUPPORT. Laws of the sparse maps and of memory: a read after a write, every other key, and that every memory
operation keeps the canonical form. -/

namespace Sys2Proof.Machine

variable {α : Type}

/-! ### Keys rise -/

@[simp] theorem SMap.Rising_nil : SMap.Rising ([] : List (Nat × α)) = true := rfl

/-- A list rises when its head's key is below every other and its tail rises. -/
theorem SMap.Rising_cons (a : Nat) (v : α) (t : List (Nat × α)) :
    SMap.Rising ((a, v) :: t) = true ↔ (∀ c ∈ t, a < c.1) ∧ SMap.Rising t = true := by
  induction t generalizing a v with
  | nil => simp [SMap.Rising]
  | cons c t ih =>
    obtain ⟨b, w⟩ := c
    have h := ih b w
    simp only [SMap.Rising, Bool.and_eq_true, decide_eq_true_eq, h, List.mem_cons, forall_eq_or_imp]
    constructor
    · rintro ⟨hab, hb, ht⟩
      exact ⟨⟨hab, fun c hc => Nat.lt_trans hab (hb c hc)⟩, hb, ht⟩
    · rintro ⟨⟨hab, _⟩, hb, ht⟩
      exact ⟨hab, hb, ht⟩

theorem SMap.Rising_filter (p : Nat × α → Bool) (m : List (Nat × α)) (h : SMap.Rising m = true) :
    SMap.Rising (m.filter p) = true := by
  induction m with
  | nil => rfl
  | cons c t ih =>
    obtain ⟨a, v⟩ := c
    rw [SMap.Rising_cons] at h
    simp only [List.filter_cons]
    split
    · rw [SMap.Rising_cons]
      exact ⟨fun c hc => h.1 c (List.mem_filter.mp hc).1, ih h.2⟩
    · exact ih h.2

/-- What a `put` lists. -/
theorem SMap.mem_put (m : List (Nat × α)) (k : Nat) (v : α) (c : Nat × α) (h : c ∈ SMap.put m k v) :
    c = (k, v) ∨ c ∈ m := by
  induction m with
  | nil => simpa [SMap.put] using h
  | cons d t ih =>
    obtain ⟨a, w⟩ := d
    simp only [SMap.put] at h
    split at h
    · simpa using h
    · split at h
      · rcases List.mem_cons.mp h with h | h
        · exact .inl h
        · exact .inr (List.mem_cons_of_mem _ h)
      · rcases List.mem_cons.mp h with h | h
        · exact .inr (h ▸ List.mem_cons_self)
        · exact (ih h).imp id (List.mem_cons_of_mem _)

theorem SMap.Rising_put (m : List (Nat × α)) (k : Nat) (v : α) (h : SMap.Rising m = true) :
    SMap.Rising (SMap.put m k v) = true := by
  induction m with
  | nil => rfl
  | cons c t ih =>
    obtain ⟨a, w⟩ := c
    have h' := (SMap.Rising_cons a w t).mp h
    simp only [SMap.put]
    split
    · rename_i hk
      rw [SMap.Rising_cons]
      refine ⟨fun c hc => ?_, h⟩
      rcases List.mem_cons.mp hc with rfl | hc
      · exact hk
      · exact Nat.lt_trans hk (h'.1 c hc)
    · split
      · rename_i hk
        subst hk
        exact (SMap.Rising_cons _ _ _).mpr h'
      · rw [SMap.Rising_cons]
        refine ⟨fun c hc => ?_, ih h'.2⟩
        rcases SMap.mem_put t k v c hc with rfl | hc
        · simp only; omega
        · exact h'.1 c hc

/-- What a `del` lists was listed. -/
theorem SMap.mem_del (m : List (Nat × α)) (k : Nat) (c : Nat × α) (h : c ∈ SMap.del m k) : c ∈ m := by
  induction m with
  | nil => simp [SMap.del] at h
  | cons d t ih =>
    obtain ⟨a, w⟩ := d
    simp only [SMap.del] at h
    split at h
    · exact List.mem_cons_of_mem _ (ih h)
    · rcases List.mem_cons.mp h with h | h
      · exact h ▸ List.mem_cons_self
      · exact List.mem_cons_of_mem _ (ih h)

theorem SMap.Rising_del (m : List (Nat × α)) (k : Nat) (h : SMap.Rising m = true) : SMap.Rising (SMap.del m k) = true := by
  induction m with
  | nil => rfl
  | cons c t ih =>
    obtain ⟨a, w⟩ := c
    have h' := (SMap.Rising_cons a w t).mp h
    simp only [SMap.del]
    split
    · exact ih h'.2
    · rw [SMap.Rising_cons]
      exact ⟨fun c hc => h'.1 c (SMap.mem_del t k c hc), ih h'.2⟩

/-! ### Reading after writing -/

@[simp] theorem SMap.get?_nil (k : Nat) : SMap.get? ([] : List (Nat × α)) k = none := rfl

@[simp] theorem SMap.get?_put_self (m : List (Nat × α)) (k : Nat) (v : α) : SMap.get? (SMap.put m k v) k = some v := by
  induction m with
  | nil => simp [SMap.put, SMap.get?]
  | cons c t ih =>
    obtain ⟨a, w⟩ := c
    simp only [SMap.put]
    split
    · simp [SMap.get?]
    · split
      · simp [SMap.get?]
      · rename_i h1 h2
        simp [SMap.get?, h2, ih]

theorem SMap.get?_put_other (m : List (Nat × α)) (k j : Nat) (v : α) (h : j ≠ k) :
    SMap.get? (SMap.put m k v) j = SMap.get? m j := by
  induction m with
  | nil => simp [SMap.put, SMap.get?, h]
  | cons c t ih =>
    obtain ⟨a, w⟩ := c
    simp only [SMap.put]
    split
    · simp [SMap.get?, h]
    · split
      · rename_i h1 h2
        subst h2
        simp [SMap.get?, h]
      · simp [SMap.get?, ih]

/-- A key that a rising list's head lies above is not listed. -/
theorem SMap.get?_none_of_lt (m : List (Nat × α)) (k : Nat) (h : ∀ c ∈ m, k < c.1) : SMap.get? m k = none := by
  induction m with
  | nil => rfl
  | cons c t ih =>
    obtain ⟨a, w⟩ := c
    have ha : k < a := h (a, w) List.mem_cons_self
    have : k ≠ a := by omega
    simp [SMap.get?, this, ih fun c hc => h c (List.mem_cons_of_mem _ hc)]

@[simp] theorem SMap.get?_del_self (m : List (Nat × α)) (k : Nat) : SMap.get? (SMap.del m k) k = none := by
  induction m with
  | nil => rfl
  | cons c t ih =>
    obtain ⟨a, w⟩ := c
    simp only [SMap.del]
    split
    · exact ih
    · rename_i hk
      simp [SMap.get?, hk, ih]

theorem SMap.get?_del_other (m : List (Nat × α)) (k j : Nat) (h : j ≠ k) : SMap.get? (SMap.del m k) j = SMap.get? m j := by
  induction m with
  | nil => rfl
  | cons c t ih =>
    obtain ⟨a, w⟩ := c
    simp only [SMap.del]
    split
    · rename_i hk
      subst hk
      simp [SMap.get?, h, ih]
    · simp [SMap.get?, ih]

@[simp] theorem SMap.get_put_self (d : α) (m : List (Nat × α)) (k : Nat) (v : α) : SMap.get d (SMap.put m k v) k = v := by
  simp [SMap.get]

theorem SMap.get_put_other (d : α) (m : List (Nat × α)) (k j : Nat) (v : α) (h : j ≠ k) :
    SMap.get d (SMap.put m k v) j = SMap.get d m j := by
  simp [SMap.get, SMap.get?_put_other m k j v h]

/-! ### Memory -/

theorem Mem.wf_iff (m : List Host.Cell) : Mem.wf m = true ↔ SMap.Rising m = true ∧ ∀ c ∈ m, c.2 ≠ 0 := by
  simp [Mem.wf]

@[simp] theorem Mem.wf_nil : Mem.wf [] = true := rfl

theorem Mem.wf_write (m : List Host.Cell) (a : Nat) (b : Byte) (h : Mem.wf m = true) : Mem.wf (Mem.write m a b) = true := by
  rw [Mem.wf_iff] at h ⊢
  unfold Mem.write
  split
  · exact ⟨SMap.Rising_del m a h.1, fun c hc => h.2 c (SMap.mem_del m a c hc)⟩
  · rename_i hb
    refine ⟨SMap.Rising_put m a b h.1, fun c hc => ?_⟩
    rcases SMap.mem_put m a b c hc with rfl | hc
    · exact hb
    · exact h.2 c hc

theorem Mem.wf_filter (p : Host.Cell → Bool) (m : List Host.Cell) (h : Mem.wf m = true) : Mem.wf (m.filter p) = true := by
  rw [Mem.wf_iff] at h ⊢
  exact ⟨SMap.Rising_filter p m h.1, fun c hc => h.2 c (List.mem_filter.mp hc).1⟩

@[simp] theorem Mem.wf_writeN (bs : Bytes) (m : List Host.Cell) (a : Nat) (h : Mem.wf m = true) :
    Mem.wf (Mem.writeN m a bs) = true := by
  induction bs generalizing m a with
  | nil => exact h
  | cons b t ih => exact ih _ _ (Mem.wf_write m a b h)

theorem Mem.wf_forget (m : List Host.Cell) (lo hi : Nat) (h : Mem.wf m = true) : Mem.wf (Mem.forget m lo hi) = true :=
  Mem.wf_filter _ m h

theorem Mem.wf_foldl_write {β : Type} (f : β → Nat) (g : β → Byte) (l : List β) (m : List Host.Cell) (h : Mem.wf m = true) :
    Mem.wf (l.foldl (fun m c => Mem.write m (f c) (g c)) m) = true := by
  induction l generalizing m with
  | nil => exact h
  | cons c t ih => exact ih _ (Mem.wf_write m _ _ h)

theorem Mem.wf_copy (m : List Host.Cell) (src dst n : Nat) (h : Mem.wf m = true) : Mem.wf (Mem.copy m src dst n) = true :=
  Mem.wf_foldl_write (fun c : Host.Cell => dst + (c.1 - src)) (fun c : Host.Cell => c.2) _ _ (Mem.wf_forget m _ _ h)

theorem copyNuggets_wf (m : List Host.Cell) (src dst : Parts) (h : Mem.wf m = true) :
    Mem.wf (copyNuggets m src dst) = true :=
  Mem.wf_foldl_write (fun c : Host.Cell => dst.nugget + (c.1 - src.nugget)) (fun c : Host.Cell => c.2) _ _
    (Mem.wf_forget m _ _ h)

@[simp] theorem Mem.read_write_self (m : List Host.Cell) (a : Nat) (b : Byte) : Mem.read (Mem.write m a b) a = b := by
  unfold Mem.read Mem.write
  split
  · rename_i hb
    simp [hb]
  · simp

theorem Mem.read_write_other (m : List Host.Cell) (a j : Nat) (b : Byte) (h : j ≠ a) :
    Mem.read (Mem.write m a b) j = Mem.read m j := by
  unfold Mem.read Mem.write
  split
  · rw [SMap.get?_del_other m a j h]
  · rw [SMap.get?_put_other m a j b h]

/-- A store leaves every byte outside it as it was. -/
theorem Mem.read_writeN_other (bs : Bytes) (m : List Host.Cell) (a j : Nat) (h : j < a ∨ a + bs.length ≤ j) :
    Mem.read (Mem.writeN m a bs) j = Mem.read m j := by
  induction bs generalizing m a with
  | nil => rfl
  | cons b t ih =>
    simp only [List.length_cons] at h
    simp only [Mem.writeN]
    rw [ih _ (a + 1) (by omega), Mem.read_write_other m a j b (by omega)]

/-- A byte of a store reads back. -/
theorem Mem.read_writeN_in (bs : Bytes) (m : List Host.Cell) (a i : Nat) (hi : i < bs.length) :
    Mem.read (Mem.writeN m a bs) (a + i) = bs.getD i 0 := by
  induction bs generalizing m a i with
  | nil => simp at hi
  | cons b t ih =>
    simp only [Mem.writeN]
    cases i with
    | zero =>
      show Mem.read (Mem.writeN (Mem.write m a b) (a + 1) t) a = b
      rw [Mem.read_writeN_other t _ (a + 1) a (by omega), Mem.read_write_self m a b]
    | succ i =>
      have := ih (Mem.write m a b) (a + 1) i (by simpa using hi)
      rw [show a + (i + 1) = a + 1 + i by omega, this]
      rfl

/-- A store reads back whole. -/
theorem Mem.readN_writeN (bs : Bytes) (m : List Host.Cell) (a : Nat) :
    Mem.readN (Mem.writeN m a bs) a bs.length = bs := by
  have key : ∀ (n : Nat) (k : Nat), k + n = bs.length →
      Mem.readN (Mem.writeN m a bs) (a + k) n = bs.drop k := by
    intro n
    induction n with
    | zero =>
      intro k hk
      simp [Mem.readN, List.drop_eq_nil_of_le (show bs.length ≤ k by omega)]
    | succ n ih =>
      intro k hk
      simp only [Mem.readN]
      rw [Mem.read_writeN_in bs m a k (by omega), show a + k + 1 = a + (k + 1) by omega, ih (k + 1) (by omega)]
      have hlt : k < bs.length := by omega
      rw [List.drop_eq_getElem_cons hlt]
      simp [List.getD, hlt]
  simpa using key bs.length 0 (by omega)

end Sys2Proof.Machine
end

