-- ==== Sys2Proof/Laws/State.lean ====
section
/-! SUPPORT. One lemma per field per update of State: an update changes its own field and no other, and a part read by key
is what the last write of that key put there. -/

namespace Sys2Proof.Machine

@[simp] theorem State.setReg_pending (s : State) (k v : Nat) : (s.setReg k v).pending = s.pending := rfl
@[simp] theorem State.setReg_fuse (s : State) (k v : Nat) : (s.setReg k v).fuse = s.fuse := rfl
@[simp] theorem State.setReg_regs (s : State) (k v : Nat) : (s.setReg k v).regs = SMap.put s.regs k v := rfl
@[simp] theorem State.setReg_dom (s : State) (k v : Nat) : (s.setReg k v).dom = s.dom := rfl
@[simp] theorem State.setReg_mem (s : State) (k v : Nat) : (s.setReg k v).mem = s.mem := by simp only [State.setReg]
@[simp] theorem State.setReg_dict (s : State) (k v : Nat) : (s.setReg k v).dict = s.dict := rfl
@[simp] theorem State.setReg_tick (s : State) (k v : Nat) : (s.setReg k v).tick = s.tick := rfl
@[simp] theorem State.setReg_que (s : State) (k v : Nat) : (s.setReg k v).que = s.que := rfl
@[simp] theorem State.setReg_cmds (s : State) (k v : Nat) : (s.setReg k v).cmds = s.cmds := rfl
@[simp] theorem State.setReg_ctxs (s : State) (k v : Nat) : (s.setReg k v).ctxs = s.ctxs := rfl
@[simp] theorem State.setReg_mus (s : State) (k v : Nat) : (s.setReg k v).mus = s.mus := rfl
@[simp] theorem State.setReg_step (s : State) (k v : Nat) : (s.setReg k v).step = s.step := rfl
@[simp] theorem State.setReg_eng (s : State) (k v : Nat) : (s.setReg k v).eng = s.eng := rfl
@[simp] theorem State.setReg_arr (s : State) (k v : Nat) : (s.setReg k v).arr = s.arr := rfl
@[simp] theorem State.setReg_page (s : State) (k v : Nat) : (s.setReg k v).page = s.page := rfl
@[simp] theorem State.setReg_num (s : State) (k v : Nat) : (s.setReg k v).num = s.num := rfl
@[simp] theorem State.setReg_fix (s : State) (k v : Nat) : (s.setReg k v).fix = s.fix := rfl
@[simp] theorem State.setReg_ports (s : State) (k v : Nat) : (s.setReg k v).ports = s.ports := rfl
@[simp] theorem State.setReg_red (s : State) (k v : Nat) : (s.setReg k v).red = s.red := rfl
@[simp] theorem State.setReg_host (s : State) (k v : Nat) : (s.setReg k v).host = s.host := rfl
@[simp] theorem State.setReg_clk (s : State) (k v : Nat) : (s.setReg k v).clk = s.clk := rfl
@[simp] theorem State.setReg_pwr (s : State) (k v : Nat) : (s.setReg k v).pwr = s.pwr := rfl
@[simp] theorem State.setReg_boot (s : State) (k v : Nat) : (s.setReg k v).boot = s.boot := rfl
@[simp] theorem State.setReg_sec (s : State) (k v : Nat) : (s.setReg k v).sec = s.sec := rfl
@[simp] theorem State.setReg_obs (s : State) (k v : Nat) : (s.setReg k v).obs = s.obs := rfl
@[simp] theorem State.setReg_can (s : State) (k v : Nat) : (s.setReg k v).can = s.can := rfl
@[simp] theorem State.setReg_events (s : State) (k v : Nat) : (s.setReg k v).events = s.events := rfl
@[simp] theorem State.setReg_out (s : State) (k v : Nat) : (s.setReg k v).out = s.out := rfl

@[simp] theorem State.setReg_domByte (s : State) (k v : Nat) (j i : Nat) : (s.setReg k v).domByte j i = s.domByte j i := rfl
@[simp] theorem State.setReg_load (s : State) (k v : Nat) (j m : Nat) : (s.setReg k v).load j m = s.load j m := rfl
@[simp] theorem State.setReg_qst (s : State) (k v : Nat) (j : Nat) : (s.setReg k v).qst j = s.qst j := rfl
@[simp] theorem State.setReg_ctx (s : State) (k v : Nat) (j : Nat) : (s.setReg k v).ctx j = s.ctx j := rfl
@[simp] theorem State.setReg_mst (s : State) (k v : Nat) (j : Nat) : (s.setReg k v).mst j = s.mst j := rfl
@[simp] theorem State.setReg_engine (s : State) (k v : Nat) (j : Nat) : (s.setReg k v).engine j = s.engine j := rfl
@[simp] theorem State.setReg_array (s : State) (k v : Nat) (j : Nat) : (s.setReg k v).array j = s.array j := rfl
@[simp] theorem State.setReg_fixer (s : State) (k v : Nat) (j : Nat) : (s.setReg k v).fixer j = s.fixer j := rfl
@[simp] theorem State.setReg_port (s : State) (k v : Nat) (j : Nat) : (s.setReg k v).port j = s.port j := rfl
@[simp] theorem State.setReg_findCmd (s : State) (k v : Nat) (j i : Nat) : (s.setReg k v).cmd? j i = s.cmd? j i := rfl

@[simp] theorem State.setDom_pending (s : State) (k off : Nat) (bs : Bytes) : (s.setDom k off bs).pending = s.pending := rfl
@[simp] theorem State.setDom_fuse (s : State) (k off : Nat) (bs : Bytes) : (s.setDom k off bs).fuse = s.fuse := rfl
@[simp] theorem State.setDom_regs (s : State) (k off : Nat) (bs : Bytes) : (s.setDom k off bs).regs = s.regs := rfl
@[simp] theorem State.setDom_dom (s : State) (k off : Nat) (bs : Bytes) : (s.setDom k off bs).dom = domPut k s.dom off bs := rfl
@[simp] theorem State.setDom_mem (s : State) (k off : Nat) (bs : Bytes) : (s.setDom k off bs).mem = s.mem := by simp only [State.setDom]
@[simp] theorem State.setDom_dict (s : State) (k off : Nat) (bs : Bytes) : (s.setDom k off bs).dict = s.dict := rfl
@[simp] theorem State.setDom_tick (s : State) (k off : Nat) (bs : Bytes) : (s.setDom k off bs).tick = s.tick := rfl
@[simp] theorem State.setDom_que (s : State) (k off : Nat) (bs : Bytes) : (s.setDom k off bs).que = s.que := rfl
@[simp] theorem State.setDom_cmds (s : State) (k off : Nat) (bs : Bytes) : (s.setDom k off bs).cmds = s.cmds := rfl
@[simp] theorem State.setDom_ctxs (s : State) (k off : Nat) (bs : Bytes) : (s.setDom k off bs).ctxs = s.ctxs := rfl
@[simp] theorem State.setDom_mus (s : State) (k off : Nat) (bs : Bytes) : (s.setDom k off bs).mus = s.mus := rfl
@[simp] theorem State.setDom_step (s : State) (k off : Nat) (bs : Bytes) : (s.setDom k off bs).step = s.step := rfl
@[simp] theorem State.setDom_eng (s : State) (k off : Nat) (bs : Bytes) : (s.setDom k off bs).eng = s.eng := rfl
@[simp] theorem State.setDom_arr (s : State) (k off : Nat) (bs : Bytes) : (s.setDom k off bs).arr = s.arr := rfl
@[simp] theorem State.setDom_page (s : State) (k off : Nat) (bs : Bytes) : (s.setDom k off bs).page = s.page := rfl
@[simp] theorem State.setDom_num (s : State) (k off : Nat) (bs : Bytes) : (s.setDom k off bs).num = s.num := rfl
@[simp] theorem State.setDom_fix (s : State) (k off : Nat) (bs : Bytes) : (s.setDom k off bs).fix = s.fix := rfl
@[simp] theorem State.setDom_ports (s : State) (k off : Nat) (bs : Bytes) : (s.setDom k off bs).ports = s.ports := rfl
@[simp] theorem State.setDom_red (s : State) (k off : Nat) (bs : Bytes) : (s.setDom k off bs).red = s.red := rfl
@[simp] theorem State.setDom_host (s : State) (k off : Nat) (bs : Bytes) : (s.setDom k off bs).host = s.host := rfl
@[simp] theorem State.setDom_clk (s : State) (k off : Nat) (bs : Bytes) : (s.setDom k off bs).clk = s.clk := rfl
@[simp] theorem State.setDom_pwr (s : State) (k off : Nat) (bs : Bytes) : (s.setDom k off bs).pwr = s.pwr := rfl
@[simp] theorem State.setDom_boot (s : State) (k off : Nat) (bs : Bytes) : (s.setDom k off bs).boot = s.boot := rfl
@[simp] theorem State.setDom_sec (s : State) (k off : Nat) (bs : Bytes) : (s.setDom k off bs).sec = s.sec := rfl
@[simp] theorem State.setDom_obs (s : State) (k off : Nat) (bs : Bytes) : (s.setDom k off bs).obs = s.obs := rfl
@[simp] theorem State.setDom_can (s : State) (k off : Nat) (bs : Bytes) : (s.setDom k off bs).can = s.can := rfl
@[simp] theorem State.setDom_events (s : State) (k off : Nat) (bs : Bytes) : (s.setDom k off bs).events = s.events := rfl
@[simp] theorem State.setDom_out (s : State) (k off : Nat) (bs : Bytes) : (s.setDom k off bs).out = s.out := rfl

@[simp] theorem State.setDom_reg (s : State) (k off : Nat) (bs : Bytes) (j : Nat) : (s.setDom k off bs).reg j = s.reg j := rfl
@[simp] theorem State.setDom_load (s : State) (k off : Nat) (bs : Bytes) (j m : Nat) : (s.setDom k off bs).load j m = s.load j m := rfl
@[simp] theorem State.setDom_qst (s : State) (k off : Nat) (bs : Bytes) (j : Nat) : (s.setDom k off bs).qst j = s.qst j := rfl
@[simp] theorem State.setDom_ctx (s : State) (k off : Nat) (bs : Bytes) (j : Nat) : (s.setDom k off bs).ctx j = s.ctx j := rfl
@[simp] theorem State.setDom_mst (s : State) (k off : Nat) (bs : Bytes) (j : Nat) : (s.setDom k off bs).mst j = s.mst j := rfl
@[simp] theorem State.setDom_engine (s : State) (k off : Nat) (bs : Bytes) (j : Nat) : (s.setDom k off bs).engine j = s.engine j := rfl
@[simp] theorem State.setDom_array (s : State) (k off : Nat) (bs : Bytes) (j : Nat) : (s.setDom k off bs).array j = s.array j := rfl
@[simp] theorem State.setDom_fixer (s : State) (k off : Nat) (bs : Bytes) (j : Nat) : (s.setDom k off bs).fixer j = s.fixer j := rfl
@[simp] theorem State.setDom_port (s : State) (k off : Nat) (bs : Bytes) (j : Nat) : (s.setDom k off bs).port j = s.port j := rfl
@[simp] theorem State.setDom_findCmd (s : State) (k off : Nat) (bs : Bytes) (j i : Nat) : (s.setDom k off bs).cmd? j i = s.cmd? j i := rfl

@[simp] theorem State.clearDom_pending (s : State) (k : Nat) : (s.clearDom k).pending = s.pending := rfl
@[simp] theorem State.clearDom_fuse (s : State) (k : Nat) : (s.clearDom k).fuse = s.fuse := rfl
@[simp] theorem State.clearDom_regs (s : State) (k : Nat) : (s.clearDom k).regs = s.regs := rfl
@[simp] theorem State.clearDom_dom (s : State) (k : Nat) : (s.clearDom k).dom = s.dom.filter fun c => decide (c.1 / 16777216 ≠ k) := rfl
@[simp] theorem State.clearDom_mem (s : State) (k : Nat) : (s.clearDom k).mem = s.mem := by simp only [State.clearDom]
@[simp] theorem State.clearDom_dict (s : State) (k : Nat) : (s.clearDom k).dict = s.dict := rfl
@[simp] theorem State.clearDom_tick (s : State) (k : Nat) : (s.clearDom k).tick = s.tick := rfl
@[simp] theorem State.clearDom_que (s : State) (k : Nat) : (s.clearDom k).que = s.que := rfl
@[simp] theorem State.clearDom_cmds (s : State) (k : Nat) : (s.clearDom k).cmds = s.cmds := rfl
@[simp] theorem State.clearDom_ctxs (s : State) (k : Nat) : (s.clearDom k).ctxs = s.ctxs := rfl
@[simp] theorem State.clearDom_mus (s : State) (k : Nat) : (s.clearDom k).mus = s.mus := rfl
@[simp] theorem State.clearDom_step (s : State) (k : Nat) : (s.clearDom k).step = s.step := rfl
@[simp] theorem State.clearDom_eng (s : State) (k : Nat) : (s.clearDom k).eng = s.eng := rfl
@[simp] theorem State.clearDom_arr (s : State) (k : Nat) : (s.clearDom k).arr = s.arr := rfl
@[simp] theorem State.clearDom_page (s : State) (k : Nat) : (s.clearDom k).page = s.page := rfl
@[simp] theorem State.clearDom_num (s : State) (k : Nat) : (s.clearDom k).num = s.num := rfl
@[simp] theorem State.clearDom_fix (s : State) (k : Nat) : (s.clearDom k).fix = s.fix := rfl
@[simp] theorem State.clearDom_ports (s : State) (k : Nat) : (s.clearDom k).ports = s.ports := rfl
@[simp] theorem State.clearDom_red (s : State) (k : Nat) : (s.clearDom k).red = s.red := rfl
@[simp] theorem State.clearDom_host (s : State) (k : Nat) : (s.clearDom k).host = s.host := rfl
@[simp] theorem State.clearDom_clk (s : State) (k : Nat) : (s.clearDom k).clk = s.clk := rfl
@[simp] theorem State.clearDom_pwr (s : State) (k : Nat) : (s.clearDom k).pwr = s.pwr := rfl
@[simp] theorem State.clearDom_boot (s : State) (k : Nat) : (s.clearDom k).boot = s.boot := rfl
@[simp] theorem State.clearDom_sec (s : State) (k : Nat) : (s.clearDom k).sec = s.sec := rfl
@[simp] theorem State.clearDom_obs (s : State) (k : Nat) : (s.clearDom k).obs = s.obs := rfl
@[simp] theorem State.clearDom_can (s : State) (k : Nat) : (s.clearDom k).can = s.can := rfl
@[simp] theorem State.clearDom_events (s : State) (k : Nat) : (s.clearDom k).events = s.events := rfl
@[simp] theorem State.clearDom_out (s : State) (k : Nat) : (s.clearDom k).out = s.out := rfl

@[simp] theorem State.clearDom_reg (s : State) (k : Nat) (j : Nat) : (s.clearDom k).reg j = s.reg j := rfl
@[simp] theorem State.clearDom_load (s : State) (k : Nat) (j m : Nat) : (s.clearDom k).load j m = s.load j m := rfl
@[simp] theorem State.clearDom_qst (s : State) (k : Nat) (j : Nat) : (s.clearDom k).qst j = s.qst j := rfl
@[simp] theorem State.clearDom_ctx (s : State) (k : Nat) (j : Nat) : (s.clearDom k).ctx j = s.ctx j := rfl
@[simp] theorem State.clearDom_mst (s : State) (k : Nat) (j : Nat) : (s.clearDom k).mst j = s.mst j := rfl
@[simp] theorem State.clearDom_engine (s : State) (k : Nat) (j : Nat) : (s.clearDom k).engine j = s.engine j := rfl
@[simp] theorem State.clearDom_array (s : State) (k : Nat) (j : Nat) : (s.clearDom k).array j = s.array j := rfl
@[simp] theorem State.clearDom_fixer (s : State) (k : Nat) (j : Nat) : (s.clearDom k).fixer j = s.fixer j := rfl
@[simp] theorem State.clearDom_port (s : State) (k : Nat) (j : Nat) : (s.clearDom k).port j = s.port j := rfl
@[simp] theorem State.clearDom_findCmd (s : State) (k : Nat) (j i : Nat) : (s.clearDom k).cmd? j i = s.cmd? j i := rfl

@[simp] theorem State.send_pending (s : State) (o : Out) : (s.send o).pending = s.pending := rfl
@[simp] theorem State.send_fuse (s : State) (o : Out) : (s.send o).fuse = s.fuse := rfl
@[simp] theorem State.send_regs (s : State) (o : Out) : (s.send o).regs = s.regs := rfl
@[simp] theorem State.send_dom (s : State) (o : Out) : (s.send o).dom = s.dom := rfl
@[simp] theorem State.send_mem (s : State) (o : Out) : (s.send o).mem = s.mem := by simp only [State.send]
@[simp] theorem State.send_dict (s : State) (o : Out) : (s.send o).dict = s.dict := rfl
@[simp] theorem State.send_tick (s : State) (o : Out) : (s.send o).tick = s.tick := rfl
@[simp] theorem State.send_que (s : State) (o : Out) : (s.send o).que = s.que := rfl
@[simp] theorem State.send_cmds (s : State) (o : Out) : (s.send o).cmds = s.cmds := rfl
@[simp] theorem State.send_ctxs (s : State) (o : Out) : (s.send o).ctxs = s.ctxs := rfl
@[simp] theorem State.send_mus (s : State) (o : Out) : (s.send o).mus = s.mus := rfl
@[simp] theorem State.send_step (s : State) (o : Out) : (s.send o).step = s.step := rfl
@[simp] theorem State.send_eng (s : State) (o : Out) : (s.send o).eng = s.eng := rfl
@[simp] theorem State.send_arr (s : State) (o : Out) : (s.send o).arr = s.arr := rfl
@[simp] theorem State.send_page (s : State) (o : Out) : (s.send o).page = s.page := rfl
@[simp] theorem State.send_num (s : State) (o : Out) : (s.send o).num = s.num := rfl
@[simp] theorem State.send_fix (s : State) (o : Out) : (s.send o).fix = s.fix := rfl
@[simp] theorem State.send_ports (s : State) (o : Out) : (s.send o).ports = s.ports := rfl
@[simp] theorem State.send_red (s : State) (o : Out) : (s.send o).red = s.red := rfl
@[simp] theorem State.send_host (s : State) (o : Out) : (s.send o).host = s.host := rfl
@[simp] theorem State.send_clk (s : State) (o : Out) : (s.send o).clk = s.clk := rfl
@[simp] theorem State.send_pwr (s : State) (o : Out) : (s.send o).pwr = s.pwr := rfl
@[simp] theorem State.send_boot (s : State) (o : Out) : (s.send o).boot = s.boot := rfl
@[simp] theorem State.send_sec (s : State) (o : Out) : (s.send o).sec = s.sec := rfl
@[simp] theorem State.send_obs (s : State) (o : Out) : (s.send o).obs = s.obs := rfl
@[simp] theorem State.send_can (s : State) (o : Out) : (s.send o).can = s.can := rfl
@[simp] theorem State.send_events (s : State) (o : Out) : (s.send o).events = s.events := rfl
@[simp] theorem State.send_out (s : State) (o : Out) : (s.send o).out = s.out ++ [o] := rfl

@[simp] theorem State.send_reg (s : State) (o : Out) (j : Nat) : (s.send o).reg j = s.reg j := rfl
@[simp] theorem State.send_domByte (s : State) (o : Out) (j i : Nat) : (s.send o).domByte j i = s.domByte j i := rfl
@[simp] theorem State.send_load (s : State) (o : Out) (j m : Nat) : (s.send o).load j m = s.load j m := rfl
@[simp] theorem State.send_qst (s : State) (o : Out) (j : Nat) : (s.send o).qst j = s.qst j := rfl
@[simp] theorem State.send_ctx (s : State) (o : Out) (j : Nat) : (s.send o).ctx j = s.ctx j := rfl
@[simp] theorem State.send_mst (s : State) (o : Out) (j : Nat) : (s.send o).mst j = s.mst j := rfl
@[simp] theorem State.send_engine (s : State) (o : Out) (j : Nat) : (s.send o).engine j = s.engine j := rfl
@[simp] theorem State.send_array (s : State) (o : Out) (j : Nat) : (s.send o).array j = s.array j := rfl
@[simp] theorem State.send_fixer (s : State) (o : Out) (j : Nat) : (s.send o).fixer j = s.fixer j := rfl
@[simp] theorem State.send_port (s : State) (o : Out) (j : Nat) : (s.send o).port j = s.port j := rfl
@[simp] theorem State.send_findCmd (s : State) (o : Out) (j i : Nat) : (s.send o).cmd? j i = s.cmd? j i := rfl

@[simp] theorem State.store_pending (s : State) (a : Nat) (bs : Bytes) : (s.store a bs).pending = s.pending := rfl
@[simp] theorem State.store_fuse (s : State) (a : Nat) (bs : Bytes) : (s.store a bs).fuse = s.fuse := rfl
@[simp] theorem State.store_regs (s : State) (a : Nat) (bs : Bytes) : (s.store a bs).regs = s.regs := rfl
@[simp] theorem State.store_dom (s : State) (a : Nat) (bs : Bytes) : (s.store a bs).dom = s.dom := rfl
@[simp] theorem State.store_mem (s : State) (a : Nat) (bs : Bytes) : (s.store a bs).mem = Mem.writeN s.mem a bs := rfl
@[simp] theorem State.store_dict (s : State) (a : Nat) (bs : Bytes) : (s.store a bs).dict = s.dict := rfl
@[simp] theorem State.store_tick (s : State) (a : Nat) (bs : Bytes) : (s.store a bs).tick = s.tick := rfl
@[simp] theorem State.store_que (s : State) (a : Nat) (bs : Bytes) : (s.store a bs).que = s.que := rfl
@[simp] theorem State.store_cmds (s : State) (a : Nat) (bs : Bytes) : (s.store a bs).cmds = s.cmds := rfl
@[simp] theorem State.store_ctxs (s : State) (a : Nat) (bs : Bytes) : (s.store a bs).ctxs = s.ctxs := rfl
@[simp] theorem State.store_mus (s : State) (a : Nat) (bs : Bytes) : (s.store a bs).mus = s.mus := rfl
@[simp] theorem State.store_step (s : State) (a : Nat) (bs : Bytes) : (s.store a bs).step = s.step := rfl
@[simp] theorem State.store_eng (s : State) (a : Nat) (bs : Bytes) : (s.store a bs).eng = s.eng := rfl
@[simp] theorem State.store_arr (s : State) (a : Nat) (bs : Bytes) : (s.store a bs).arr = s.arr := rfl
@[simp] theorem State.store_page (s : State) (a : Nat) (bs : Bytes) : (s.store a bs).page = s.page := rfl
@[simp] theorem State.store_num (s : State) (a : Nat) (bs : Bytes) : (s.store a bs).num = s.num := rfl
@[simp] theorem State.store_fix (s : State) (a : Nat) (bs : Bytes) : (s.store a bs).fix = s.fix := rfl
@[simp] theorem State.store_ports (s : State) (a : Nat) (bs : Bytes) : (s.store a bs).ports = s.ports := rfl
@[simp] theorem State.store_red (s : State) (a : Nat) (bs : Bytes) : (s.store a bs).red = s.red := rfl
@[simp] theorem State.store_host (s : State) (a : Nat) (bs : Bytes) : (s.store a bs).host = s.host := rfl
@[simp] theorem State.store_clk (s : State) (a : Nat) (bs : Bytes) : (s.store a bs).clk = s.clk := rfl
@[simp] theorem State.store_pwr (s : State) (a : Nat) (bs : Bytes) : (s.store a bs).pwr = s.pwr := rfl
@[simp] theorem State.store_boot (s : State) (a : Nat) (bs : Bytes) : (s.store a bs).boot = s.boot := rfl
@[simp] theorem State.store_sec (s : State) (a : Nat) (bs : Bytes) : (s.store a bs).sec = s.sec := rfl
@[simp] theorem State.store_obs (s : State) (a : Nat) (bs : Bytes) : (s.store a bs).obs = s.obs := rfl
@[simp] theorem State.store_can (s : State) (a : Nat) (bs : Bytes) : (s.store a bs).can = s.can := rfl
@[simp] theorem State.store_events (s : State) (a : Nat) (bs : Bytes) : (s.store a bs).events = s.events := rfl
@[simp] theorem State.store_out (s : State) (a : Nat) (bs : Bytes) : (s.store a bs).out = s.out := rfl

@[simp] theorem State.store_reg (s : State) (a : Nat) (bs : Bytes) (j : Nat) : (s.store a bs).reg j = s.reg j := rfl
@[simp] theorem State.store_domByte (s : State) (a : Nat) (bs : Bytes) (j i : Nat) : (s.store a bs).domByte j i = s.domByte j i := rfl
@[simp] theorem State.store_qst (s : State) (a : Nat) (bs : Bytes) (j : Nat) : (s.store a bs).qst j = s.qst j := rfl
@[simp] theorem State.store_ctx (s : State) (a : Nat) (bs : Bytes) (j : Nat) : (s.store a bs).ctx j = s.ctx j := rfl
@[simp] theorem State.store_mst (s : State) (a : Nat) (bs : Bytes) (j : Nat) : (s.store a bs).mst j = s.mst j := rfl
@[simp] theorem State.store_engine (s : State) (a : Nat) (bs : Bytes) (j : Nat) : (s.store a bs).engine j = s.engine j := rfl
@[simp] theorem State.store_array (s : State) (a : Nat) (bs : Bytes) (j : Nat) : (s.store a bs).array j = s.array j := rfl
@[simp] theorem State.store_fixer (s : State) (a : Nat) (bs : Bytes) (j : Nat) : (s.store a bs).fixer j = s.fixer j := rfl
@[simp] theorem State.store_port (s : State) (a : Nat) (bs : Bytes) (j : Nat) : (s.store a bs).port j = s.port j := rfl
@[simp] theorem State.store_findCmd (s : State) (a : Nat) (bs : Bytes) (j i : Nat) : (s.store a bs).cmd? j i = s.cmd? j i := rfl

@[simp] theorem State.setQst_pending (s : State) (q : Nat) (x : QueueSt) : (s.setQst q x).pending = s.pending := rfl
@[simp] theorem State.setQst_fuse (s : State) (q : Nat) (x : QueueSt) : (s.setQst q x).fuse = s.fuse := rfl
@[simp] theorem State.setQst_regs (s : State) (q : Nat) (x : QueueSt) : (s.setQst q x).regs = s.regs := rfl
@[simp] theorem State.setQst_dom (s : State) (q : Nat) (x : QueueSt) : (s.setQst q x).dom = s.dom := rfl
@[simp] theorem State.setQst_mem (s : State) (q : Nat) (x : QueueSt) : (s.setQst q x).mem = s.mem := by simp only [State.setQst]
@[simp] theorem State.setQst_dict (s : State) (q : Nat) (x : QueueSt) : (s.setQst q x).dict = s.dict := rfl
@[simp] theorem State.setQst_tick (s : State) (q : Nat) (x : QueueSt) : (s.setQst q x).tick = s.tick := rfl
@[simp] theorem State.setQst_que (s : State) (q : Nat) (x : QueueSt) : (s.setQst q x).que = SMap.put s.que q x := rfl
@[simp] theorem State.setQst_cmds (s : State) (q : Nat) (x : QueueSt) : (s.setQst q x).cmds = s.cmds := rfl
@[simp] theorem State.setQst_ctxs (s : State) (q : Nat) (x : QueueSt) : (s.setQst q x).ctxs = s.ctxs := rfl
@[simp] theorem State.setQst_mus (s : State) (q : Nat) (x : QueueSt) : (s.setQst q x).mus = s.mus := rfl
@[simp] theorem State.setQst_step (s : State) (q : Nat) (x : QueueSt) : (s.setQst q x).step = s.step := rfl
@[simp] theorem State.setQst_eng (s : State) (q : Nat) (x : QueueSt) : (s.setQst q x).eng = s.eng := rfl
@[simp] theorem State.setQst_arr (s : State) (q : Nat) (x : QueueSt) : (s.setQst q x).arr = s.arr := rfl
@[simp] theorem State.setQst_page (s : State) (q : Nat) (x : QueueSt) : (s.setQst q x).page = s.page := rfl
@[simp] theorem State.setQst_num (s : State) (q : Nat) (x : QueueSt) : (s.setQst q x).num = s.num := rfl
@[simp] theorem State.setQst_fix (s : State) (q : Nat) (x : QueueSt) : (s.setQst q x).fix = s.fix := rfl
@[simp] theorem State.setQst_ports (s : State) (q : Nat) (x : QueueSt) : (s.setQst q x).ports = s.ports := rfl
@[simp] theorem State.setQst_red (s : State) (q : Nat) (x : QueueSt) : (s.setQst q x).red = s.red := rfl
@[simp] theorem State.setQst_host (s : State) (q : Nat) (x : QueueSt) : (s.setQst q x).host = s.host := rfl
@[simp] theorem State.setQst_clk (s : State) (q : Nat) (x : QueueSt) : (s.setQst q x).clk = s.clk := rfl
@[simp] theorem State.setQst_pwr (s : State) (q : Nat) (x : QueueSt) : (s.setQst q x).pwr = s.pwr := rfl
@[simp] theorem State.setQst_boot (s : State) (q : Nat) (x : QueueSt) : (s.setQst q x).boot = s.boot := rfl
@[simp] theorem State.setQst_sec (s : State) (q : Nat) (x : QueueSt) : (s.setQst q x).sec = s.sec := rfl
@[simp] theorem State.setQst_obs (s : State) (q : Nat) (x : QueueSt) : (s.setQst q x).obs = s.obs := rfl
@[simp] theorem State.setQst_can (s : State) (q : Nat) (x : QueueSt) : (s.setQst q x).can = s.can := rfl
@[simp] theorem State.setQst_events (s : State) (q : Nat) (x : QueueSt) : (s.setQst q x).events = s.events := rfl
@[simp] theorem State.setQst_out (s : State) (q : Nat) (x : QueueSt) : (s.setQst q x).out = s.out := rfl

@[simp] theorem State.setQst_reg (s : State) (q : Nat) (x : QueueSt) (j : Nat) : (s.setQst q x).reg j = s.reg j := rfl
@[simp] theorem State.setQst_domByte (s : State) (q : Nat) (x : QueueSt) (j i : Nat) : (s.setQst q x).domByte j i = s.domByte j i := rfl
@[simp] theorem State.setQst_load (s : State) (q : Nat) (x : QueueSt) (j m : Nat) : (s.setQst q x).load j m = s.load j m := rfl
@[simp] theorem State.setQst_ctx (s : State) (q : Nat) (x : QueueSt) (j : Nat) : (s.setQst q x).ctx j = s.ctx j := rfl
@[simp] theorem State.setQst_mst (s : State) (q : Nat) (x : QueueSt) (j : Nat) : (s.setQst q x).mst j = s.mst j := rfl
@[simp] theorem State.setQst_engine (s : State) (q : Nat) (x : QueueSt) (j : Nat) : (s.setQst q x).engine j = s.engine j := rfl
@[simp] theorem State.setQst_array (s : State) (q : Nat) (x : QueueSt) (j : Nat) : (s.setQst q x).array j = s.array j := rfl
@[simp] theorem State.setQst_fixer (s : State) (q : Nat) (x : QueueSt) (j : Nat) : (s.setQst q x).fixer j = s.fixer j := rfl
@[simp] theorem State.setQst_port (s : State) (q : Nat) (x : QueueSt) (j : Nat) : (s.setQst q x).port j = s.port j := rfl
@[simp] theorem State.setQst_findCmd (s : State) (q : Nat) (x : QueueSt) (j i : Nat) : (s.setQst q x).cmd? j i = s.cmd? j i := rfl

@[simp] theorem State.setCtx_pending (s : State) (c : Nat) (x : Ctx) : (s.setCtx c x).pending = s.pending := rfl
@[simp] theorem State.setCtx_fuse (s : State) (c : Nat) (x : Ctx) : (s.setCtx c x).fuse = s.fuse := rfl
@[simp] theorem State.setCtx_regs (s : State) (c : Nat) (x : Ctx) : (s.setCtx c x).regs = s.regs := rfl
@[simp] theorem State.setCtx_dom (s : State) (c : Nat) (x : Ctx) : (s.setCtx c x).dom = s.dom := rfl
@[simp] theorem State.setCtx_mem (s : State) (c : Nat) (x : Ctx) : (s.setCtx c x).mem = s.mem := by simp only [State.setCtx]
@[simp] theorem State.setCtx_dict (s : State) (c : Nat) (x : Ctx) : (s.setCtx c x).dict = s.dict := rfl
@[simp] theorem State.setCtx_tick (s : State) (c : Nat) (x : Ctx) : (s.setCtx c x).tick = s.tick := rfl
@[simp] theorem State.setCtx_que (s : State) (c : Nat) (x : Ctx) : (s.setCtx c x).que = s.que := rfl
@[simp] theorem State.setCtx_cmds (s : State) (c : Nat) (x : Ctx) : (s.setCtx c x).cmds = s.cmds := rfl
@[simp] theorem State.setCtx_ctxs (s : State) (c : Nat) (x : Ctx) : (s.setCtx c x).ctxs = SMap.put s.ctxs c x := rfl
@[simp] theorem State.setCtx_mus (s : State) (c : Nat) (x : Ctx) : (s.setCtx c x).mus = s.mus := rfl
@[simp] theorem State.setCtx_step (s : State) (c : Nat) (x : Ctx) : (s.setCtx c x).step = s.step := rfl
@[simp] theorem State.setCtx_eng (s : State) (c : Nat) (x : Ctx) : (s.setCtx c x).eng = s.eng := rfl
@[simp] theorem State.setCtx_arr (s : State) (c : Nat) (x : Ctx) : (s.setCtx c x).arr = s.arr := rfl
@[simp] theorem State.setCtx_page (s : State) (c : Nat) (x : Ctx) : (s.setCtx c x).page = s.page := rfl
@[simp] theorem State.setCtx_num (s : State) (c : Nat) (x : Ctx) : (s.setCtx c x).num = s.num := rfl
@[simp] theorem State.setCtx_fix (s : State) (c : Nat) (x : Ctx) : (s.setCtx c x).fix = s.fix := rfl
@[simp] theorem State.setCtx_ports (s : State) (c : Nat) (x : Ctx) : (s.setCtx c x).ports = s.ports := rfl
@[simp] theorem State.setCtx_red (s : State) (c : Nat) (x : Ctx) : (s.setCtx c x).red = s.red := rfl
@[simp] theorem State.setCtx_host (s : State) (c : Nat) (x : Ctx) : (s.setCtx c x).host = s.host := rfl
@[simp] theorem State.setCtx_clk (s : State) (c : Nat) (x : Ctx) : (s.setCtx c x).clk = s.clk := rfl
@[simp] theorem State.setCtx_pwr (s : State) (c : Nat) (x : Ctx) : (s.setCtx c x).pwr = s.pwr := rfl
@[simp] theorem State.setCtx_boot (s : State) (c : Nat) (x : Ctx) : (s.setCtx c x).boot = s.boot := rfl
@[simp] theorem State.setCtx_sec (s : State) (c : Nat) (x : Ctx) : (s.setCtx c x).sec = s.sec := rfl
@[simp] theorem State.setCtx_obs (s : State) (c : Nat) (x : Ctx) : (s.setCtx c x).obs = s.obs := rfl
@[simp] theorem State.setCtx_can (s : State) (c : Nat) (x : Ctx) : (s.setCtx c x).can = s.can := rfl
@[simp] theorem State.setCtx_events (s : State) (c : Nat) (x : Ctx) : (s.setCtx c x).events = s.events := rfl
@[simp] theorem State.setCtx_out (s : State) (c : Nat) (x : Ctx) : (s.setCtx c x).out = s.out := rfl

@[simp] theorem State.setCtx_reg (s : State) (c : Nat) (x : Ctx) (j : Nat) : (s.setCtx c x).reg j = s.reg j := rfl
@[simp] theorem State.setCtx_domByte (s : State) (c : Nat) (x : Ctx) (j i : Nat) : (s.setCtx c x).domByte j i = s.domByte j i := rfl
@[simp] theorem State.setCtx_load (s : State) (c : Nat) (x : Ctx) (j m : Nat) : (s.setCtx c x).load j m = s.load j m := rfl
@[simp] theorem State.setCtx_qst (s : State) (c : Nat) (x : Ctx) (j : Nat) : (s.setCtx c x).qst j = s.qst j := rfl
@[simp] theorem State.setCtx_mst (s : State) (c : Nat) (x : Ctx) (j : Nat) : (s.setCtx c x).mst j = s.mst j := rfl
@[simp] theorem State.setCtx_engine (s : State) (c : Nat) (x : Ctx) (j : Nat) : (s.setCtx c x).engine j = s.engine j := rfl
@[simp] theorem State.setCtx_array (s : State) (c : Nat) (x : Ctx) (j : Nat) : (s.setCtx c x).array j = s.array j := rfl
@[simp] theorem State.setCtx_fixer (s : State) (c : Nat) (x : Ctx) (j : Nat) : (s.setCtx c x).fixer j = s.fixer j := rfl
@[simp] theorem State.setCtx_port (s : State) (c : Nat) (x : Ctx) (j : Nat) : (s.setCtx c x).port j = s.port j := rfl
@[simp] theorem State.setCtx_findCmd (s : State) (c : Nat) (x : Ctx) (j i : Nat) : (s.setCtx c x).cmd? j i = s.cmd? j i := rfl

@[simp] theorem State.setMst_pending (s : State) (m : Nat) (x : Muster) : (s.setMst m x).pending = s.pending := rfl
@[simp] theorem State.setMst_fuse (s : State) (m : Nat) (x : Muster) : (s.setMst m x).fuse = s.fuse := rfl
@[simp] theorem State.setMst_regs (s : State) (m : Nat) (x : Muster) : (s.setMst m x).regs = s.regs := rfl
@[simp] theorem State.setMst_dom (s : State) (m : Nat) (x : Muster) : (s.setMst m x).dom = s.dom := rfl
@[simp] theorem State.setMst_mem (s : State) (m : Nat) (x : Muster) : (s.setMst m x).mem = s.mem := by simp only [State.setMst]
@[simp] theorem State.setMst_dict (s : State) (m : Nat) (x : Muster) : (s.setMst m x).dict = s.dict := rfl
@[simp] theorem State.setMst_tick (s : State) (m : Nat) (x : Muster) : (s.setMst m x).tick = s.tick := rfl
@[simp] theorem State.setMst_que (s : State) (m : Nat) (x : Muster) : (s.setMst m x).que = s.que := rfl
@[simp] theorem State.setMst_cmds (s : State) (m : Nat) (x : Muster) : (s.setMst m x).cmds = s.cmds := rfl
@[simp] theorem State.setMst_ctxs (s : State) (m : Nat) (x : Muster) : (s.setMst m x).ctxs = s.ctxs := rfl
@[simp] theorem State.setMst_mus (s : State) (m : Nat) (x : Muster) : (s.setMst m x).mus = SMap.put s.mus m x := rfl
@[simp] theorem State.setMst_step (s : State) (m : Nat) (x : Muster) : (s.setMst m x).step = s.step := rfl
@[simp] theorem State.setMst_eng (s : State) (m : Nat) (x : Muster) : (s.setMst m x).eng = s.eng := rfl
@[simp] theorem State.setMst_arr (s : State) (m : Nat) (x : Muster) : (s.setMst m x).arr = s.arr := rfl
@[simp] theorem State.setMst_page (s : State) (m : Nat) (x : Muster) : (s.setMst m x).page = s.page := rfl
@[simp] theorem State.setMst_num (s : State) (m : Nat) (x : Muster) : (s.setMst m x).num = s.num := rfl
@[simp] theorem State.setMst_fix (s : State) (m : Nat) (x : Muster) : (s.setMst m x).fix = s.fix := rfl
@[simp] theorem State.setMst_ports (s : State) (m : Nat) (x : Muster) : (s.setMst m x).ports = s.ports := rfl
@[simp] theorem State.setMst_red (s : State) (m : Nat) (x : Muster) : (s.setMst m x).red = s.red := rfl
@[simp] theorem State.setMst_host (s : State) (m : Nat) (x : Muster) : (s.setMst m x).host = s.host := rfl
@[simp] theorem State.setMst_clk (s : State) (m : Nat) (x : Muster) : (s.setMst m x).clk = s.clk := rfl
@[simp] theorem State.setMst_pwr (s : State) (m : Nat) (x : Muster) : (s.setMst m x).pwr = s.pwr := rfl
@[simp] theorem State.setMst_boot (s : State) (m : Nat) (x : Muster) : (s.setMst m x).boot = s.boot := rfl
@[simp] theorem State.setMst_sec (s : State) (m : Nat) (x : Muster) : (s.setMst m x).sec = s.sec := rfl
@[simp] theorem State.setMst_obs (s : State) (m : Nat) (x : Muster) : (s.setMst m x).obs = s.obs := rfl
@[simp] theorem State.setMst_can (s : State) (m : Nat) (x : Muster) : (s.setMst m x).can = s.can := rfl
@[simp] theorem State.setMst_events (s : State) (m : Nat) (x : Muster) : (s.setMst m x).events = s.events := rfl
@[simp] theorem State.setMst_out (s : State) (m : Nat) (x : Muster) : (s.setMst m x).out = s.out := rfl

@[simp] theorem State.setMst_reg (s : State) (m : Nat) (x : Muster) (j : Nat) : (s.setMst m x).reg j = s.reg j := rfl
@[simp] theorem State.setMst_domByte (s : State) (m : Nat) (x : Muster) (j i : Nat) : (s.setMst m x).domByte j i = s.domByte j i := rfl
@[simp] theorem State.setMst_load (s : State) (m : Nat) (x : Muster) (j n : Nat) : (s.setMst m x).load j n = s.load j n := rfl
@[simp] theorem State.setMst_qst (s : State) (m : Nat) (x : Muster) (j : Nat) : (s.setMst m x).qst j = s.qst j := rfl
@[simp] theorem State.setMst_ctx (s : State) (m : Nat) (x : Muster) (j : Nat) : (s.setMst m x).ctx j = s.ctx j := rfl
@[simp] theorem State.setMst_engine (s : State) (m : Nat) (x : Muster) (j : Nat) : (s.setMst m x).engine j = s.engine j := rfl
@[simp] theorem State.setMst_array (s : State) (m : Nat) (x : Muster) (j : Nat) : (s.setMst m x).array j = s.array j := rfl
@[simp] theorem State.setMst_fixer (s : State) (m : Nat) (x : Muster) (j : Nat) : (s.setMst m x).fixer j = s.fixer j := rfl
@[simp] theorem State.setMst_port (s : State) (m : Nat) (x : Muster) (j : Nat) : (s.setMst m x).port j = s.port j := rfl
@[simp] theorem State.setMst_findCmd (s : State) (m : Nat) (x : Muster) (j i : Nat) : (s.setMst m x).cmd? j i = s.cmd? j i := rfl

@[simp] theorem State.setEngine_pending (s : State) (k : Nat) (x : EngineSt) : (s.setEngine k x).pending = s.pending := rfl
@[simp] theorem State.setEngine_fuse (s : State) (k : Nat) (x : EngineSt) : (s.setEngine k x).fuse = s.fuse := rfl
@[simp] theorem State.setEngine_regs (s : State) (k : Nat) (x : EngineSt) : (s.setEngine k x).regs = s.regs := rfl
@[simp] theorem State.setEngine_dom (s : State) (k : Nat) (x : EngineSt) : (s.setEngine k x).dom = s.dom := rfl
@[simp] theorem State.setEngine_mem (s : State) (k : Nat) (x : EngineSt) : (s.setEngine k x).mem = s.mem := by simp only [State.setEngine]
@[simp] theorem State.setEngine_dict (s : State) (k : Nat) (x : EngineSt) : (s.setEngine k x).dict = s.dict := rfl
@[simp] theorem State.setEngine_tick (s : State) (k : Nat) (x : EngineSt) : (s.setEngine k x).tick = s.tick := rfl
@[simp] theorem State.setEngine_que (s : State) (k : Nat) (x : EngineSt) : (s.setEngine k x).que = s.que := rfl
@[simp] theorem State.setEngine_cmds (s : State) (k : Nat) (x : EngineSt) : (s.setEngine k x).cmds = s.cmds := rfl
@[simp] theorem State.setEngine_ctxs (s : State) (k : Nat) (x : EngineSt) : (s.setEngine k x).ctxs = s.ctxs := rfl
@[simp] theorem State.setEngine_mus (s : State) (k : Nat) (x : EngineSt) : (s.setEngine k x).mus = s.mus := rfl
@[simp] theorem State.setEngine_step (s : State) (k : Nat) (x : EngineSt) : (s.setEngine k x).step = s.step := rfl
@[simp] theorem State.setEngine_eng (s : State) (k : Nat) (x : EngineSt) : (s.setEngine k x).eng = SMap.put s.eng k x := rfl
@[simp] theorem State.setEngine_arr (s : State) (k : Nat) (x : EngineSt) : (s.setEngine k x).arr = s.arr := rfl
@[simp] theorem State.setEngine_page (s : State) (k : Nat) (x : EngineSt) : (s.setEngine k x).page = s.page := rfl
@[simp] theorem State.setEngine_num (s : State) (k : Nat) (x : EngineSt) : (s.setEngine k x).num = s.num := rfl
@[simp] theorem State.setEngine_fix (s : State) (k : Nat) (x : EngineSt) : (s.setEngine k x).fix = s.fix := rfl
@[simp] theorem State.setEngine_ports (s : State) (k : Nat) (x : EngineSt) : (s.setEngine k x).ports = s.ports := rfl
@[simp] theorem State.setEngine_red (s : State) (k : Nat) (x : EngineSt) : (s.setEngine k x).red = s.red := rfl
@[simp] theorem State.setEngine_host (s : State) (k : Nat) (x : EngineSt) : (s.setEngine k x).host = s.host := rfl
@[simp] theorem State.setEngine_clk (s : State) (k : Nat) (x : EngineSt) : (s.setEngine k x).clk = s.clk := rfl
@[simp] theorem State.setEngine_pwr (s : State) (k : Nat) (x : EngineSt) : (s.setEngine k x).pwr = s.pwr := rfl
@[simp] theorem State.setEngine_boot (s : State) (k : Nat) (x : EngineSt) : (s.setEngine k x).boot = s.boot := rfl
@[simp] theorem State.setEngine_sec (s : State) (k : Nat) (x : EngineSt) : (s.setEngine k x).sec = s.sec := rfl
@[simp] theorem State.setEngine_obs (s : State) (k : Nat) (x : EngineSt) : (s.setEngine k x).obs = s.obs := rfl
@[simp] theorem State.setEngine_can (s : State) (k : Nat) (x : EngineSt) : (s.setEngine k x).can = s.can := rfl
@[simp] theorem State.setEngine_events (s : State) (k : Nat) (x : EngineSt) : (s.setEngine k x).events = s.events := rfl
@[simp] theorem State.setEngine_out (s : State) (k : Nat) (x : EngineSt) : (s.setEngine k x).out = s.out := rfl

@[simp] theorem State.setEngine_reg (s : State) (k : Nat) (x : EngineSt) (j : Nat) : (s.setEngine k x).reg j = s.reg j := rfl
@[simp] theorem State.setEngine_domByte (s : State) (k : Nat) (x : EngineSt) (j i : Nat) : (s.setEngine k x).domByte j i = s.domByte j i := rfl
@[simp] theorem State.setEngine_load (s : State) (k : Nat) (x : EngineSt) (j m : Nat) : (s.setEngine k x).load j m = s.load j m := rfl
@[simp] theorem State.setEngine_qst (s : State) (k : Nat) (x : EngineSt) (j : Nat) : (s.setEngine k x).qst j = s.qst j := rfl
@[simp] theorem State.setEngine_ctx (s : State) (k : Nat) (x : EngineSt) (j : Nat) : (s.setEngine k x).ctx j = s.ctx j := rfl
@[simp] theorem State.setEngine_mst (s : State) (k : Nat) (x : EngineSt) (j : Nat) : (s.setEngine k x).mst j = s.mst j := rfl
@[simp] theorem State.setEngine_array (s : State) (k : Nat) (x : EngineSt) (j : Nat) : (s.setEngine k x).array j = s.array j := rfl
@[simp] theorem State.setEngine_fixer (s : State) (k : Nat) (x : EngineSt) (j : Nat) : (s.setEngine k x).fixer j = s.fixer j := rfl
@[simp] theorem State.setEngine_port (s : State) (k : Nat) (x : EngineSt) (j : Nat) : (s.setEngine k x).port j = s.port j := rfl
@[simp] theorem State.setEngine_findCmd (s : State) (k : Nat) (x : EngineSt) (j i : Nat) : (s.setEngine k x).cmd? j i = s.cmd? j i := rfl

@[simp] theorem State.setFixer_pending (s : State) (f : Nat) (x : FixSt) : (s.setFixer f x).pending = s.pending := rfl
@[simp] theorem State.setFixer_fuse (s : State) (f : Nat) (x : FixSt) : (s.setFixer f x).fuse = s.fuse := rfl
@[simp] theorem State.setFixer_regs (s : State) (f : Nat) (x : FixSt) : (s.setFixer f x).regs = s.regs := rfl
@[simp] theorem State.setFixer_dom (s : State) (f : Nat) (x : FixSt) : (s.setFixer f x).dom = s.dom := rfl
@[simp] theorem State.setFixer_mem (s : State) (f : Nat) (x : FixSt) : (s.setFixer f x).mem = s.mem := by simp only [State.setFixer]
@[simp] theorem State.setFixer_dict (s : State) (f : Nat) (x : FixSt) : (s.setFixer f x).dict = s.dict := rfl
@[simp] theorem State.setFixer_tick (s : State) (f : Nat) (x : FixSt) : (s.setFixer f x).tick = s.tick := rfl
@[simp] theorem State.setFixer_que (s : State) (f : Nat) (x : FixSt) : (s.setFixer f x).que = s.que := rfl
@[simp] theorem State.setFixer_cmds (s : State) (f : Nat) (x : FixSt) : (s.setFixer f x).cmds = s.cmds := rfl
@[simp] theorem State.setFixer_ctxs (s : State) (f : Nat) (x : FixSt) : (s.setFixer f x).ctxs = s.ctxs := rfl
@[simp] theorem State.setFixer_mus (s : State) (f : Nat) (x : FixSt) : (s.setFixer f x).mus = s.mus := rfl
@[simp] theorem State.setFixer_step (s : State) (f : Nat) (x : FixSt) : (s.setFixer f x).step = s.step := rfl
@[simp] theorem State.setFixer_eng (s : State) (f : Nat) (x : FixSt) : (s.setFixer f x).eng = s.eng := rfl
@[simp] theorem State.setFixer_arr (s : State) (f : Nat) (x : FixSt) : (s.setFixer f x).arr = s.arr := rfl
@[simp] theorem State.setFixer_page (s : State) (f : Nat) (x : FixSt) : (s.setFixer f x).page = s.page := rfl
@[simp] theorem State.setFixer_num (s : State) (f : Nat) (x : FixSt) : (s.setFixer f x).num = s.num := rfl
@[simp] theorem State.setFixer_fix (s : State) (f : Nat) (x : FixSt) : (s.setFixer f x).fix = SMap.put s.fix f x := rfl
@[simp] theorem State.setFixer_ports (s : State) (f : Nat) (x : FixSt) : (s.setFixer f x).ports = s.ports := rfl
@[simp] theorem State.setFixer_red (s : State) (f : Nat) (x : FixSt) : (s.setFixer f x).red = s.red := rfl
@[simp] theorem State.setFixer_host (s : State) (f : Nat) (x : FixSt) : (s.setFixer f x).host = s.host := rfl
@[simp] theorem State.setFixer_clk (s : State) (f : Nat) (x : FixSt) : (s.setFixer f x).clk = s.clk := rfl
@[simp] theorem State.setFixer_pwr (s : State) (f : Nat) (x : FixSt) : (s.setFixer f x).pwr = s.pwr := rfl
@[simp] theorem State.setFixer_boot (s : State) (f : Nat) (x : FixSt) : (s.setFixer f x).boot = s.boot := rfl
@[simp] theorem State.setFixer_sec (s : State) (f : Nat) (x : FixSt) : (s.setFixer f x).sec = s.sec := rfl
@[simp] theorem State.setFixer_obs (s : State) (f : Nat) (x : FixSt) : (s.setFixer f x).obs = s.obs := rfl
@[simp] theorem State.setFixer_can (s : State) (f : Nat) (x : FixSt) : (s.setFixer f x).can = s.can := rfl
@[simp] theorem State.setFixer_events (s : State) (f : Nat) (x : FixSt) : (s.setFixer f x).events = s.events := rfl
@[simp] theorem State.setFixer_out (s : State) (f : Nat) (x : FixSt) : (s.setFixer f x).out = s.out := rfl

@[simp] theorem State.setFixer_reg (s : State) (f : Nat) (x : FixSt) (j : Nat) : (s.setFixer f x).reg j = s.reg j := rfl
@[simp] theorem State.setFixer_domByte (s : State) (f : Nat) (x : FixSt) (j i : Nat) : (s.setFixer f x).domByte j i = s.domByte j i := rfl
@[simp] theorem State.setFixer_load (s : State) (f : Nat) (x : FixSt) (j m : Nat) : (s.setFixer f x).load j m = s.load j m := rfl
@[simp] theorem State.setFixer_qst (s : State) (f : Nat) (x : FixSt) (j : Nat) : (s.setFixer f x).qst j = s.qst j := rfl
@[simp] theorem State.setFixer_ctx (s : State) (f : Nat) (x : FixSt) (j : Nat) : (s.setFixer f x).ctx j = s.ctx j := rfl
@[simp] theorem State.setFixer_mst (s : State) (f : Nat) (x : FixSt) (j : Nat) : (s.setFixer f x).mst j = s.mst j := rfl
@[simp] theorem State.setFixer_engine (s : State) (f : Nat) (x : FixSt) (j : Nat) : (s.setFixer f x).engine j = s.engine j := rfl
@[simp] theorem State.setFixer_array (s : State) (f : Nat) (x : FixSt) (j : Nat) : (s.setFixer f x).array j = s.array j := rfl
@[simp] theorem State.setFixer_port (s : State) (f : Nat) (x : FixSt) (j : Nat) : (s.setFixer f x).port j = s.port j := rfl
@[simp] theorem State.setFixer_findCmd (s : State) (f : Nat) (x : FixSt) (j i : Nat) : (s.setFixer f x).cmd? j i = s.cmd? j i := rfl

@[simp] theorem State.setArray_pending (s : State) (k : Nat) (x : ArraySt) : (s.setArray k x).pending = s.pending := rfl
@[simp] theorem State.setArray_fuse (s : State) (k : Nat) (x : ArraySt) : (s.setArray k x).fuse = s.fuse := rfl
@[simp] theorem State.setArray_regs (s : State) (k : Nat) (x : ArraySt) : (s.setArray k x).regs = s.regs := rfl
@[simp] theorem State.setArray_dom (s : State) (k : Nat) (x : ArraySt) : (s.setArray k x).dom = s.dom := rfl
@[simp] theorem State.setArray_mem (s : State) (k : Nat) (x : ArraySt) : (s.setArray k x).mem = s.mem := by simp only [State.setArray]
@[simp] theorem State.setArray_dict (s : State) (k : Nat) (x : ArraySt) : (s.setArray k x).dict = s.dict := rfl
@[simp] theorem State.setArray_tick (s : State) (k : Nat) (x : ArraySt) : (s.setArray k x).tick = s.tick := rfl
@[simp] theorem State.setArray_que (s : State) (k : Nat) (x : ArraySt) : (s.setArray k x).que = s.que := rfl
@[simp] theorem State.setArray_cmds (s : State) (k : Nat) (x : ArraySt) : (s.setArray k x).cmds = s.cmds := rfl
@[simp] theorem State.setArray_ctxs (s : State) (k : Nat) (x : ArraySt) : (s.setArray k x).ctxs = s.ctxs := rfl
@[simp] theorem State.setArray_mus (s : State) (k : Nat) (x : ArraySt) : (s.setArray k x).mus = s.mus := rfl
@[simp] theorem State.setArray_step (s : State) (k : Nat) (x : ArraySt) : (s.setArray k x).step = s.step := rfl
@[simp] theorem State.setArray_eng (s : State) (k : Nat) (x : ArraySt) : (s.setArray k x).eng = s.eng := rfl
@[simp] theorem State.setArray_arr (s : State) (k : Nat) (x : ArraySt) : (s.setArray k x).arr = SMap.put s.arr k x := rfl
@[simp] theorem State.setArray_page (s : State) (k : Nat) (x : ArraySt) : (s.setArray k x).page = s.page := rfl
@[simp] theorem State.setArray_num (s : State) (k : Nat) (x : ArraySt) : (s.setArray k x).num = s.num := rfl
@[simp] theorem State.setArray_fix (s : State) (k : Nat) (x : ArraySt) : (s.setArray k x).fix = s.fix := rfl
@[simp] theorem State.setArray_ports (s : State) (k : Nat) (x : ArraySt) : (s.setArray k x).ports = s.ports := rfl
@[simp] theorem State.setArray_red (s : State) (k : Nat) (x : ArraySt) : (s.setArray k x).red = s.red := rfl
@[simp] theorem State.setArray_host (s : State) (k : Nat) (x : ArraySt) : (s.setArray k x).host = s.host := rfl
@[simp] theorem State.setArray_clk (s : State) (k : Nat) (x : ArraySt) : (s.setArray k x).clk = s.clk := rfl
@[simp] theorem State.setArray_pwr (s : State) (k : Nat) (x : ArraySt) : (s.setArray k x).pwr = s.pwr := rfl
@[simp] theorem State.setArray_boot (s : State) (k : Nat) (x : ArraySt) : (s.setArray k x).boot = s.boot := rfl
@[simp] theorem State.setArray_sec (s : State) (k : Nat) (x : ArraySt) : (s.setArray k x).sec = s.sec := rfl
@[simp] theorem State.setArray_obs (s : State) (k : Nat) (x : ArraySt) : (s.setArray k x).obs = s.obs := rfl
@[simp] theorem State.setArray_can (s : State) (k : Nat) (x : ArraySt) : (s.setArray k x).can = s.can := rfl
@[simp] theorem State.setArray_events (s : State) (k : Nat) (x : ArraySt) : (s.setArray k x).events = s.events := rfl
@[simp] theorem State.setArray_out (s : State) (k : Nat) (x : ArraySt) : (s.setArray k x).out = s.out := rfl
@[simp] theorem State.setArray_reg (s : State) (k : Nat) (x : ArraySt) (j : Nat) : (s.setArray k x).reg j = s.reg j := rfl
@[simp] theorem State.setArray_domByte (s : State) (k : Nat) (x : ArraySt) (j i : Nat) : (s.setArray k x).domByte j i = s.domByte j i := rfl
@[simp] theorem State.setArray_load (s : State) (k : Nat) (x : ArraySt) (j m : Nat) : (s.setArray k x).load j m = s.load j m := rfl
@[simp] theorem State.setArray_qst (s : State) (k : Nat) (x : ArraySt) (j : Nat) : (s.setArray k x).qst j = s.qst j := rfl
@[simp] theorem State.setArray_ctx (s : State) (k : Nat) (x : ArraySt) (j : Nat) : (s.setArray k x).ctx j = s.ctx j := rfl
@[simp] theorem State.setArray_mst (s : State) (k : Nat) (x : ArraySt) (j : Nat) : (s.setArray k x).mst j = s.mst j := rfl
@[simp] theorem State.setArray_engine (s : State) (k : Nat) (x : ArraySt) (j : Nat) : (s.setArray k x).engine j = s.engine j := rfl
@[simp] theorem State.setArray_fixer (s : State) (k : Nat) (x : ArraySt) (j : Nat) : (s.setArray k x).fixer j = s.fixer j := rfl
@[simp] theorem State.setArray_port (s : State) (k : Nat) (x : ArraySt) (j : Nat) : (s.setArray k x).port j = s.port j := rfl
@[simp] theorem State.setArray_findCmd (s : State) (k : Nat) (x : ArraySt) (j i : Nat) : (s.setArray k x).cmd? j i = s.cmd? j i := rfl

@[simp] theorem State.wake_pending (s : State) (die unit : Nat) : (s.wake die unit).pending = s.pending := rfl
@[simp] theorem State.wake_fuse (s : State) (die unit : Nat) : (s.wake die unit).fuse = s.fuse := rfl
@[simp] theorem State.wake_regs (s : State) (die unit : Nat) : (s.wake die unit).regs = s.regs := rfl
@[simp] theorem State.wake_dom (s : State) (die unit : Nat) : (s.wake die unit).dom = s.dom := rfl
@[simp] theorem State.wake_mem (s : State) (die unit : Nat) : (s.wake die unit).mem = s.mem := by simp only [State.wake]
@[simp] theorem State.wake_dict (s : State) (die unit : Nat) : (s.wake die unit).dict = s.dict := rfl
@[simp] theorem State.wake_tick (s : State) (die unit : Nat) : (s.wake die unit).tick = s.tick := rfl
@[simp] theorem State.wake_que (s : State) (die unit : Nat) : (s.wake die unit).que = s.que := rfl
@[simp] theorem State.wake_cmds (s : State) (die unit : Nat) : (s.wake die unit).cmds = s.cmds := rfl
@[simp] theorem State.wake_ctxs (s : State) (die unit : Nat) : (s.wake die unit).ctxs = s.ctxs := rfl
@[simp] theorem State.wake_mus (s : State) (die unit : Nat) : (s.wake die unit).mus = s.mus := rfl
@[simp] theorem State.wake_step (s : State) (die unit : Nat) : (s.wake die unit).step = s.step := rfl
@[simp] theorem State.wake_eng (s : State) (die unit : Nat) : (s.wake die unit).eng = s.eng := rfl
@[simp] theorem State.wake_arr (s : State) (die unit : Nat) : (s.wake die unit).arr = s.arr := rfl
@[simp] theorem State.wake_page (s : State) (die unit : Nat) : (s.wake die unit).page =
    { s.page with retained := s.page.retained.filter fun r => !decide (r = (die, unit)) } := rfl
@[simp] theorem State.wake_num (s : State) (die unit : Nat) : (s.wake die unit).num = s.num := rfl
@[simp] theorem State.wake_fix (s : State) (die unit : Nat) : (s.wake die unit).fix = s.fix := rfl
@[simp] theorem State.wake_ports (s : State) (die unit : Nat) : (s.wake die unit).ports = s.ports := rfl
@[simp] theorem State.wake_red (s : State) (die unit : Nat) : (s.wake die unit).red = s.red := rfl
@[simp] theorem State.wake_host (s : State) (die unit : Nat) : (s.wake die unit).host = s.host := rfl
@[simp] theorem State.wake_clk (s : State) (die unit : Nat) : (s.wake die unit).clk = s.clk := rfl
@[simp] theorem State.wake_pwr (s : State) (die unit : Nat) : (s.wake die unit).pwr = s.pwr := rfl
@[simp] theorem State.wake_boot (s : State) (die unit : Nat) : (s.wake die unit).boot = s.boot := rfl
@[simp] theorem State.wake_sec (s : State) (die unit : Nat) : (s.wake die unit).sec = s.sec := rfl
@[simp] theorem State.wake_obs (s : State) (die unit : Nat) : (s.wake die unit).obs = s.obs := rfl
@[simp] theorem State.wake_can (s : State) (die unit : Nat) : (s.wake die unit).can = s.can := rfl
@[simp] theorem State.wake_events (s : State) (die unit : Nat) : (s.wake die unit).events = s.events := rfl
@[simp] theorem State.wake_out (s : State) (die unit : Nat) : (s.wake die unit).out = s.out := rfl
@[simp] theorem State.wake_reg (s : State) (die unit : Nat) (j : Nat) : (s.wake die unit).reg j = s.reg j := rfl
@[simp] theorem State.wake_domByte (s : State) (die unit : Nat) (j i : Nat) : (s.wake die unit).domByte j i = s.domByte j i := rfl
@[simp] theorem State.wake_load (s : State) (die unit : Nat) (j m : Nat) : (s.wake die unit).load j m = s.load j m := rfl
@[simp] theorem State.wake_qst (s : State) (die unit : Nat) (j : Nat) : (s.wake die unit).qst j = s.qst j := rfl
@[simp] theorem State.wake_ctx (s : State) (die unit : Nat) (j : Nat) : (s.wake die unit).ctx j = s.ctx j := rfl
@[simp] theorem State.wake_mst (s : State) (die unit : Nat) (j : Nat) : (s.wake die unit).mst j = s.mst j := rfl
@[simp] theorem State.wake_engine (s : State) (die unit : Nat) (j : Nat) : (s.wake die unit).engine j = s.engine j := rfl
@[simp] theorem State.wake_array (s : State) (die unit : Nat) (j : Nat) : (s.wake die unit).array j = s.array j := rfl
@[simp] theorem State.wake_port (s : State) (die unit : Nat) (j : Nat) : (s.wake die unit).port j = s.port j := rfl
@[simp] theorem State.wake_findCmd (s : State) (die unit : Nat) (j i : Nat) : (s.wake die unit).cmd? j i = s.cmd? j i := rfl
@[simp] theorem State.wake_fixer (s : State) (die unit : Nat) (j : Nat) : (s.wake die unit).fixer j = s.fixer j := rfl

@[simp] theorem State.setPort_pending (s : State) (p : Nat) (x : PortSt) : (s.setPort p x).pending = s.pending := rfl
@[simp] theorem State.setPort_fuse (s : State) (p : Nat) (x : PortSt) : (s.setPort p x).fuse = s.fuse := rfl
@[simp] theorem State.setPort_regs (s : State) (p : Nat) (x : PortSt) : (s.setPort p x).regs = s.regs := rfl
@[simp] theorem State.setPort_dom (s : State) (p : Nat) (x : PortSt) : (s.setPort p x).dom = s.dom := rfl
@[simp] theorem State.setPort_mem (s : State) (p : Nat) (x : PortSt) : (s.setPort p x).mem = s.mem := by simp only [State.setPort]
@[simp] theorem State.setPort_dict (s : State) (p : Nat) (x : PortSt) : (s.setPort p x).dict = s.dict := rfl
@[simp] theorem State.setPort_tick (s : State) (p : Nat) (x : PortSt) : (s.setPort p x).tick = s.tick := rfl
@[simp] theorem State.setPort_que (s : State) (p : Nat) (x : PortSt) : (s.setPort p x).que = s.que := rfl
@[simp] theorem State.setPort_cmds (s : State) (p : Nat) (x : PortSt) : (s.setPort p x).cmds = s.cmds := rfl
@[simp] theorem State.setPort_ctxs (s : State) (p : Nat) (x : PortSt) : (s.setPort p x).ctxs = s.ctxs := rfl
@[simp] theorem State.setPort_mus (s : State) (p : Nat) (x : PortSt) : (s.setPort p x).mus = s.mus := rfl
@[simp] theorem State.setPort_step (s : State) (p : Nat) (x : PortSt) : (s.setPort p x).step = s.step := rfl
@[simp] theorem State.setPort_eng (s : State) (p : Nat) (x : PortSt) : (s.setPort p x).eng = s.eng := rfl
@[simp] theorem State.setPort_arr (s : State) (p : Nat) (x : PortSt) : (s.setPort p x).arr = s.arr := rfl
@[simp] theorem State.setPort_page (s : State) (p : Nat) (x : PortSt) : (s.setPort p x).page = s.page := rfl
@[simp] theorem State.setPort_num (s : State) (p : Nat) (x : PortSt) : (s.setPort p x).num = s.num := rfl
@[simp] theorem State.setPort_fix (s : State) (p : Nat) (x : PortSt) : (s.setPort p x).fix = s.fix := rfl
@[simp] theorem State.setPort_ports (s : State) (p : Nat) (x : PortSt) : (s.setPort p x).ports = SMap.put s.ports p x := rfl
@[simp] theorem State.setPort_red (s : State) (p : Nat) (x : PortSt) : (s.setPort p x).red = s.red := rfl
@[simp] theorem State.setPort_host (s : State) (p : Nat) (x : PortSt) : (s.setPort p x).host = s.host := rfl
@[simp] theorem State.setPort_clk (s : State) (p : Nat) (x : PortSt) : (s.setPort p x).clk = s.clk := rfl
@[simp] theorem State.setPort_pwr (s : State) (p : Nat) (x : PortSt) : (s.setPort p x).pwr = s.pwr := rfl
@[simp] theorem State.setPort_boot (s : State) (p : Nat) (x : PortSt) : (s.setPort p x).boot = s.boot := rfl
@[simp] theorem State.setPort_sec (s : State) (p : Nat) (x : PortSt) : (s.setPort p x).sec = s.sec := rfl
@[simp] theorem State.setPort_obs (s : State) (p : Nat) (x : PortSt) : (s.setPort p x).obs = s.obs := rfl
@[simp] theorem State.setPort_can (s : State) (p : Nat) (x : PortSt) : (s.setPort p x).can = s.can := rfl
@[simp] theorem State.setPort_events (s : State) (p : Nat) (x : PortSt) : (s.setPort p x).events = s.events := rfl
@[simp] theorem State.setPort_out (s : State) (p : Nat) (x : PortSt) : (s.setPort p x).out = s.out := rfl

@[simp] theorem State.setPort_reg (s : State) (p : Nat) (x : PortSt) (j : Nat) : (s.setPort p x).reg j = s.reg j := rfl
@[simp] theorem State.setPort_domByte (s : State) (p : Nat) (x : PortSt) (j i : Nat) : (s.setPort p x).domByte j i = s.domByte j i := rfl
@[simp] theorem State.setPort_load (s : State) (p : Nat) (x : PortSt) (j m : Nat) : (s.setPort p x).load j m = s.load j m := rfl
@[simp] theorem State.setPort_qst (s : State) (p : Nat) (x : PortSt) (j : Nat) : (s.setPort p x).qst j = s.qst j := rfl
@[simp] theorem State.setPort_ctx (s : State) (p : Nat) (x : PortSt) (j : Nat) : (s.setPort p x).ctx j = s.ctx j := rfl
@[simp] theorem State.setPort_mst (s : State) (p : Nat) (x : PortSt) (j : Nat) : (s.setPort p x).mst j = s.mst j := rfl
@[simp] theorem State.setPort_engine (s : State) (p : Nat) (x : PortSt) (j : Nat) : (s.setPort p x).engine j = s.engine j := rfl
@[simp] theorem State.setPort_array (s : State) (p : Nat) (x : PortSt) (j : Nat) : (s.setPort p x).array j = s.array j := rfl
@[simp] theorem State.setPort_fixer (s : State) (p : Nat) (x : PortSt) (j : Nat) : (s.setPort p x).fixer j = s.fixer j := rfl
@[simp] theorem State.setPort_findCmd (s : State) (p : Nat) (x : PortSt) (j i : Nat) : (s.setPort p x).cmd? j i = s.cmd? j i := rfl

@[simp] theorem State.setCmd_pending (s : State) (c : Cmd) : (s.setCmd c).pending = s.pending := rfl
@[simp] theorem State.setCmd_fuse (s : State) (c : Cmd) : (s.setCmd c).fuse = s.fuse := rfl
@[simp] theorem State.setCmd_regs (s : State) (c : Cmd) : (s.setCmd c).regs = s.regs := rfl
@[simp] theorem State.setCmd_dom (s : State) (c : Cmd) : (s.setCmd c).dom = s.dom := rfl
@[simp] theorem State.setCmd_mem (s : State) (c : Cmd) : (s.setCmd c).mem = s.mem := by simp only [State.setCmd]
@[simp] theorem State.setCmd_dict (s : State) (c : Cmd) : (s.setCmd c).dict = s.dict := rfl
@[simp] theorem State.setCmd_tick (s : State) (c : Cmd) : (s.setCmd c).tick = s.tick := rfl
@[simp] theorem State.setCmd_que (s : State) (c : Cmd) : (s.setCmd c).que = s.que := rfl
@[simp] theorem State.setCmd_cmds (s : State) (c : Cmd) : (s.setCmd c).cmds = s.cmds.map fun x => if x.q = c.q ∧ x.slot = c.slot then c else x := rfl
@[simp] theorem State.setCmd_ctxs (s : State) (c : Cmd) : (s.setCmd c).ctxs = s.ctxs := rfl
@[simp] theorem State.setCmd_mus (s : State) (c : Cmd) : (s.setCmd c).mus = s.mus := rfl
@[simp] theorem State.setCmd_step (s : State) (c : Cmd) : (s.setCmd c).step = s.step := rfl
@[simp] theorem State.setCmd_eng (s : State) (c : Cmd) : (s.setCmd c).eng = s.eng := rfl
@[simp] theorem State.setCmd_arr (s : State) (c : Cmd) : (s.setCmd c).arr = s.arr := rfl
@[simp] theorem State.setCmd_page (s : State) (c : Cmd) : (s.setCmd c).page = s.page := rfl
@[simp] theorem State.setCmd_num (s : State) (c : Cmd) : (s.setCmd c).num = s.num := rfl
@[simp] theorem State.setCmd_fix (s : State) (c : Cmd) : (s.setCmd c).fix = s.fix := rfl
@[simp] theorem State.setCmd_ports (s : State) (c : Cmd) : (s.setCmd c).ports = s.ports := rfl
@[simp] theorem State.setCmd_red (s : State) (c : Cmd) : (s.setCmd c).red = s.red := rfl
@[simp] theorem State.setCmd_host (s : State) (c : Cmd) : (s.setCmd c).host = s.host := rfl
@[simp] theorem State.setCmd_clk (s : State) (c : Cmd) : (s.setCmd c).clk = s.clk := rfl
@[simp] theorem State.setCmd_pwr (s : State) (c : Cmd) : (s.setCmd c).pwr = s.pwr := rfl
@[simp] theorem State.setCmd_boot (s : State) (c : Cmd) : (s.setCmd c).boot = s.boot := rfl
@[simp] theorem State.setCmd_sec (s : State) (c : Cmd) : (s.setCmd c).sec = s.sec := rfl
@[simp] theorem State.setCmd_obs (s : State) (c : Cmd) : (s.setCmd c).obs = s.obs := rfl
@[simp] theorem State.setCmd_can (s : State) (c : Cmd) : (s.setCmd c).can = s.can := rfl
@[simp] theorem State.setCmd_events (s : State) (c : Cmd) : (s.setCmd c).events = s.events := rfl
@[simp] theorem State.setCmd_out (s : State) (c : Cmd) : (s.setCmd c).out = s.out := rfl

@[simp] theorem State.setCmd_reg (s : State) (c : Cmd) (j : Nat) : (s.setCmd c).reg j = s.reg j := rfl
@[simp] theorem State.setCmd_domByte (s : State) (c : Cmd) (j i : Nat) : (s.setCmd c).domByte j i = s.domByte j i := rfl
@[simp] theorem State.setCmd_load (s : State) (c : Cmd) (j m : Nat) : (s.setCmd c).load j m = s.load j m := rfl
@[simp] theorem State.setCmd_qst (s : State) (c : Cmd) (j : Nat) : (s.setCmd c).qst j = s.qst j := rfl
@[simp] theorem State.setCmd_ctx (s : State) (c : Cmd) (j : Nat) : (s.setCmd c).ctx j = s.ctx j := rfl
@[simp] theorem State.setCmd_mst (s : State) (c : Cmd) (j : Nat) : (s.setCmd c).mst j = s.mst j := rfl
@[simp] theorem State.setCmd_engine (s : State) (c : Cmd) (j : Nat) : (s.setCmd c).engine j = s.engine j := rfl
@[simp] theorem State.setCmd_array (s : State) (c : Cmd) (j : Nat) : (s.setCmd c).array j = s.array j := rfl
@[simp] theorem State.setCmd_fixer (s : State) (c : Cmd) (j : Nat) : (s.setCmd c).fixer j = s.fixer j := rfl
@[simp] theorem State.setCmd_port (s : State) (c : Cmd) (j : Nat) : (s.setCmd c).port j = s.port j := rfl

@[simp] theorem State.dropCmd_pending (s : State) (q slot : Nat) : (s.dropCmd q slot).pending = s.pending := rfl
@[simp] theorem State.dropCmd_fuse (s : State) (q slot : Nat) : (s.dropCmd q slot).fuse = s.fuse := rfl
@[simp] theorem State.dropCmd_regs (s : State) (q slot : Nat) : (s.dropCmd q slot).regs = s.regs := rfl
@[simp] theorem State.dropCmd_dom (s : State) (q slot : Nat) : (s.dropCmd q slot).dom = s.dom := rfl
@[simp] theorem State.dropCmd_mem (s : State) (q slot : Nat) : (s.dropCmd q slot).mem = s.mem := by simp only [State.dropCmd]
@[simp] theorem State.dropCmd_dict (s : State) (q slot : Nat) : (s.dropCmd q slot).dict = s.dict := rfl
@[simp] theorem State.dropCmd_tick (s : State) (q slot : Nat) : (s.dropCmd q slot).tick = s.tick := rfl
@[simp] theorem State.dropCmd_que (s : State) (q slot : Nat) : (s.dropCmd q slot).que = s.que := rfl
@[simp] theorem State.dropCmd_cmds (s : State) (q slot : Nat) : (s.dropCmd q slot).cmds = s.cmds.filter fun x => !(decide (x.q = q ∧ x.slot = slot)) := rfl
@[simp] theorem State.dropCmd_ctxs (s : State) (q slot : Nat) : (s.dropCmd q slot).ctxs = s.ctxs := rfl
@[simp] theorem State.dropCmd_mus (s : State) (q slot : Nat) : (s.dropCmd q slot).mus = s.mus := rfl
@[simp] theorem State.dropCmd_step (s : State) (q slot : Nat) : (s.dropCmd q slot).step = s.step := rfl
@[simp] theorem State.dropCmd_eng (s : State) (q slot : Nat) : (s.dropCmd q slot).eng = s.eng := rfl
@[simp] theorem State.dropCmd_arr (s : State) (q slot : Nat) : (s.dropCmd q slot).arr = s.arr := rfl
@[simp] theorem State.dropCmd_page (s : State) (q slot : Nat) : (s.dropCmd q slot).page = s.page := rfl
@[simp] theorem State.dropCmd_num (s : State) (q slot : Nat) : (s.dropCmd q slot).num = s.num := rfl
@[simp] theorem State.dropCmd_fix (s : State) (q slot : Nat) : (s.dropCmd q slot).fix = s.fix := rfl
@[simp] theorem State.dropCmd_ports (s : State) (q slot : Nat) : (s.dropCmd q slot).ports = s.ports := rfl
@[simp] theorem State.dropCmd_red (s : State) (q slot : Nat) : (s.dropCmd q slot).red = s.red := rfl
@[simp] theorem State.dropCmd_host (s : State) (q slot : Nat) : (s.dropCmd q slot).host = s.host := rfl
@[simp] theorem State.dropCmd_clk (s : State) (q slot : Nat) : (s.dropCmd q slot).clk = s.clk := rfl
@[simp] theorem State.dropCmd_pwr (s : State) (q slot : Nat) : (s.dropCmd q slot).pwr = s.pwr := rfl
@[simp] theorem State.dropCmd_boot (s : State) (q slot : Nat) : (s.dropCmd q slot).boot = s.boot := rfl
@[simp] theorem State.dropCmd_sec (s : State) (q slot : Nat) : (s.dropCmd q slot).sec = s.sec := rfl
@[simp] theorem State.dropCmd_obs (s : State) (q slot : Nat) : (s.dropCmd q slot).obs = s.obs := rfl
@[simp] theorem State.dropCmd_can (s : State) (q slot : Nat) : (s.dropCmd q slot).can = s.can := rfl
@[simp] theorem State.dropCmd_events (s : State) (q slot : Nat) : (s.dropCmd q slot).events = s.events := rfl
@[simp] theorem State.dropCmd_out (s : State) (q slot : Nat) : (s.dropCmd q slot).out = s.out := rfl

@[simp] theorem State.dropCmd_reg (s : State) (q slot : Nat) (j : Nat) : (s.dropCmd q slot).reg j = s.reg j := rfl
@[simp] theorem State.dropCmd_domByte (s : State) (q slot : Nat) (j i : Nat) : (s.dropCmd q slot).domByte j i = s.domByte j i := rfl
@[simp] theorem State.dropCmd_load (s : State) (q slot : Nat) (j m : Nat) : (s.dropCmd q slot).load j m = s.load j m := rfl
@[simp] theorem State.dropCmd_qst (s : State) (q slot : Nat) (j : Nat) : (s.dropCmd q slot).qst j = s.qst j := rfl
@[simp] theorem State.dropCmd_ctx (s : State) (q slot : Nat) (j : Nat) : (s.dropCmd q slot).ctx j = s.ctx j := rfl
@[simp] theorem State.dropCmd_mst (s : State) (q slot : Nat) (j : Nat) : (s.dropCmd q slot).mst j = s.mst j := rfl
@[simp] theorem State.dropCmd_engine (s : State) (q slot : Nat) (j : Nat) : (s.dropCmd q slot).engine j = s.engine j := rfl
@[simp] theorem State.dropCmd_array (s : State) (q slot : Nat) (j : Nat) : (s.dropCmd q slot).array j = s.array j := rfl
@[simp] theorem State.dropCmd_fixer (s : State) (q slot : Nat) (j : Nat) : (s.dropCmd q slot).fixer j = s.fixer j := rfl
@[simp] theorem State.dropCmd_port (s : State) (q slot : Nat) (j : Nat) : (s.dropCmd q slot).port j = s.port j := rfl

@[simp] theorem State.bump_pending (s : State) (k n : Nat) : (s.bump k n).pending = s.pending := rfl
@[simp] theorem State.bump_fuse (s : State) (k n : Nat) : (s.bump k n).fuse = s.fuse := rfl
@[simp] theorem State.bump_dom (s : State) (k n : Nat) : (s.bump k n).dom = s.dom := rfl
@[simp] theorem State.bump_mem (s : State) (k n : Nat) : (s.bump k n).mem = s.mem := by simp only [State.bump, State.setReg]
@[simp] theorem State.bump_dict (s : State) (k n : Nat) : (s.bump k n).dict = s.dict := rfl
@[simp] theorem State.bump_tick (s : State) (k n : Nat) : (s.bump k n).tick = s.tick := rfl
@[simp] theorem State.bump_que (s : State) (k n : Nat) : (s.bump k n).que = s.que := rfl
@[simp] theorem State.bump_cmds (s : State) (k n : Nat) : (s.bump k n).cmds = s.cmds := rfl
@[simp] theorem State.bump_ctxs (s : State) (k n : Nat) : (s.bump k n).ctxs = s.ctxs := rfl
@[simp] theorem State.bump_mus (s : State) (k n : Nat) : (s.bump k n).mus = s.mus := rfl
@[simp] theorem State.bump_step (s : State) (k n : Nat) : (s.bump k n).step = s.step := rfl
@[simp] theorem State.bump_eng (s : State) (k n : Nat) : (s.bump k n).eng = s.eng := rfl
@[simp] theorem State.bump_arr (s : State) (k n : Nat) : (s.bump k n).arr = s.arr := rfl
@[simp] theorem State.bump_page (s : State) (k n : Nat) : (s.bump k n).page = s.page := rfl
@[simp] theorem State.bump_num (s : State) (k n : Nat) : (s.bump k n).num = s.num := rfl
@[simp] theorem State.bump_fix (s : State) (k n : Nat) : (s.bump k n).fix = s.fix := rfl
@[simp] theorem State.bump_ports (s : State) (k n : Nat) : (s.bump k n).ports = s.ports := rfl
@[simp] theorem State.bump_red (s : State) (k n : Nat) : (s.bump k n).red = s.red := rfl
@[simp] theorem State.bump_host (s : State) (k n : Nat) : (s.bump k n).host = s.host := rfl
@[simp] theorem State.bump_clk (s : State) (k n : Nat) : (s.bump k n).clk = s.clk := rfl
@[simp] theorem State.bump_pwr (s : State) (k n : Nat) : (s.bump k n).pwr = s.pwr := rfl
@[simp] theorem State.bump_boot (s : State) (k n : Nat) : (s.bump k n).boot = s.boot := rfl
@[simp] theorem State.bump_sec (s : State) (k n : Nat) : (s.bump k n).sec = s.sec := rfl
@[simp] theorem State.bump_obs (s : State) (k n : Nat) : (s.bump k n).obs = s.obs := rfl
@[simp] theorem State.bump_can (s : State) (k n : Nat) : (s.bump k n).can = s.can := rfl
@[simp] theorem State.bump_events (s : State) (k n : Nat) : (s.bump k n).events = s.events := rfl
@[simp] theorem State.bump_out (s : State) (k n : Nat) : (s.bump k n).out = s.out := rfl

@[simp] theorem State.bump_domByte (s : State) (k n : Nat) (j i : Nat) : (s.bump k n).domByte j i = s.domByte j i := rfl
@[simp] theorem State.bump_load (s : State) (k n : Nat) (j m : Nat) : (s.bump k n).load j m = s.load j m := rfl
@[simp] theorem State.bump_qst (s : State) (k n : Nat) (j : Nat) : (s.bump k n).qst j = s.qst j := rfl
@[simp] theorem State.bump_ctx (s : State) (k n : Nat) (j : Nat) : (s.bump k n).ctx j = s.ctx j := rfl
@[simp] theorem State.bump_mst (s : State) (k n : Nat) (j : Nat) : (s.bump k n).mst j = s.mst j := rfl
@[simp] theorem State.bump_engine (s : State) (k n : Nat) (j : Nat) : (s.bump k n).engine j = s.engine j := rfl
@[simp] theorem State.bump_array (s : State) (k n : Nat) (j : Nat) : (s.bump k n).array j = s.array j := rfl
@[simp] theorem State.bump_fixer (s : State) (k n : Nat) (j : Nat) : (s.bump k n).fixer j = s.fixer j := rfl
@[simp] theorem State.bump_port (s : State) (k n : Nat) (j : Nat) : (s.bump k n).port j = s.port j := rfl
@[simp] theorem State.bump_findCmd (s : State) (k n : Nat) (j i : Nat) : (s.bump k n).cmd? j i = s.cmd? j i := rfl

@[simp] theorem State.setTraceBuf_pending (s : State) (n : Nat) (b : TraceBuf) : (s.setTraceBuf n b).pending = s.pending := rfl
@[simp] theorem State.setTraceBuf_fuse (s : State) (n : Nat) (b : TraceBuf) : (s.setTraceBuf n b).fuse = s.fuse := rfl
@[simp] theorem State.setTraceBuf_regs (s : State) (n : Nat) (b : TraceBuf) : (s.setTraceBuf n b).regs = s.regs := rfl
@[simp] theorem State.setTraceBuf_dom (s : State) (n : Nat) (b : TraceBuf) : (s.setTraceBuf n b).dom = s.dom := rfl
@[simp] theorem State.setTraceBuf_mem (s : State) (n : Nat) (b : TraceBuf) : (s.setTraceBuf n b).mem = s.mem := by simp only [State.setTraceBuf]
@[simp] theorem State.setTraceBuf_dict (s : State) (n : Nat) (b : TraceBuf) : (s.setTraceBuf n b).dict = s.dict := rfl
@[simp] theorem State.setTraceBuf_tick (s : State) (n : Nat) (b : TraceBuf) : (s.setTraceBuf n b).tick = s.tick := rfl
@[simp] theorem State.setTraceBuf_que (s : State) (n : Nat) (b : TraceBuf) : (s.setTraceBuf n b).que = s.que := rfl
@[simp] theorem State.setTraceBuf_cmds (s : State) (n : Nat) (b : TraceBuf) : (s.setTraceBuf n b).cmds = s.cmds := rfl
@[simp] theorem State.setTraceBuf_ctxs (s : State) (n : Nat) (b : TraceBuf) : (s.setTraceBuf n b).ctxs = s.ctxs := rfl
@[simp] theorem State.setTraceBuf_mus (s : State) (n : Nat) (b : TraceBuf) : (s.setTraceBuf n b).mus = s.mus := rfl
@[simp] theorem State.setTraceBuf_step (s : State) (n : Nat) (b : TraceBuf) : (s.setTraceBuf n b).step = s.step := rfl
@[simp] theorem State.setTraceBuf_eng (s : State) (n : Nat) (b : TraceBuf) : (s.setTraceBuf n b).eng = s.eng := rfl
@[simp] theorem State.setTraceBuf_arr (s : State) (n : Nat) (b : TraceBuf) : (s.setTraceBuf n b).arr = s.arr := rfl
@[simp] theorem State.setTraceBuf_page (s : State) (n : Nat) (b : TraceBuf) : (s.setTraceBuf n b).page = s.page := rfl
@[simp] theorem State.setTraceBuf_num (s : State) (n : Nat) (b : TraceBuf) : (s.setTraceBuf n b).num = s.num := rfl
@[simp] theorem State.setTraceBuf_fix (s : State) (n : Nat) (b : TraceBuf) : (s.setTraceBuf n b).fix = s.fix := rfl
@[simp] theorem State.setTraceBuf_ports (s : State) (n : Nat) (b : TraceBuf) : (s.setTraceBuf n b).ports = s.ports := rfl
@[simp] theorem State.setTraceBuf_red (s : State) (n : Nat) (b : TraceBuf) : (s.setTraceBuf n b).red = s.red := rfl
@[simp] theorem State.setTraceBuf_host (s : State) (n : Nat) (b : TraceBuf) : (s.setTraceBuf n b).host = s.host := rfl
@[simp] theorem State.setTraceBuf_clk (s : State) (n : Nat) (b : TraceBuf) : (s.setTraceBuf n b).clk = s.clk := rfl
@[simp] theorem State.setTraceBuf_pwr (s : State) (n : Nat) (b : TraceBuf) : (s.setTraceBuf n b).pwr = s.pwr := rfl
@[simp] theorem State.setTraceBuf_boot (s : State) (n : Nat) (b : TraceBuf) : (s.setTraceBuf n b).boot = s.boot := rfl
@[simp] theorem State.setTraceBuf_sec (s : State) (n : Nat) (b : TraceBuf) : (s.setTraceBuf n b).sec = s.sec := rfl
@[simp] theorem State.setTraceBuf_obs (s : State) (n : Nat) (b : TraceBuf) : (s.setTraceBuf n b).obs = { s.obs with traces := SMap.put s.obs.traces n b } := rfl
@[simp] theorem State.setTraceBuf_can (s : State) (n : Nat) (b : TraceBuf) : (s.setTraceBuf n b).can = s.can := rfl
@[simp] theorem State.setTraceBuf_events (s : State) (n : Nat) (b : TraceBuf) : (s.setTraceBuf n b).events = s.events := rfl
@[simp] theorem State.setTraceBuf_out (s : State) (n : Nat) (b : TraceBuf) : (s.setTraceBuf n b).out = s.out := rfl

@[simp] theorem State.setTraceBuf_reg (s : State) (n : Nat) (b : TraceBuf) (j : Nat) : (s.setTraceBuf n b).reg j = s.reg j := rfl
@[simp] theorem State.setTraceBuf_domByte (s : State) (n : Nat) (b : TraceBuf) (j i : Nat) : (s.setTraceBuf n b).domByte j i = s.domByte j i := rfl
@[simp] theorem State.setTraceBuf_load (s : State) (n : Nat) (b : TraceBuf) (j m : Nat) : (s.setTraceBuf n b).load j m = s.load j m := rfl
@[simp] theorem State.setTraceBuf_qst (s : State) (n : Nat) (b : TraceBuf) (j : Nat) : (s.setTraceBuf n b).qst j = s.qst j := rfl
@[simp] theorem State.setTraceBuf_ctx (s : State) (n : Nat) (b : TraceBuf) (j : Nat) : (s.setTraceBuf n b).ctx j = s.ctx j := rfl
@[simp] theorem State.setTraceBuf_mst (s : State) (n : Nat) (b : TraceBuf) (j : Nat) : (s.setTraceBuf n b).mst j = s.mst j := rfl
@[simp] theorem State.setTraceBuf_engine (s : State) (n : Nat) (b : TraceBuf) (j : Nat) : (s.setTraceBuf n b).engine j = s.engine j := rfl
@[simp] theorem State.setTraceBuf_array (s : State) (n : Nat) (b : TraceBuf) (j : Nat) : (s.setTraceBuf n b).array j = s.array j := rfl
@[simp] theorem State.setTraceBuf_fixer (s : State) (n : Nat) (b : TraceBuf) (j : Nat) : (s.setTraceBuf n b).fixer j = s.fixer j := rfl
@[simp] theorem State.setTraceBuf_port (s : State) (n : Nat) (b : TraceBuf) (j : Nat) : (s.setTraceBuf n b).port j = s.port j := rfl
@[simp] theorem State.setTraceBuf_findCmd (s : State) (n : Nat) (b : TraceBuf) (j i : Nat) : (s.setTraceBuf n b).cmd? j i = s.cmd? j i := rfl

@[simp] theorem State.qst_setQst_self (s : State) (k : Nat) (x : QueueSt) : (s.setQst k x).qst k = x := SMap.get_put_self _ _ _ _
theorem State.qst_setQst_other (s : State) (k j : Nat) (x : QueueSt) (h : j ≠ k) : (s.setQst k x).qst j = s.qst j :=
  SMap.get_put_other _ _ _ _ _ h

@[simp] theorem State.ctx_setCtx_self (s : State) (k : Nat) (x : Ctx) : (s.setCtx k x).ctx k = x := SMap.get_put_self _ _ _ _
theorem State.ctx_setCtx_other (s : State) (k j : Nat) (x : Ctx) (h : j ≠ k) : (s.setCtx k x).ctx j = s.ctx j :=
  SMap.get_put_other _ _ _ _ _ h

@[simp] theorem State.mst_setMst_self (s : State) (k : Nat) (x : Muster) : (s.setMst k x).mst k = x := SMap.get_put_self _ _ _ _
theorem State.mst_setMst_other (s : State) (k j : Nat) (x : Muster) (h : j ≠ k) : (s.setMst k x).mst j = s.mst j :=
  SMap.get_put_other _ _ _ _ _ h

@[simp] theorem State.engine_setEngine_self (s : State) (k : Nat) (x : EngineSt) : (s.setEngine k x).engine k = x := SMap.get_put_self _ _ _ _
theorem State.engine_setEngine_other (s : State) (k j : Nat) (x : EngineSt) (h : j ≠ k) : (s.setEngine k x).engine j = s.engine j :=
  SMap.get_put_other _ _ _ _ _ h

@[simp] theorem State.fixer_setFixer_self (s : State) (k : Nat) (x : FixSt) : (s.setFixer k x).fixer k = x := SMap.get_put_self _ _ _ _
theorem State.fixer_setFixer_other (s : State) (k j : Nat) (x : FixSt) (h : j ≠ k) : (s.setFixer k x).fixer j = s.fixer j :=
  SMap.get_put_other _ _ _ _ _ h
@[simp] theorem State.array_setArray_self (s : State) (k : Nat) (x : ArraySt) : (s.setArray k x).array k = x := SMap.get_put_self _ _ _ _
theorem State.array_setArray_other (s : State) (k j : Nat) (x : ArraySt) (h : j ≠ k) : (s.setArray k x).array j = s.array j :=
  SMap.get_put_other _ _ _ _ _ h

@[simp] theorem State.port_setPort_self (s : State) (k : Nat) (x : PortSt) : (s.setPort k x).port k = x := SMap.get_put_self _ _ _ _
theorem State.port_setPort_other (s : State) (k j : Nat) (x : PortSt) (h : j ≠ k) : (s.setPort k x).port j = s.port j :=
  SMap.get_put_other _ _ _ _ _ h

@[simp] theorem State.reg_setReg_self (s : State) (k v : Nat) : (s.setReg k v).reg k = v := by
  simp [State.reg]

theorem State.reg_setReg_other (s : State) (k j v : Nat) (h : j ≠ k) : (s.setReg k v).reg j = s.reg j := by
  simp [State.reg, SMap.get?_put_other _ _ _ _ h]

/-- Every object after one of them was set. -/
theorem State.reg_setReg (s : State) (k j v : Nat) : (s.setReg k v).reg j = if j = k then v else s.reg j := by
  split
  · subst_vars; exact State.reg_setReg_self _ _ _
  · exact State.reg_setReg_other _ _ _ _ ‹_›

theorem State.reg_bump_other (s : State) (k j n : Nat) (h : j ≠ k) : (s.bump k n).reg j = s.reg j :=
  State.reg_setReg_other _ _ _ _ h

/-- A counter that stays within its width counts. -/
theorem State.reg_bump_self (s : State) (k n : Nat) (h : s.reg k + n < 2 ^ objWidth s.fuse k) :
    (s.bump k n).reg k = s.reg k + n := by
  simp [State.bump, h]

theorem okey_inj (i j a b : Nat) (ha : a < 256) (hb : b < 256) (h : okey i a = okey j b) : i = j ∧ a = b := by
  unfold okey at h
  omega

end Sys2Proof.Machine
end

