-- ==== Sys2Proof/Laws/Events.lean ====
section
/-! SUPPORT. What raising an event can change (R64, R446, R450): the ring and its counters, the trace buffers and their
state, and the vector signalled; and that the event stands in the ring. -/

namespace Sys2Proof

open Sys2Proof.Machine

theorem Told.refl (s : State) : Told s s := ⟨rfl, fun _ _ => rfl⟩

theorem Told.trans {s t u : State} (h : Told s t) (h' : Told t u) : Told s u := by
  refine ⟨?_, fun k hk => (h'.objs k hk).trans (h.objs k hk)⟩
  have h1 := h.rest
  have h2 := h'.rest
  cases s
  cases t
  cases u
  simp only [State.mk.injEq, true_and, and_true] at h1 h2 ⊢
  simp_all

theorem Told.setReg (s : State) (k v : Nat) (hk : eventKey k) : Told s (s.setReg k v) :=
  ⟨rfl, fun j hj => State.reg_setReg_other s k j v fun e => hj (e ▸ hk)⟩

theorem Told.bump (s : State) (k n : Nat) (hk : eventKey k) : Told s (s.bump k n) := Told.setReg _ _ _ hk

theorem Told.msix (s : State) (v : Nat) : Told s (s.msix v) := by
  unfold State.msix
  split
  · exact ⟨rfl, fun _ _ => rfl⟩
  · exact ⟨rfl, fun _ _ => rfl⟩

theorem Told.traceBuf (s : State) (n : Nat) (b : TraceBuf) : Told s (s.setTraceBuf n b) := ⟨rfl, fun _ _ => rfl⟩

theorem eventKey_ring (sub : Nat) (h : sub < 256) : eventKey (okey 0x1110 sub) := by unfold eventKey okey; omega
theorem eventKey_trace (sub : Nat) (h : sub < 256) : eventKey (okey 0x9110 sub) := by unfold eventKey okey; omega
theorem eventKey_buffer (n sub : Nat) (hn : n < 32) (h : sub < 256) : eventKey (okey (0xA000 + 0x100 * n + 0x90) sub) := by
  unfold eventKey okey; omega

theorem Told.appendEvent (s : State) (code sev : Nat) (unit : BitVec 32) (op layer a0 a1 : Nat) :
    Told s (s.appendEvent code sev unit op layer a0 a1) := by
  unfold State.appendEvent
  refine Told.trans ?_ (Told.msix _ _)
  refine Told.trans (t := if 4096 ≤ (s.bump 0x111001 1).events.length then (s.bump 0x111001 1).bump 0x111003 1
    else s.bump 0x111001 1) ?_ ⟨rfl, fun _ _ => rfl⟩
  split
  · exact (Told.bump s _ _ (eventKey_ring 1 (by decide))).trans (Told.bump _ _ _ (eventKey_ring 3 (by decide)))
  · exact Told.bump s _ _ (eventKey_ring 1 (by decide))

theorem Told.showFrozen (s : State) : Told s s.showFrozen := by
  unfold State.showFrozen
  split
  · exact Told.setReg _ _ _ (eventKey_trace 8 (by decide))
  · exact Told.refl s

theorem Told.writeTrace (s : State) (n : Nat) (hn : n < 32) (r : TraceRec) : Told s (s.writeTrace n r) := by
  unfold State.writeTrace
  dsimp only
  split
  · exact Told.refl s
  · refine Told.trans (t := if decide (traceRoom ≤ (s.traceBuf n).recs.length) then
      s.bump (okey (0xA000 + 0x100 * n + 0x90) 2) 1 else s) ?_ (Told.traceBuf _ _ _)
    split
    · exact Told.bump _ _ _ (eventKey_buffer n 2 hn (by decide))
    · exact Told.refl s

theorem Told.foldl {α : Type} (f : State → α → State) (l : List α) (s : State) (h : ∀ s, ∀ a ∈ l, Told s (f s a)) :
    Told s (l.foldl f s) := by
  induction l generalizing s with
  | nil => exact Told.refl s
  | cons a l ih => exact (h s a (List.mem_cons_self ..)).trans (ih _ fun s b hb => h s b (List.mem_cons_of_mem _ hb))

theorem Told.triggerAll (s : State) : Told s s.triggerAll := by
  unfold State.triggerAll
  refine Told.trans (t := { s with obs := { s.obs with trigTick := some s.tickNo } }) ⟨rfl, fun _ _ => rfl⟩ ?_
  exact Told.foldl _ _ _ fun s n hn =>
    (Told.setReg s _ _ (eventKey_buffer n 4 (List.mem_range.mp hn) (by decide))).trans (Told.traceBuf _ _ _)

theorem Told.triggered (s : State) (n q : Nat) (hn : n < 32) : Told s (s.triggered n q) := by
  unfold State.triggered
  refine Told.trans ?_ (Told.showFrozen _)
  have h : Told s (((s.triggerAll.setReg (okey (0xA000 + 0x100 * n + 0x90) 4) q).setReg (okey 0x9110 8) 2).appendEvent
      0x9001 0 0 0 0 n q) :=
    (((Told.triggerAll s).trans (Told.setReg _ _ _ (eventKey_buffer n 4 hn (by decide)))).trans
      (Told.setReg _ _ _ (eventKey_trace 8 (by decide)))).trans (Told.appendEvent _ _ _ _ _ _ _ _)
  split
  · exact h.trans (Told.writeTrace _ 0 (by decide) _)
  · exact h

theorem traceDie_lt (d : Die) : traceDie d < 32 := by
  cases d <;> simp only [traceDie] <;> omega

theorem Told.fireTrigger (s : State) (n : Nat) (hn : n < 32) : Told s (s.fireTrigger n) := by
  unfold State.fireTrigger
  split
  · exact Told.refl s
  · exact Told.triggered _ _ _ hn

theorem Told.traceWith (s : State) (fires : Bool) (d : Die) (kind source unit op layer a0 a1 : Nat) :
    Told s (s.traceWith fires d kind source unit op layer a0 a1) := by
  unfold State.traceWith
  dsimp only
  split
  · split
    · exact Told.fireTrigger s _ (traceDie_lt d)
    · exact Told.refl s
  · split
    · have h := Told.bump s _ 1 (eventKey_buffer (traceDie d) 3 (traceDie_lt d) (by decide))
      split
      · exact h.trans (Told.fireTrigger _ _ (traceDie_lt d))
      · exact h
    split
    · exact (Told.writeTrace _ _ (traceDie_lt d) _).trans (Told.triggered _ _ _ (traceDie_lt d))
    · exact (Told.writeTrace _ _ (traceDie_lt d) _).trans (Told.showFrozen _)

theorem Told.trace (s : State) (d : Die) (kind source unit op layer a0 a1 : Nat) :
    Told s (s.trace d kind source unit op layer a0 a1) := Told.traceWith s false d kind source unit op layer a0 a1

/-- Raising an event changes nothing but the records of events. -/
theorem Machine.State.raiseAt_told (s : State) (code sev : Nat) (unit : BitVec 32) (op layer a0 a1 : Nat) :
    Told s (s.raiseAt code sev unit op layer a0 a1) := (Told.appendEvent _ _ _ _ _ _ _ _).trans (Told.trace _ _ _ _ _ _ _ _ _)

theorem Machine.State.raise_told (s : State) (code sev a0 a1 : Nat) : Told s (s.raise code sev a0 a1) := State.raiseAt_told _ _ _ _ _ _ _ _

theorem Machine.State.raiseCmd_told (s : State) (c : Cmd) (code sev a0 a1 : Nat) : Told s (s.raiseCmd c code sev a0 a1) :=
  State.raiseAt_told _ _ _ _ _ _ _ _

theorem Machine.State.writeTrace_events (s : State) (n : Nat) (r : TraceRec) : (s.writeTrace n r).events = s.events := by
  unfold State.writeTrace
  dsimp only
  split
  · rfl
  · split <;> rfl

theorem Machine.State.showFrozen_events (s : State) : s.showFrozen.events = s.events := by
  unfold State.showFrozen
  split <;> rfl

theorem Machine.State.msix_events (s : State) (v : Nat) : (s.msix v).events = s.events := by
  unfold State.msix
  split <;> rfl

theorem Machine.State.triggerAll_events (s : State) : s.triggerAll.events = s.events := by
  have : ∀ (l : List Nat) (pc : Nat) (s : State), (l.foldl (fun (s : State) n =>
      let b := s.traceBuf n
      let s := s.setReg (okey (0xA000 + 0x100 * n + 0x90) 4) (b.seq % 2 ^ 32)
      s.setTraceBuf n { b with post := some pc, frozen := decide (pc = 0) }) s).events = s.events := by
    intro l pc
    induction l with
    | nil => intro s; rfl
    | cons a l ih => intro s; exact ih _
  unfold State.triggerAll
  exact this _ _ _

/-- Appending an event keeps the newest one before it. -/
theorem Machine.State.appendEvent_keeps (s : State) (code sev : Nat) (unit : BitVec 32) (op layer a0 a1 : Nat) (e : Event)
    (h : s.events.getLast? = some e) : e ∈ (s.appendEvent code sev unit op layer a0 a1).events := by
  unfold State.appendEvent
  rw [State.msix_events]
  dsimp only
  have hc : (if 4096 ≤ (s.bump 0x111001 1).events.length then (s.bump 0x111001 1).bump 0x111003 1
      else s.bump 0x111001 1).events = s.events := by
    split <;> rfl
  rw [hc]
  obtain ⟨l, hl⟩ := List.getLast?_eq_some_iff.mp h
  rw [hl]
  refine List.mem_append_left _ ?_
  split
  · rename_i hlen
    cases l with
    | nil => simp at hlen
    | cons x l => simp
  · simp

theorem Machine.State.triggered_keeps (s : State) (n q : Nat) (e : Event) (h : s.events.getLast? = some e) :
    e ∈ (s.triggered n q).events := by
  have key := State.appendEvent_keeps ((s.triggerAll.setReg (okey (0xA000 + 0x100 * n + 0x90) 4) q).setReg (okey 0x9110 8) 2)
    0x9001 0 0 0 0 n q e (by rw [State.setReg_events, State.setReg_events, State.triggerAll_events]; exact h)
  unfold State.triggered
  rw [State.showFrozen_events]
  generalize State.appendEvent _ _ _ _ _ _ _ _ = x at key ⊢
  split
  · rw [State.writeTrace_events]; exact key
  · exact key

/-- The newest event stays in the ring through the record of a trace. -/
theorem Machine.State.events_trace (s : State) (d : Die) (kind source unit op layer a0 a1 : Nat) (e : Event)
    (h : s.events.getLast? = some e) : e ∈ (s.trace d kind source unit op layer a0 a1).events := by
  have hmem : e ∈ s.events := List.mem_of_getLast? h
  unfold State.trace State.traceWith
  dsimp only
  split
  · exact hmem
  split
  · exact hmem
  · split
    · exact State.triggered_keeps _ _ _ _ (by rw [State.writeTrace_events]; exact h)
    · rw [State.showFrozen_events, State.writeTrace_events]; exact hmem

/-- The event that is raised stands in the ring. -/
theorem Machine.State.raiseAt_raised (s : State) (code sev : Nat) (unit : BitVec 32) (op layer a0 a1 : Nat) :
    Raised s (s.raiseAt code sev unit op layer a0 a1) code a0 a1 := by
  refine ⟨⟨code, sev, unit, BitVec.ofNat 16 op, BitVec.ofNat 16 layer, BitVec.ofNat 64 (s.bump 0x111001 1).tickNo,
    BitVec.ofNat 32 ((s.bump 0x111001 1).reg 0x111001), BitVec.ofNat 32 a0, BitVec.ofNat 32 a1⟩, ?_, rfl, rfl, rfl, rfl⟩
  unfold State.raiseAt
  apply State.events_trace
  unfold State.appendEvent
  rw [State.msix_events]
  exact List.getLast?_concat ..

end Sys2Proof
end

