-- ==== Sys2Proof/Laws/MemKept.lean ====
section
/-! SUPPORT. What leaves memory as it was: every operation that stores nothing. -/

namespace Sys2Proof.Machine

@[simp] theorem foldl_mem {α : Type} (f : State → α → State) (l : List α) (s : State) (h : ∀ s a, (f s a).mem = s.mem) :
    (l.foldl f s).mem = s.mem := by
  induction l generalizing s with
  | nil => rfl
  | cons a t ih => exact (ih _).trans (h s a)

@[simp] theorem ite_mem (c : Prop) [Decidable c] (a b : State) : (if c then a else b).mem = if c then a.mem else b.mem := by
  split <;> rfl

/-- What each picked command does keeps memory, so doing it with all of them does. -/
theorem State.eachCmd_mem (s : State) (p : Cmd → Bool) (f : State → Cmd → State) (h : ∀ s c, (f s c).mem = s.mem) :
    (s.eachCmd p f).mem = s.mem := by
  unfold State.eachCmd
  refine foldl_mem _ _ _ fun s a => ?_
  split
  · rfl
  · split
    · exact h _ _
    · rfl

@[simp] theorem State.bumpOpen_mem (s : State) (k : Nat) :
    (State.bumpOpen s k).mem = s.mem := by
  simp [State.bumpOpen]

@[simp] theorem State.setBit_mem (s : State) (k : Nat) (i : Nat) (b : Bool) :
    (State.setBit s k i b).mem = s.mem := by
  simp [State.setBit]

@[simp] theorem State.setDomNat_mem (s : State) (k : Nat) (off : Nat) (n : Nat) (v : Nat) :
    (State.setDomNat s k off n v).mem = s.mem := by
  simp [State.setDomNat]

@[simp] theorem State.msix_mem (s : State) (v : Nat) :
    (State.msix s v).mem = s.mem := by
  simp [State.msix]

@[simp] theorem State.showFrozen_mem (s : State) :
    (State.showFrozen s).mem = s.mem := by
  simp [State.showFrozen]

@[simp] theorem State.writeTrace_mem (s : State) (n : Nat) (r : TraceRec) :
    (State.writeTrace s n r).mem = s.mem := by
  simp [State.writeTrace]

@[simp] theorem State.triggerAll_mem (s : State) :
    (State.triggerAll s).mem = s.mem := by
  simp [State.triggerAll]

@[simp] theorem State.appendEvent_mem (s : State) (code : Nat) (sev : Nat) (unit : BitVec 32) (op : Nat) (layer : Nat) (a0 : Nat) (a1 : Nat) :
    (State.appendEvent s code sev unit op layer a0 a1).mem = s.mem := by
  unfold State.appendEvent
  rw [State.msix_mem]
  dsimp only
  split <;> simp

@[simp] theorem State.triggered_mem (s : State) (n : Nat) (q : Nat) :
    (State.triggered s n q).mem = s.mem := by
  simp [State.triggered]

@[simp] theorem State.fireTrigger_mem (s : State) (n : Nat) :
    (State.fireTrigger s n).mem = s.mem := by
  simp [State.fireTrigger]

@[simp] theorem State.traceWith_mem (s : State) (fires : Bool) (d : Die) (kind source unit op layer a0 a1 : Nat) :
    (State.traceWith s fires d kind source unit op layer a0 a1).mem = s.mem := by
  simp [State.traceWith]

@[simp] theorem State.trace_mem (s : State) (d : Die) (kind : Nat) (source : Nat) (unit : Nat) (op : Nat) (layer : Nat) (a0 : Nat) (a1 : Nat) :
    (State.trace s d kind source unit op layer a0 a1).mem = s.mem := by
  simp [State.trace]

@[simp] theorem State.raiseAt_mem (s : State) (code : Nat) (sev : Nat) (unit : BitVec 32) (op : Nat) (layer : Nat) (a0 : Nat) (a1 : Nat) :
    (State.raiseAt s code sev unit op layer a0 a1).mem = s.mem := by
  simp [State.raiseAt]

@[simp] theorem State.raise_mem (s : State) (code : Nat) (sev : Nat) (a0 : Nat) (a1 : Nat) :
    (State.raise s code sev a0 a1).mem = s.mem := by
  simp [State.raise]

@[simp] theorem State.clearHostPort_mem (s : State) :
    (State.clearHostPort s).mem = s.mem := by
  simp [State.clearHostPort]

@[simp] theorem State.hostDown_mem (s : State) (b : Bool) : (s.hostDown b).mem = s.mem := by
  simp [State.hostDown]

@[simp] theorem State.loseHost_mem (s : State) : s.loseHost.mem = s.mem := by
  simp [State.loseHost]

@[simp] theorem State.setEntry_mem (s : State) (a : Nat) (e : Nat) :
    (State.setEntry s a e).mem = s.mem := by
  simp [State.setEntry]

@[simp] theorem State.markDirty_mem (s : State) (a : Nat) :
    (State.markDirty s a).mem = s.mem := by
  unfold State.markDirty
  (repeat' split) <;> simp

@[simp] theorem State.tame_mem (s : State) (k : Nat) :
    (State.tame s k).mem = s.mem := by
  unfold State.tame
  dsimp only
  (repeat' split) <;> simp

@[simp] theorem State.healLines_mem (s : State) (p : Nat → Bool) :
    (State.healLines s p).mem = s.mem := by
  simp [State.healLines]

@[simp] theorem State.sawWhere_mem (s : State) (p : Nat → Bool) :
    (State.sawWhere s p).mem = s.mem := by
  simp [State.sawWhere]

@[simp] theorem State.sawLines_mem (s : State) (ctx : Nat) (t : Tensor) (lines : List Nat) :
    (State.sawLines s ctx t lines).mem = s.mem := by
  simp [State.sawLines]

@[simp] theorem State.countUe_mem (s : State) (f : Nat × Nat × Nat) :
    (State.countUe s f).mem = s.mem := by
  simp [State.countUe]

@[simp] theorem State.foundUe_mem (s : State) (f : Nat × Nat × Nat) (line : Nat) :
    (State.foundUe s f line).mem = s.mem := by
  simp [State.foundUe]

@[simp] theorem State.stopeUe_mem (s : State) (ctx : Nat) (byte : Nat) :
    (State.stopeUe s ctx byte).mem = s.mem := by
  simp [State.stopeUe]

@[simp] theorem State.memUe_mem (s : State) (a : Nat) :
    (State.memUe s a).mem = s.mem := by
  simp [State.memUe]

@[simp] theorem State.sawAddrs_mem (s : State) (l : List Nat) :
    (State.sawAddrs s l).mem = s.mem := by
  simp [State.sawAddrs]

@[simp] theorem State.sendDrift_mem (s : State) (type : Nat) (m : DriftMsg) (plates : List Bytes) (rider : Option Rider) :
    (State.sendDrift s type m plates rider).mem = s.mem := by
  unfold State.sendDrift
  (repeat' split) <;> simp

@[simp] theorem State.setRtag_mem (s : State) (e : Nat) (n : Nat) (x : RTag) :
    (State.setRtag s e n x).mem = s.mem := by
  simp [State.setRtag]

@[simp] theorem State.tagWait_mem (s : State) :
    (State.tagWait s).mem = s.mem := by
  simp [State.tagWait]

@[simp] theorem State.sendPlate_mem (s : State) (k : Nat) (addr : Nat) (b : Bytes) :
    (State.sendPlate s k addr b).mem = s.mem := by
  unfold State.sendPlate
  dsimp only
  (repeat' split) <;> simp

@[simp] theorem State.askPlate_mem (s : State) (k : Nat) (addr : Nat) :
    (State.askPlate s k addr).mem = s.mem := by
  unfold State.askPlate
  dsimp only
  (repeat' split) <;> simp

@[simp] theorem State.askRemote_mem (s : State) (k : Nat) :
    (State.askRemote s k).mem = s.mem := by
  simp [State.askRemote]

@[simp] theorem State.freeRtag_mem (s : State) (e : Nat) (n : Nat) :
    (State.freeRtag s e n).mem = s.mem := by
  unfold State.freeRtag
  dsimp only
  (repeat' split) <;> simp

@[simp] theorem State.unwant_mem (s : State) (k : Nat) :
    (State.unwant s k).mem = s.mem := by
  simp [State.unwant]

@[simp] theorem State.shareBatch_mem (s : State) (c : Cmd) :
    (State.shareBatch s c).mem = s.mem := by
  simp [State.shareBatch]

@[simp] theorem State.traceCmd_mem (s : State) (c : Cmd) (kind : Nat) (a0 : Nat) (a1 : Nat) :
    (State.traceCmd s c kind a0 a1).mem = s.mem := by
  simp [State.traceCmd]

@[simp] theorem State.fullTrace_mem (s : State) (t : Nat) (g : Nat) (e : Nat) (kind : Nat) (op : Nat) (layer : Nat) (a0 : Nat) (a1 : Nat) :
    (State.fullTrace s t g e kind op layer a0 a1).mem = s.mem := by
  simp [State.fullTrace]

@[simp] theorem State.fullCmd_mem (s : State) (c : Cmd) (kind : Nat) (a0 : Nat) (a1 : Nat) :
    (State.fullCmd s c kind a0 a1).mem = s.mem := by
  unfold State.fullCmd
  (repeat' split) <;> simp

@[simp] theorem State.raiseCmd_mem (s : State) (c : Cmd) (code : Nat) (sev : Nat) (a0 : Nat) (a1 : Nat) :
    (State.raiseCmd s c code sev a0 a1).mem = s.mem := by
  simp [State.raiseCmd]

@[simp] theorem State.tallyMap_mem (s : State) (t : Nat) (g : Nat) (engine : Nat) (f : Nat → Tally → Tally) :
    (State.tallyMap s t g engine f).mem = s.mem := by
  simp [State.tallyMap]

@[simp] theorem State.tallyCmd_mem (s : State) (c : Cmd) (f : Nat → Tally → Tally) :
    (State.tallyCmd s c f).mem = s.mem := by
  unfold State.tallyCmd
  (repeat' split) <;> simp

@[simp] theorem State.tally_mem (s : State) (c : Cmd) (ev : Nat) (n : Nat) :
    (State.tally s c ev n).mem = s.mem := by
  simp [State.tally]

@[simp] theorem State.tallyStart_mem (s : State) (c : Cmd) :
    (State.tallyStart s c).mem = s.mem := by
  simp [State.tallyStart]

@[simp] theorem State.tallyPrint_mem (s : State) (c : Cmd) (desc : BitVec 1024) (dropped : Bool) :
    (State.tallyPrint s c desc dropped).mem = s.mem := by
  simp [State.tallyPrint]

@[simp] theorem State.postCause_mem (s : State) (b : Nat) :
    (State.postCause s b).mem = s.mem := by
  simp [State.postCause]

@[simp] theorem State.retire_mem (s : State) (ctx : Nat) :
    (State.retire s ctx).mem = s.mem := by
  simp [State.retire]

@[simp] theorem State.releaseCtxs_mem (s : State) (c : Cmd) :
    (State.releaseCtxs s c).mem = s.mem := by
  simp [State.releaseCtxs]

@[simp] theorem State.freeEngine_mem (s : State) (c : Cmd) : (s.freeEngine c).mem = s.mem := by
  simp [State.freeEngine]

@[simp] theorem State.stopBath_mem (s : State) (c : Cmd) :
    (State.stopBath s c).mem = s.mem := by
  unfold State.stopBath
  dsimp only
  (repeat' split) <;> simp

@[simp] theorem State.stopWork_mem (s : State) (c : Cmd) (begun : Bool) (fault : Option (Nat × Nat)) :
    (State.stopWork s c begun fault).1.mem = s.mem := by
  unfold State.stopWork
  dsimp only
  (repeat' split) <;> simp

@[simp] theorem State.restoreArray_mem (s : State) (c : Cmd) :
    (State.restoreArray s c).mem = s.mem := by
  simp [State.restoreArray]

@[simp] theorem State.rerun_mem (s : State) (c : Cmd) (n : Nat) (ctxs : List Nat) :
    (State.rerun s c n ctxs).mem = s.mem := by
  simp [State.rerun]

@[simp] theorem State.haltCmd_mem (s : State) (c : Cmd) (hit : Nat) (cause : Cause) (fault : Option (Nat × Nat)) :
    (State.haltCmd s c hit cause fault).mem = s.mem := by
  simp [State.haltCmd]

@[simp] theorem State.haltPage_mem (s : State) (c : Cmd) (ctx : Nat) (addr : Nat) (write : Bool) :
    (State.haltPage s c ctx addr write).mem = s.mem := by
  simp [State.haltPage]

@[simp] theorem State.haltMemory_mem (s : State) (c : Cmd) (ctx : Nat) (addr : Nat) :
    (State.haltMemory s c ctx addr).mem = s.mem := by
  simp [State.haltMemory]

@[simp] theorem State.haltFault_mem (s : State) (c : Cmd) (ctx : Nat) (addr : Nat) (write : Bool) :
    (State.haltFault s c ctx addr write).mem = s.mem := by
  simp [State.haltFault]

@[simp] theorem State.badPlate_mem (s : State) (c : Cmd) (ctx : Nat) (addr : Nat) (check : Nat) :
    (State.badPlate s c ctx addr check).mem = s.mem := by
  unfold State.badPlate
  (repeat' split) <;> simp

@[simp] theorem State.clearCause_mem (s : State) (ctx : Nat) (cause : Cause) :
    (State.clearCause s ctx cause).mem = s.mem := by
  simp [State.clearCause]

@[simp] theorem State.runCtxs_mem (s : State) (c : Cmd) :
    (State.runCtxs s c).mem = s.mem := by
  simp [State.runCtxs]

@[simp] theorem State.haltQueueAt_mem (s : State) (q : Nat) (reason : Nat) (slot : Nat) (ev : Nat) (op : Nat) (layer : Nat) :
    (State.haltQueueAt s q reason slot ev op layer).mem = s.mem := by
  simp [State.haltQueueAt]

@[simp] theorem State.haltQueue_mem (s : State) (q : Nat) (reason : Nat) (slot : Nat) (ev : Nat) :
    (State.haltQueue s q reason slot ev).mem = s.mem := by
  simp [State.haltQueue]

@[simp] theorem State.putBack_mem (s : State) (q : Nat) :
    (State.putBack s q).mem = s.mem := by
  unfold State.putBack
  dsimp only
  (repeat' split) <;> simp

@[simp] theorem State.stopQueue_mem (s : State) (q : Nat) (reason : Nat) :
    (State.stopQueue s q reason).mem = s.mem := by
  simp [State.stopQueue]

@[simp] theorem State.takeDraws_mem (s : State) (c : Cmd) :
    (State.takeDraws s c).mem = s.mem := by
  simp [State.takeDraws]

@[simp] theorem State.leaveFixer_mem (s : State) (c : Cmd) :
    (State.leaveFixer s c).mem = s.mem := by
  simp [State.leaveFixer]

@[simp] theorem State.leave_mem (s : State) (c : Cmd) (status : Nat) :
    (State.leave s c status).mem = s.mem := by
  simp [State.leave]

@[simp] theorem shadowTakeEffect_mem (ctx : Nat) (s : State) :
    (shadowTakeEffect ctx s).mem = s.mem := by
  unfold shadowTakeEffect
  dsimp only
  (repeat' split) <;> simp

@[simp] theorem State.corrected_mem (s : State) (addr : Nat) :
    (State.corrected s addr).mem = s.mem := by
  simp [State.corrected]

@[simp] theorem State.tagRecords_mem (s : State) (c : Cmd) (ctx : Nat) (addr : Nat) (tag : Option Nat) :
    (State.tagRecords s c ctx addr tag).mem = s.mem := by
  simp [State.tagRecords]

@[simp] theorem State.remoteReply_mem (s₀ : State) (e : Nat) (n : Nat) (u : TagUse) (b : Bytes) :
    (State.remoteReply s₀ e n u b).mem = s₀.mem := by
  unfold State.remoteReply
  dsimp only
  (repeat' split) <;> simp

@[simp] theorem State.localRead_mem (s : State) (c : Cmd) (ctx : Nat) (addr : Nat) (ecc : Ecc) (t : Tensor) (off : Nat) :
    (State.localRead s c ctx addr ecc t off).mem = s.mem := by
  unfold State.localRead
  dsimp only
  (repeat' split) <;> simp

@[simp] theorem State.remoteRead_mem (s : State) (ctx : Nat) (addr : Nat) (held : Option (Nat × Nat × TagUse)) (b : Bytes) :
    (State.remoteRead s ctx addr held b).mem = s.mem := by
  unfold State.remoteRead
  (repeat' split) <;> simp

@[simp] theorem plateReadReply_mem (ctx : Nat) (addr : Nat) (ecc : Ecc) (rem : Option RemReply) (s : State) :
    (plateReadReply ctx addr ecc rem s).mem = s.mem := by
  unfold plateReadReply
  dsimp only
  (repeat' split) <;> simp

@[simp] theorem State.plateAcked_mem (s : State) (ctx : Nat) :
    (State.plateAcked s ctx).mem = s.mem := by
  unfold State.plateAcked
  (repeat' split) <;> simp

@[simp] theorem State.lateFault_mem (s : State) (c : Cmd) (ctx : Nat) (addr : Nat) :
    (State.lateFault s c ctx addr).mem = s.mem := by
  unfold State.lateFault
  (repeat' split) <;> simp

@[simp] theorem writeAck_mem (ctx : Nat) (addr : Nat) (faulted : Bool) (s : State) :
    (writeAck ctx addr faulted s).mem = s.mem := by
  unfold writeAck
  dsimp only
  (repeat' split) <;> simp

@[simp] theorem State.dropCleared_mem (s : State) (c : Cmd) : (State.dropCleared s c).mem = s.mem := by
  simp [State.dropCleared]

@[simp] theorem streamResume_mem (q : Nat) (slot : Nat) (s : State) :
    (streamResume q slot s).mem = s.mem := by
  unfold streamResume
  dsimp only
  (repeat' split) <;> simp

@[simp] theorem streamHaltStale_mem (ctx : Nat) (s : State) :
    (streamHaltStale ctx s).mem = s.mem := by
  unfold streamHaltStale
  (repeat' split) <;> simp

@[simp] theorem State.haltLink_mem (s : State) (c : Cmd) (ctx : Nat) :
    (State.haltLink s c ctx).mem = s.mem := by
  simp [State.haltLink]

@[simp] theorem remoteTimeout_mem (ctx : Nat) (s : State) :
    (remoteTimeout ctx s).mem = s.mem := by
  unfold remoteTimeout
  dsimp only
  (repeat' split) <;> simp

@[simp] theorem deadlockDetect_mem (t : Nat) (g : Nat) (blocked : List (Fin 128 × BitVec 32)) (s : State) :
    (deadlockDetect t g blocked s).mem = s.mem := by
  unfold deadlockDetect
  dsimp only
  (repeat' split) <;> simp

@[simp] theorem State.setSteer_mem (s : State) (l : Nat) (v : Nat) :
    (State.setSteer s l v).mem = s.mem := by
  simp [State.setSteer]

@[simp] theorem State.setExpo_mem (s : State) (k : Nat) (v : Nat) :
    (State.setExpo s k v).mem = s.mem := by
  simp [State.setExpo]

@[simp] theorem State.join_mem (s : State) (p : Post) :
    (State.join s p).mem = s.mem := by
  simp [State.join]

@[simp] theorem State.lateStat_mem (s : State) (unit : BitVec 32) (op : Nat) (step : Nat) (layer : Nat) :
    (State.lateStat s unit op step layer).mem = s.mem := by
  simp [State.lateStat]

@[simp] theorem State.convCounts_mem (s : State) (o : TensorOut) :
    (State.convCounts s o).mem = s.mem := by
  simp [State.convCounts]

@[simp] theorem State.postOne_mem (s : State) (c : Cmd) (p : Post) :
    (State.postOne s c p).mem = s.mem := by
  simp [State.postOne]

@[simp] theorem State.postStats_mem (s : State) (c : Cmd) :
    (State.postStats s c).mem = s.mem := by
  simp [State.postStats]

@[simp] theorem State.postFlag_mem (s : State) (layer : Nat) (bwd : Bool) (bracket : Bool) :
    (State.postFlag s layer bwd bracket).mem = s.mem := by
  simp [State.postFlag]

@[simp] theorem State.freezePart_mem (s : State) (round : Nat) :
    (State.freezePart s round).mem = s.mem := by
  simp [State.freezePart]

@[simp] theorem State.pushExpo_mem (s : State) (k : Nat) (amax : BitVec 32) :
    (State.pushExpo s k amax).mem = s.mem := by
  simp [State.pushExpo]

@[simp] theorem State.exposeAt_mem (s : State) (v : Nat) (sat und : List Nat) (r : Rider) :
    (s.exposeAt v sat und r).1.mem = s.mem := by
  unfold State.exposeAt
  generalize r.slots = l
  suffices h : ∀ (acc : State × List (Nat × Nat)), acc.1.mem = s.mem → (l.foldl _ acc).1.mem = s.mem from h _ rfl
  induction l with
  | nil => exact fun acc h => h
  | cons x t ih =>
    intro acc h
    refine ih _ ?_
    dsimp only
    (repeat' split) <;> simp [h]

@[simp] theorem State.showSlots_mem (s : State) (r : Rider) :
    (State.showSlots s r).mem = s.mem := by
  simp [State.showSlots]

@[simp] theorem State.stepRelease_mem (s : State) (r : Rider) :
    (State.stepRelease s r).mem = s.mem := by
  simp [State.stepRelease]

@[simp] theorem State.applyCodes_mem (s : State) (v : Verdict) :
    (State.applyCodes s v).mem = s.mem := by
  simp [State.applyCodes]

@[simp] theorem State.applyRungs_mem (s : State) (v : Verdict) :
    (State.applyRungs s v).mem = s.mem := by
  simp [State.applyRungs]

@[simp] theorem State.rewindQueues_mem (s : State) : s.rewindQueues.mem = s.mem := by
  unfold State.rewindQueues
  refine (foldl_mem _ _ _ ?_).trans rfl
  intro s a
  dsimp only
  split <;> simp

@[simp] theorem State.rewindCtxs_mem (s : State) :
    (State.rewindCtxs s).mem = s.mem := by
  simp [State.rewindCtxs]

@[simp] theorem State.beginAttempt_mem (s : State) :
    (State.beginAttempt s).mem = s.mem := by
  simp [State.beginAttempt]

@[simp] theorem State.dropApplied_mem (s : State) :
    (State.dropApplied s).mem = s.mem := by
  simp [State.dropApplied]

@[simp] theorem State.passRatios_mem (s : State) :
    (State.passRatios s).mem = s.mem := by
  simp [State.passRatios]

@[simp] theorem State.copySection_mem (s : State) (step : Nat) :
    (State.copySection s step).mem = s.mem := by
  simp [State.copySection]

@[simp] theorem State.stepPass_mem (s : State) :
    (State.stepPass s).mem = s.mem := by
  simp [State.stepPass]

@[simp] theorem State.stepReplay_mem (s : State) :
    (State.stepReplay s).mem = s.mem := by
  simp [State.stepReplay]

@[simp] theorem State.rephase_mem (s : State) (p : Cmd → Bool) (f : Phase) :
    (State.rephase s p f).mem = s.mem := by
  simp [State.rephase]

@[simp] theorem State.stepAbandon_mem (s : State) (v : Verdict) :
    (State.stepAbandon s v).mem = s.mem := by
  simp [State.stepAbandon]

@[simp] theorem State.showVerdict_mem (s : State) (v : Verdict) :
    (State.showVerdict s v).mem = s.mem := by
  simp [State.showVerdict]

@[simp] theorem State.verdictEffect_mem (s : State) :
    (State.verdictEffect s).mem = s.mem := by
  unfold State.verdictEffect
  (repeat' split) <;> simp

@[simp] theorem State.injectReplay_mem (s : State) :
    (State.injectReplay s).mem = s.mem := by
  simp [State.injectReplay]

@[simp] theorem State.heldStepWrite_mem (s : State) (v : Nat) :
    (State.heldStepWrite s v).mem = s.mem := by
  simp [State.heldStepWrite]

@[simp] theorem State.countRung_mem (s : State) (d : BitVec 1024) :
    (State.countRung s d).mem = s.mem := by
  simp [State.countRung]

@[simp] theorem State.noteEntry_mem (s : State) (source : Nat) (cause : Nat) (unit : BitVec 32) :
    (State.noteEntry s source cause unit).mem = s.mem := by
  simp [State.noteEntry]

@[simp] theorem State.suspectCommitted_mem (s : State) (tPass : Nat) :
    (State.suspectCommitted s tPass).mem = s.mem := by
  simp [State.suspectCommitted]

@[simp] theorem State.failShaft_mem (s : State) (t : Nat) (p : Nat) (source : Nat) (cause : Nat) :
    (State.failShaft s t p source cause).mem = s.mem := by
  simp [State.failShaft]

@[simp] theorem State.unitSuspect_mem (s : State) :
    (State.unitSuspect s).mem = s.mem := by
  simp [State.unitSuspect]

@[simp] theorem State.fenceNext_mem (s : State) (d : Die) (lost : Bool) :
    (State.fenceNext s d lost).mem = s.mem := by
  simp [State.fenceNext]

@[simp] theorem State.loseStore_mem (s : State) (d : Die) (cls : Nat) : (State.loseStore s d cls).mem = s.mem := by
  unfold State.loseStore
  (repeat' split) <;> rfl

@[simp] theorem State.failUnit_mem (s : State) (d : Die) (cls : Nat) (idx : Nat) (source : Nat) (cause : Nat) :
    (State.failUnit s d cls idx source cause).mem = s.mem := by
  simp [State.failUnit]

@[simp] theorem State.badArrival_mem (s : State) (unit : BitVec 32) (ctx : Nat) (addr : Nat) (check : Nat) :
    (State.badArrival s unit ctx addr check).mem = s.mem := by
  simp [State.badArrival]

@[simp] theorem State.redClear_mem (s : State) :
    (State.redClear s).mem = s.mem := by
  simp [State.redClear]

@[simp] theorem State.tellEpoch_mem (s : State) (told : Bool) (hit : Option (Nat × Nat × Nat)) :
    (State.tellEpoch s told hit).mem = s.mem := by
  unfold State.tellEpoch
  dsimp only
  (repeat' split) <;> simp

@[simp] theorem State.releaseRound_mem (s : State) (m : Nat) :
    (State.releaseRound s m).mem = s.mem := by
  simp [State.releaseRound]

@[simp] theorem State.completeRound_mem (s : State) (m : Nat) (now : Nat) :
    (State.completeRound s m now).mem = s.mem := by
  simp [State.completeRound]

@[simp] theorem State.rootPart_mem (s : State) (m : Nat) (module : Nat) (now : Nat) :
    (State.rootPart s m module now).mem = s.mem := by
  simp [State.rootPart]

@[simp] theorem State.partComplete_mem (s : State) (m : Nat) (now : Nat) :
    (State.partComplete s m now).mem = s.mem := by
  simp [State.partComplete]

@[simp] theorem State.checkPart_mem (s : State) (m : Nat) (now : Nat) :
    (State.checkPart s m now).mem = s.mem := by
  simp [State.checkPart]

@[simp] theorem State.settle_mem (s : State) (m : Nat) (now : Nat) :
    (State.settle s m now).mem = s.mem := by
  simp [State.settle]

@[simp] theorem State.arrive_mem (s : State) (c : Cmd) (now : Nat) :
    (State.arrive s c now).mem = s.mem := by
  unfold State.arrive
  dsimp only
  (repeat' split) <;> simp

@[simp] theorem State.releaseDue_mem (s : State) (len : Nat) : (s.releaseDue len).mem = s.mem := by
  unfold State.releaseDue
  refine foldl_mem _ _ _ ?_
  intro s a
  dsimp only
  split
  · rfl
  · split <;> simp

@[simp] theorem State.checkEpochs_mem (s : State) (c : Cmd) (os : List Operand) :
    (State.checkEpochs s c os).1.mem = s.mem := by
  unfold State.checkEpochs
  dsimp only
  (repeat' split) <;> simp

@[simp] theorem State.tallyReads_mem (s : State) (c : Cmd) (os : List Operand) :
    (State.tallyReads s c os).mem = s.mem := by
  simp [State.tallyReads]

@[simp] theorem State.portCounts_mem (s : State) (c : Cmd) :
    (State.portCounts s c).mem = s.mem := by
  simp [State.portCounts]

@[simp] theorem State.workDone_mem (s : State) (c : Cmd) :
    (State.workDone s c).mem = s.mem := by
  simp [State.workDone]

@[simp] theorem State.passRecords_mem (s : State) (x : ArrayIn) :
    (State.passRecords s x).mem = s.mem := by
  simp [State.passRecords]

@[simp] theorem State.tellInvalid_mem (s : State) (c : Cmd) (a : Bool) (b : Bool) :
    (State.tellInvalid s c a b).mem = s.mem := by
  simp [State.tellInvalid]

@[simp] theorem State.tellCaps_mem (s : State) (x : ArrayIn) :
    (State.tellCaps s x).mem = s.mem := by
  simp [State.tellCaps]

@[simp] theorem State.parityFault_mem (s : State) (c : Cmd) (code : Nat) (arg : Nat) (group : Nat) :
    (State.parityFault s c code arg group).mem = s.mem := by
  simp [State.parityFault]

@[simp] theorem State.arrayParity_mem (s : State) (c : Cmd) (hit : ArrayHit) :
    (State.arrayParity s c hit).mem = s.mem := by
  unfold State.arrayParity
  dsimp only
  (repeat' split) <;> simp

@[simp] theorem State.stalls_mem (s : State) (c : Cmd) (key : Nat) (ev : Nat) (source : Nat) (stall : Nat) :
    (State.stalls s c key ev source stall).mem = s.mem := by
  simp [State.stalls]

@[simp] theorem State.arrayCounts_mem (s : State) (c : Cmd) (x : ArrayIn) (stall : LogStall) :
    (State.arrayCounts s c x stall).mem = s.mem := by
  simp [State.arrayCounts]

@[simp] theorem passSplit_mem (q : Nat) (slot : Nat) (s : State) :
    (passSplit q slot s).mem = s.mem := by
  unfold passSplit
  (repeat' split) <;> simp

@[simp] theorem nuggetPoolSwap_mem (die : Nat) (shaft : Nat) (engine : Nat) (sub : Nat) (need : Nat) (s : State) :
    (nuggetPoolSwap die shaft engine sub need s).mem = s.mem := by
  simp [nuggetPoolSwap]

theorem State.armOne_mem (s : State) (ctx : Nat) (d : BitVec 364) (draw : Option (BitVec 84)) (t : State)
    (h : s.armOne ctx d draw = some t) : t.mem = s.mem := by
  unfold State.armOne at h
  dsimp only at h
  split at h
  · exact absurd h (by simp)
  · split at h <;> (cases h; simp)

@[simp] theorem State.armFrom_mem (s : State) (c : Cmd) (l : List Nat) (n : Nat) :
    (s.armFrom c l n).1.mem = s.mem := by
  induction l generalizing s n with
  | nil => rfl
  | cons j rest ih =>
    unfold State.armFrom
    split
    · rfl
    · split
      · rfl
      · rename_i h
        exact (ih _ _).trans (State.armOne_mem _ _ _ _ _ h)

@[simp] theorem State.armWork_mem (s : State) (q : Nat) (slot : Nat) :
    (State.armWork s q slot).mem = s.mem := by
  unfold State.armWork
  (repeat' split) <;> simp

@[simp] theorem State.nopWork_mem (s : State) (q : Nat) (slot : Nat) :
    (State.nopWork s q slot).mem = s.mem := by
  unfold State.nopWork
  (repeat' split) <;> simp

@[simp] theorem State.failWaiters_mem (s : State) (page : Nat) :
    (State.failWaiters s page).mem = s.mem := by
  simp [State.failWaiters]

@[simp] theorem State.startIn_mem (s : State) (page : Nat) (f : Nat × Nat × Nat) (t : Nat) :
    (State.startIn s page f t).mem = s.mem := by
  simp [State.startIn]

@[simp] theorem State.retryPageIns_mem (s : State) : s.retryPageIns.mem = s.mem := by
  unfold State.retryPageIns
  refine foldl_mem _ _ _ fun s p => ?_
  (repeat' split) <;> simp

@[simp] theorem pageIn_mem (addr : Nat) (s : State) :
    (pageIn addr s).mem = s.mem := by
  unfold pageIn
  dsimp only
  (repeat' split) <;> simp

@[simp] theorem State.haltWaiter_mem (s : State) (ctx : Nat) (addr : Nat) :
    (State.haltWaiter s ctx addr).mem = s.mem := by
  unfold State.haltWaiter
  (repeat' split) <;> simp

@[simp] theorem State.pageServes_mem (s : State) (ctx : Nat) :
    (State.pageServes s ctx).mem = s.mem := by
  simp [State.pageServes]

@[simp] theorem State.putEntry_mem (s : State) (a : Nat) (e : Nat) :
    (State.putEntry s a e).mem = s.mem := by
  simp [State.putEntry]

@[simp] theorem State.mapOne_mem (s : State) (a : Nat) (e : Nat) :
    (State.mapOne s a e).mem = s.mem := by
  simp [State.mapOne]

@[simp] theorem State.mapApply_mem (s : State) (pairs : List (Nat × Nat)) :
    (State.mapApply s pairs).mem = s.mem := by
  simp [State.mapApply]

@[simp] theorem State.afterDrain_mem (s : State) (page : Nat) : (s.afterDrain page).mem = s.mem := by
  unfold State.afterDrain
  refine foldl_mem _ _ _ fun s ctx => ?_
  split
  · simp
  · rfl
  · dsimp only
    split <;> simp

@[simp] theorem State.unmapUnit_mem (s : State) (tier : Nat) (unit : Nat) :
    (State.unmapUnit s tier unit).mem = s.mem := by
  simp [State.unmapUnit]

@[simp] theorem State.resumeCtx_mem (s : State) (ctx : Nat) :
    (State.resumeCtx s ctx).mem = s.mem := by
  simp [State.resumeCtx]

@[simp] theorem retentionWake_mem (die : Nat) (unit : Nat) (s : State) :
    (retentionWake die unit s).mem = s.mem := by
  simp [retentionWake]

@[simp] theorem State.setGroup_mem (s : State) (f : Nat) (g : Nat) (e : Nat) :
    (State.setGroup s f g e).mem = s.mem := by
  simp [State.setGroup]

@[simp] theorem State.fixFail_mem (s : State) (c : Cmd) (bad : Nat × Nat) :
    (State.fixFail s c bad).mem = s.mem := by
  simp [State.fixFail]

@[simp] theorem State.updateAdmitted_mem (s : State) (c : Cmd) (gate : UpdGate) :
    (State.updateAdmitted s c gate).1.mem = s.mem := by
  unfold State.updateAdmitted
  (repeat' split) <;> simp

@[simp] theorem State.gradEpochs_mem (s : State) (c : Cmd) (t : Tensor) (ps : List (Nat × Plate)) :
    (State.gradEpochs s c t ps).mem = s.mem := by
  unfold State.gradEpochs
  (repeat' split) <;> simp

@[simp] theorem State.copyCounts_mem (s : State) (o : Option TensorOut) :
    (State.copyCounts s o).mem = s.mem := by
  unfold State.copyCounts
  (repeat' split) <;> simp

@[simp] theorem State.commitFault_mem (s : State) (c : Cmd) (bad : Nat × Nat) :
    (State.commitFault s c bad).mem = s.mem := by
  simp [State.commitFault]

@[simp] theorem State.applyFreezes_mem (s : State) (f : Nat) (step : Nat) :
    (State.applyFreezes s f step).mem = s.mem := by
  simp [State.applyFreezes]

@[simp] theorem State.clearHolds_mem (s : State) (f : Nat) :
    (State.clearHolds s f).mem = s.mem := by
  simp [State.clearHolds]

@[simp] theorem State.freezeWrite_mem (s : State) (v : Nat) :
    (State.freezeWrite s v).mem = s.mem := by
  simp [State.freezeWrite]

@[simp] theorem State.probe_mem (s : State) (step : Nat) :
    (State.probe s step).mem = s.mem := by
  simp [State.probe]

@[simp] theorem State.sendSaved_mem (s : State) (f : Nat) (module : Nat) (addr : Nat) (p : Plate) :
    (State.sendSaved s f module addr p).mem = s.mem := by
  simp [State.sendSaved]

@[simp] theorem State.sendHeader_mem (s : State) (f : Nat) (sv : Save) (complete : Bool) (sent : Nat) :
    (State.sendHeader s f sv complete sent).mem = s.mem := by
  simp [State.sendHeader]

@[simp] theorem State.ckAdmitted_mem (s : State) (c : Cmd) :
    (State.ckAdmitted s c).1.mem = s.mem := by
  unfold State.ckAdmitted
  (repeat' split) <;> simp

@[simp] theorem State.ckptOutcome_mem (s : State) (f : Nat) (o : Nat) :
    (State.ckptOutcome s f o).mem = s.mem := by
  simp [State.ckptOutcome]

@[simp] theorem State.stopSave_mem (s : State) (f : Nat) :
    (State.stopSave s f).mem = s.mem := by
  unfold State.stopSave
  (repeat' split) <;> simp

@[simp] theorem State.clearChange_mem (s : State) (f : Nat) (sv : Save) (made : List (Nat × BitVec 1024)) :
    (State.clearChange s f sv made).mem = s.mem := by
  simp [State.clearChange]

@[simp] theorem State.saveComplete_mem (s : State) (f : Nat) (sv : Save) :
    (State.saveComplete s f sv).mem = s.mem := by
  simp [State.saveComplete]

@[simp] theorem State.saveWork_mem (s : State) (q : Nat) (slot : Nat) (acked : Bool) :
    (State.saveWork s q slot acked).mem = s.mem := by
  unfold State.saveWork
  dsimp only
  (repeat' split) <;> simp

@[simp] theorem State.ckptStop_mem (s : State) (f : Nat) :
    (State.ckptStop s f).mem = s.mem := by
  unfold State.ckptStop
  dsimp only
  (repeat' split) <;> simp

@[simp] theorem State.takeSlots_mem (s : State) (sec : List (Nat × Byte)) : (s.takeSlots sec).mem = s.mem := by
  unfold State.takeSlots
  exact foldl_mem _ _ _ fun s a => by simp

@[simp] theorem State.takeSteering_mem (s : State) (sec : List (Nat × Byte)) : (s.takeSteering sec).mem = s.mem := by
  unfold State.takeSteering
  exact foldl_mem _ _ _ fun s a => by simp

@[simp] theorem State.applySection_mem (s : State) : s.applySection.mem = s.mem := by
  unfold State.applySection
  cases s.step.restore with
  | none => rfl
  | some sec =>
    exact (State.takeSteering_mem _ _).trans ((State.setDom_mem _ _ _ _).trans ((State.takeSlots_mem _ _).trans rfl))

@[simp] theorem State.armTableUe_mem (s : State) (d : BitVec 1024) :
    (State.armTableUe s d).mem = s.mem := by
  unfold State.armTableUe
  (repeat' split) <;> simp

@[simp] theorem State.armTableSeen_mem (s : State) (d : BitVec 1024) :
    (State.armTableSeen s d).mem = s.mem := by
  simp [State.armTableSeen]

@[simp] theorem State.joinPhase_mem (s : State) (c : Cmd) : (s.joinPhase c).mem = s.mem := by
  unfold State.joinPhase
  dsimp only
  (repeat' split) <;> rfl

@[simp] theorem State.admitNow_mem (s : State) (c : Cmd) :
    (State.admitNow s c).1.mem = s.mem := by
  simp [State.admitNow]

@[simp] theorem State.tellBehind_mem (s : State) (c : Cmd) : (s.tellBehind c).mem = s.mem := by
  unfold State.tellBehind
  split <;> simp

@[simp] theorem State.visited_mem (s : State) (q : Nat) (k : Nat) (now : Nat) :
    (State.visited s q k now).mem = s.mem := by
  unfold State.visited
  dsimp only
  (repeat' split) <;> simp

@[simp] theorem State.suspend_mem (s : State) (q : Nat) (slot : Nat) (used : Nat) :
    (State.suspend s q slot used).mem = s.mem := by
  unfold State.suspend
  split
  · rfl
  · split
    · rfl
    · dsimp only
      rw [State.traceCmd_mem, foldl_mem _ _ _ fun s b => by simp]
      (repeat' split) <;> simp

@[simp] theorem State.restoreSuspended_mem (s : State) :
    (State.restoreSuspended s).mem = s.mem := by
  refine State.eachCmd_mem _ _ _ fun s c => ?_
  dsimp only
  split <;> simp

@[simp] theorem State.bracketSeen_mem (s : State) (c : Cmd) :
    (State.bracketSeen s c).mem = s.mem := by
  simp [State.bracketSeen]

@[simp] theorem State.enableQueue_mem (s : State) (q : Nat) :
    (State.enableQueue s q).mem = s.mem := by
  simp [State.enableQueue]

@[simp] theorem State.disableQueue_mem (s : State) (q : Nat) :
    (State.disableQueue s q).mem = s.mem := by
  simp [State.disableQueue]

@[simp] theorem State.haltByHost_mem (s : State) (q : Nat) :
    (State.haltByHost s q).mem = s.mem := by
  simp [State.haltByHost]

@[simp] theorem State.setPhys_mem (s : State) (t : Nat) (p : Nat) (v : Nat) :
    (State.setPhys s t p v).mem = s.mem := by
  simp [State.setPhys]

@[simp] theorem State.showSpares_mem (s : State) (t : Nat) :
    (State.showSpares s t).mem = s.mem := by
  simp [State.showSpares]

@[simp] theorem State.buildTable_mem (s : State) (t : Nat) (n : Nat) :
    (State.buildTable s t n).mem = s.mem := by
  simp [State.buildTable]

@[simp] theorem State.clearTable_mem (s : State) (t : Nat) :
    (State.clearTable s t).mem = s.mem := by
  simp [State.clearTable]

@[simp] theorem State.showShape_mem (s : State) :
    (State.showShape s).mem = s.mem := by
  simp [State.showShape]

@[simp] theorem State.showList_mem (s : State) :
    (State.showList s).mem = s.mem := by
  simp [State.showList]

theorem State.chooseList_mem (s t : State) (h : s.chooseList = some t) : t.mem = s.mem := by
  unfold State.chooseList at h
  dsimp only at h
  split at h <;> first | (cases h; rfl) | exact absurd h (by simp)

@[simp] theorem State.appendList_mem (s : State) :
    (State.appendList s).mem = s.mem := by
  simp [State.appendList]

@[simp] theorem State.unionShafts_mem (s : State) (t : Nat) :
    (State.unionShafts s t).mem = s.mem := by
  simp [State.unionShafts]

@[simp] theorem State.unionUnits_mem (s : State) (d : Die) :
    (State.unionUnits s d).mem = s.mem := by
  unfold State.unionUnits
  (repeat' split) <;> simp

@[simp] theorem State.loseMemory_mem (s : State) (d : Die) :
    (State.loseMemory s d).mem = s.mem := by
  unfold State.loseMemory
  (repeat' split) <;> simp

@[simp] theorem State.dropHolds_mem (s : State) :
    (State.dropHolds s).mem = s.mem := by
  simp [State.dropHolds]

@[simp] theorem State.strayStope_mem (s : State) (t : Nat) (p : Nat) :
    (State.strayStope s t p).mem = s.mem := by
  simp [State.strayStope]

@[simp] theorem State.moveStray_mem (s : State) (src : Nat) (dst : Nat) :
    (State.moveStray s src dst).mem = s.mem := by
  simp [State.moveStray]

theorem State.takeSwap_mem (s : State) (t k : Nat) (u : State) (h : s.takeSwap t k = some u) : u.mem = s.mem := by
  unfold State.takeSwap at h
  split at h
  · cases h; rfl
  · obtain ⟨fs, _, rfl⟩ := Option.map_eq_some_iff.mp h
    rfl

theorem State.doubleShaft_mem (s : State) (t k : Nat) (u : State) (h : s.doubleShaft t k = some u) : u.mem = s.mem := by
  unfold State.doubleShaft at h
  split at h
  · exact absurd h (by simp)
  · dsimp only at h
    split at h
    · exact absurd h (by simp)
    · rename_i h'
      cases h
      obtain ⟨v, h1, h2⟩ := Option.bind_eq_some_iff.mp h'
      rw [State.raiseAt_mem, State.takeSwap_mem _ _ _ _ h2, State.takeSwap_mem _ _ _ _ h1]
      simp

@[simp] theorem State.readmitDie_mem (s : State) (d : Die) :
    (State.readmitDie s d).mem = s.mem := by
  unfold State.readmitDie
  (repeat' split) <;> simp

@[simp] theorem State.retireStacks_mem (s : State) :
    (State.retireStacks s).mem = s.mem := by
  simp [State.retireStacks]

@[simp] theorem State.startTables_mem (s : State) :
    (State.startTables s).mem = s.mem := by
  simp [State.startTables]

@[simp] theorem State.startJob_mem (s : State) : s.startJob.mem = s.mem := by
  unfold State.startJob
  generalize List.range 32 = l
  dsimp only
  refine (State.showShape_mem _).trans ?_
  refine (foldl_mem _ _ _ fun s a => by simp).trans ?_
  simp only [State.setReg_mem, State.startTables_mem]
  refine (foldl_mem _ _ _ fun s a => by split <;> simp).trans ?_
  refine foldl_mem _ _ _ fun s a => ?_
  split <;> simp

@[simp] theorem State.fenceRequest_mem (s : State) (d : Die) (fence : Bool) :
    (State.fenceRequest s d fence).mem = s.mem := by
  simp [State.fenceRequest]

@[simp] theorem State.setPortState_mem (s : State) (p : Nat) (v : Nat) :
    (State.setPortState s p v).mem = s.mem := by
  simp [State.setPortState]

@[simp] theorem State.haltStreams_mem (s : State) (f : Nat → Bool) : (s.haltStreams f).mem = s.mem := by
  unfold State.haltStreams
  refine foldl_mem _ _ _ fun s c => foldl_mem _ _ _ fun s b => ?_
  dsimp only
  split
  · split <;> simp
  · rfl

@[simp] theorem State.setChangeBits_mem (s : State) (m : Nat) :
    (State.setChangeBits s m).mem = s.mem := by
  simp [State.setChangeBits]

@[simp] theorem State.routesChanged_mem (old s : State) : (State.routesChanged old s).mem = s.mem := by
  unfold State.routesChanged
  refine foldl_mem _ _ _ fun s a => ?_
  dsimp only
  (repeat' split) <;> simp

@[simp] theorem State.voidLink_mem (s : State) (p : Nat) :
    (State.voidLink s p).mem = s.mem := by
  simp [State.voidLink]

@[simp] theorem State.portDown_mem (s : State) (p : Nat) (st : Nat) :
    (State.portDown s p st).mem = s.mem := by
  simp [State.portDown]

@[simp] theorem State.portUpWith_mem (s : State) (p : Nat) (st : Nat) :
    (State.portUpWith s p st).mem = s.mem := by
  simp [State.portUpWith]

@[simp] theorem State.startRetrain_mem (s : State) (p : Nat) (why : Nat) :
    (State.startRetrain s p why).mem = s.mem := by
  simp [State.startRetrain]

@[simp] theorem State.holdDown_mem (s : State) (p : Nat) (why : Nat) :
    (State.holdDown s p why).mem = s.mem := by
  simp [State.holdDown]

@[simp] theorem State.swapLane_mem (s : State) (p : Nat) (k : Nat) (ask : Bool) :
    (State.swapLane s p k ask).mem = s.mem := by
  simp [State.swapLane]

@[simp] theorem State.swapAsked_mem (s : State) (p : Nat) (k : Nat) : (State.swapAsked s p k).mem = s.mem := by
  simp [State.swapAsked]

@[simp] theorem State.marginWindow_mem (s : State) (p : Nat) (lane : Nat) (ratio : BitVec 32) (uncorr : Nat) (noLock : Bool) :
    (State.marginWindow s p lane ratio uncorr noLock).mem = s.mem := by
  unfold State.marginWindow
  dsimp only
  (repeat' split) <;> simp

@[simp] theorem State.requalify_mem (s : State) (p : Nat) :
    (State.requalify s p).mem = s.mem := by
  simp [State.requalify]

@[simp] theorem State.qualified_mem (s : State) (p : Nat) (failing : List Nat) (ratios : List (BitVec 32)) (peerId : Nat) (peerPort : Nat) :
    (State.qualified s p failing ratios peerId peerPort).mem = s.mem := by
  unfold State.qualified
  dsimp only
  (repeat' split) <;> simp

@[simp] theorem State.retrainPort_mem (s : State) (p : Nat) (replays : Bool) (attempts : Nat) (ok : Bool) :
    (State.retrainPort s p replays attempts ok).mem = s.mem := by
  simp [State.retrainPort]

@[simp] theorem State.sendNak_mem (s : State) (p : Nat) :
    (State.sendNak s p).mem = s.mem := by
  simp [State.sendNak]

@[simp] theorem State.replayFrames_mem (s : State) (p : Nat) :
    (State.replayFrames s p).mem = s.mem := by
  simp [State.replayFrames]

@[simp] theorem State.takeAck_mem (s : State) (p : Nat) (f : Frame) :
    (State.takeAck s p f).mem = s.mem := by
  simp [State.takeAck]

@[simp] theorem State.answer_mem (s : State) (type : Nat) (kind : Nat) (m : DriftMsg) (plates : List Bytes) :
    (State.answer s type kind m plates).mem = s.mem := by
  simp [State.answer]

@[simp] theorem State.forward_mem (s : State) (type : Nat) (m : DriftMsg) (plates : List Bytes) (rider : Option Rider) :
    (State.forward s type m plates rider).mem = s.mem := by
  simp [State.forward]

@[simp] theorem State.replyTransfer_mem (s : State) (m : DriftMsg) (plates : List Bytes) :
    (State.replyTransfer s m plates).mem = s.mem := by
  unfold State.replyTransfer
  (repeat' split) <;> simp

@[simp] theorem State.riderTransfer_mem (s : State) (m : DriftMsg) (r : Rider) :
    (State.riderTransfer s m r).mem = s.mem := by
  simp [State.riderTransfer]

@[simp] theorem State.arrivalFaults_mem (s : State) (p : Nat) (l : List (Nat × Nat × Nat)) :
    (State.arrivalFaults s p l).mem = s.mem := by
  simp [State.arrivalFaults]

@[simp] theorem State.openTransfer_mem (s : State) (p : Nat) (m : DriftMsg) :
    (State.openTransfer s p m).mem = s.mem := by
  simp [State.openTransfer]

@[simp] theorem State.remoteAcked_mem (s : State) (e : Nat) (n : Nat) (u : TagUse) :
    (State.remoteAcked s e n u).mem = s.mem := by
  simp [State.remoteAcked]

@[simp] theorem State.ackMessage_mem (s : State) (m : DriftMsg) :
    (State.ackMessage s m).mem = s.mem := by
  unfold State.ackMessage
  dsimp only
  (repeat' split) <;> simp

@[simp] theorem State.refused_mem (s : State) (c : Cmd) (u : TagUse) (kind : Nat) :
    (State.refused s c u kind).mem = s.mem := by
  unfold State.refused
  dsimp only
  (repeat' split) <;> simp

@[simp] theorem State.refuseMessage_mem (s : State) (m : DriftMsg) :
    (State.refuseMessage s m).mem = s.mem := by
  unfold State.refuseMessage
  dsimp only
  (repeat' split) <;> simp

@[simp] theorem State.partMessage_mem (s : State) (m : DriftMsg) (now : Nat) :
    (State.partMessage s m now).mem = s.mem := by
  simp [State.partMessage]

@[simp] theorem State.releaseMessage_mem (s : State) (m : DriftMsg) :
    (State.releaseMessage s m).mem = s.mem := by
  simp [State.releaseMessage]

@[simp] theorem State.portsOfFenced_mem (s : State) (d : Die) :
    (State.portsOfFenced s d).mem = s.mem := by
  unfold State.portsOfFenced
  (repeat' split) <;> simp

@[simp] theorem State.portsOfReadmitted_mem (s : State) (d : Die) :
    (State.portsOfReadmitted s d).mem = s.mem := by
  unfold State.portsOfReadmitted
  (repeat' split) <;> simp

@[simp] theorem State.passEnded_mem (s : State) (t : Nat) (p : Nat) :
    (State.passEnded s t p).mem = s.mem := by
  simp [State.passEnded]

@[simp] theorem State.vectorFailed_mem (s : State) (d : Die) (cls : Nat) (idx : Nat) (group : Nat) (vectorId : Nat) :
    (State.vectorFailed s d cls idx group vectorId).mem = s.mem := by
  simp [State.vectorFailed]

@[simp] theorem State.scrubbed_mem (s : State) (tier : Nat) (unit : Nat) (corrected : Nat) (ue : List (Nat × Nat)) (fullPass : Bool) :
    (State.scrubbed s tier unit corrected ue fullPass).mem = s.mem := by
  simp [State.scrubbed]

@[simp] theorem State.bgTested_mem (s : State) (t : Nat) (shaft : Option Nat) (region : Nat) (failed : Bool) :
    (State.bgTested s t shaft region failed).mem = s.mem := by
  unfold State.bgTested
  (repeat' split) <;> simp

@[simp] theorem State.apFault_mem (s : State) (o : Nat) (t : ApTarget) (write : Bool) :
    (State.apFault s o t write).mem = s.mem := by
  simp [State.apFault]

@[simp] theorem State.apertureRead_mem (s : State) (o : Nat) (n : Nat) :
    (State.apertureRead s o n).mem = s.mem := by
  unfold State.apertureRead
  dsimp only
  (repeat' split) <;> simp

@[simp] theorem State.linkTrained_mem (s : State) (rate width : Nat) (flit : Bool) :
    (s.linkTrained rate width flit).mem = s.mem := by
  unfold State.linkTrained
  split
  · rfl
  · exact (foldl_mem _ _ _ fun s a => by simp).trans (by simp)

@[simp] theorem State.beginSwitch_mem (s : State) (toRecovered : Bool) (ds : List (Nat × ClockDomain)) :
    (State.beginSwitch s toRecovered ds).mem = s.mem := by
  simp [State.beginSwitch]

@[simp] theorem State.endSwitch_mem (s : State) :
    (State.endSwitch s).mem = s.mem := by
  unfold State.endSwitch
  split
  · dsimp only
    split <;> simp
  · rfl

@[simp] theorem State.selectRecovered_mem (s : State) :
    (State.selectRecovered s).mem = s.mem := by
  simp [State.selectRecovered]

@[simp] theorem State.selectLocal_mem (s : State) :
    (State.selectLocal s).mem = s.mem := by
  simp [State.selectLocal]

@[simp] theorem State.latchRef_mem (s : State) (ppm : BitVec 32) : (State.latchRef s ppm).mem = s.mem := by
  simp [State.latchRef]

@[simp] theorem State.lostReference_mem (s : State) (cause : Nat) (ppm : BitVec 32) :
    (State.lostReference s cause ppm).mem = s.mem := by
  simp [State.lostReference]

@[simp] theorem State.switched_mem (s : State) (d : Die) (c : ClockDomain) :
    (State.switched s d c).mem = s.mem := by
  simp [State.switched]

@[simp] theorem State.latchFreq_mem (s : State) (l : List (Die × Fin 8 × Nat)) :
    (State.latchFreq s l).mem = s.mem := by
  simp [State.latchFreq]

@[simp] theorem State.setCap_mem (s : State) (i : Nat) (b : Bool) :
    (State.setCap s i b).mem = s.mem := by
  simp [State.setCap]

@[simp] theorem State.tell_mem (s : State) (code : Nat) (sev : Nat) (a0 : Nat) (a1 : Nat) :
    (State.tell s code sev a0 a1).mem = s.mem := by
  simp [State.tell]

@[simp] theorem State.setBootCode_mem (s : State) (v : Nat) :
    (State.setBootCode s v).mem = s.mem := by
  simp [State.setBootCode]

@[simp] theorem State.addCause_mem (s : State) (c : Nat) :
    (State.addCause s c).mem = s.mem := by
  simp [State.addCause]

@[simp] theorem State.dropCause_mem (s : State) (c : Nat) :
    (State.dropCause s c).mem = s.mem := by
  simp [State.dropCause]

@[simp] theorem State.showCap_mem (s : State) :
    (State.showCap s).mem = s.mem := by
  simp [State.showCap]

@[simp] theorem State.enterSafe_mem (s : State) :
    (State.enterSafe s).mem = s.mem := by
  simp [State.enterSafe]

@[simp] theorem State.leaveSafe_mem (s : State) :
    (State.leaveSafe s).mem = s.mem := by
  simp [State.leaveSafe]

@[simp] theorem State.overCap_mem (s : State) (avg : BitVec 32) :
    (State.overCap s avg).mem = s.mem := by
  simp [State.overCap]

@[simp] theorem State.learnPhase_mem (s : State) (t : Nat) (act : Nat) :
    (State.learnPhase s t act).mem = s.mem := by
  simp [State.learnPhase]

@[simp] theorem State.recalibrate_mem (s : State) (t : Nat) (meas : BitVec 32) (est : BitVec 32) :
    (State.recalibrate s t meas est).mem = s.mem := by
  simp [State.recalibrate]

@[simp] theorem State.noteClock_mem (s : State) (t : Nat) (mhz : Nat) :
    (State.noteClock s t mhz).mem = s.mem := by
  simp [State.noteClock]

@[simp] theorem State.openPhases_mem (s : State) : s.openPhases.mem = s.mem := by
  simp [State.openPhases]

@[simp] theorem State.govern_mem (s : State) :
    (State.govern s).mem = s.mem := by
  simp [State.govern]

@[simp] theorem State.gateLoop_mem (s : State) (t : Nat) (activity : Nat) (measured : BitVec 32) (wantsRise : Bool) (now : Nat) :
    (State.gateLoop s t activity measured wantsRise now).mem = s.mem := by
  simp [State.gateLoop]

@[simp] theorem State.setStep_mem (s : State) (d : Die) (step : Nat) (t : Int) :
    (State.setStep s d step t).mem = s.mem := by
  simp [State.setStep]

@[simp] theorem State.latchHot_mem (s : State) (d : Die) (v : BitVec 32) :
    (State.latchHot s d v).mem = s.mem := by
  simp [State.latchHot]

@[simp] theorem State.latchPower_mem (s : State) (env : TickEnv) :
    (State.latchPower s env).mem = s.mem := by
  simp [State.latchPower]

@[simp] theorem State.wipe_mem (s : State) (failed : List Die) :
    (State.wipe s failed).mem = s.mem := by
  simp [State.wipe]

@[simp] theorem State.closeSessions_mem (s : State) :
    (State.closeSessions s).mem = s.mem := by
  simp [State.closeSessions]

@[simp] theorem State.closeSession_mem (s : State) (p : Path) :
    (State.closeSession s p).mem = s.mem := by
  simp [State.closeSession]

@[simp] theorem State.logPart_mem (s : State) (d : Die) (kind : Nat) (im : ImageCopy) :
    (State.logPart s d kind im).mem = s.mem := by
  unfold State.logPart
  (repeat' split) <;> simp

@[simp] theorem State.keepLog_mem (s : State) :
    (State.keepLog s).mem = s.mem := by
  simp [State.keepLog]

@[simp] theorem State.lcTransition_mem (s : State) (failed : List Die) :
    (State.lcTransition s failed).mem = s.mem := by
  unfold State.lcTransition
  (repeat' split) <;> simp

@[simp] theorem State.draw64_mem (s : State) :
    (State.draw64 s).mem = s.mem := by
  simp [State.draw64]

@[simp] theorem State.generateIdentity_mem (s : State) :
    (State.generateIdentity s).mem = s.mem := by
  simp [State.generateIdentity]

@[simp] theorem State.attest_mem (s : State) (nonce : Bytes) :
    (State.attest s nonce).mem = s.mem := by
  unfold State.attest
  (repeat' split) <;> simp

@[simp] theorem State.advanceFloor_mem (s : State) :
    (State.advanceFloor s).mem = s.mem := by
  unfold State.advanceFloor
  (repeat' split) <;> simp

@[simp] theorem State.openUpdate_mem (s : State) :
    (State.openUpdate s).mem = s.mem := by
  simp [State.openUpdate]

@[simp] theorem State.abandonUpdate_mem (s : State) :
    (State.abandonUpdate s).mem = s.mem := by
  simp [State.abandonUpdate]

@[simp] theorem State.stageSegment_mem (s : State) (content : Bytes) :
    (State.stageSegment s content).mem = s.mem := by
  unfold State.stageSegment
  (repeat' split) <;> simp

@[simp] theorem State.commitUpdate_mem (s : State) (im : ImageCopy) :
    (State.commitUpdate s im).mem = s.mem := by
  unfold State.commitUpdate
  (repeat' split) <;> simp

@[simp] theorem State.switchPolicy_mem (s : State) :
    (State.switchPolicy s).mem = s.mem := by
  unfold State.switchPolicy
  (repeat' split) <;> simp

@[simp] theorem State.newChallenge_mem (s : State) (p : Path) :
    (State.newChallenge s p).mem = s.mem := by
  simp [State.newChallenge]

@[simp] theorem State.openSession_mem (s : State) (p : Path) (slot : Nat) :
    (State.openSession s p slot).mem = s.mem := by
  simp [State.openSession]

@[simp] theorem State.doe_mem (s : State) (which : Nat) (request : Bytes) (content : Bytes) :
    (State.doe s which request content).mem = s.mem := by
  simp [State.doe]

@[simp] theorem State.coldStart_mem (s : State) :
    (State.coldStart s).mem = s.mem := by
  simp [State.coldStart]

@[simp] theorem State.addMs_mem (s : State) (step : Nat) (ms : Nat) :
    (State.addMs s step ms).mem = s.mem := by
  simp [State.addMs]

@[simp] theorem State.fenceBoot_mem (s : State) (d : Die) :
    (State.fenceBoot s d).mem = s.mem := by
  simp [State.fenceBoot]

@[simp] theorem State.bootUnit_mem (s : State) (u : BitVec 32) :
    (State.bootUnit s u).mem = s.mem := by
  simp [State.bootUnit]

@[simp] theorem State.unionAll_mem (s : State) : s.unionAll.mem = s.mem := by
  unfold State.unionAll
  refine foldl_mem _ _ _ fun s d => ?_
  dsimp only
  (repeat' split) <;> simp

@[simp] theorem State.settleLinks_mem (s : State) :
    (State.settleLinks s).mem = s.mem := by
  simp [State.settleLinks]

@[simp] theorem State.ready_mem (s : State) :
    (State.ready s).mem = s.mem := by
  simp [State.ready]

@[simp] theorem State.restartStop_mem (s : State) :
    (State.restartStop s).mem = s.mem := by
  simp [State.restartStop]

@[simp] theorem State.restartBoot_mem (s : State) :
    (State.restartBoot s).mem = s.mem := by
  simp [State.restartBoot]

@[simp] theorem State.latchTallies_mem (s : State) :
    (State.latchTallies s).mem = s.mem := by
  simp [State.latchTallies]

@[simp] theorem State.selectTallies_mem (s : State) (t : Nat) (content : Bytes) :
    (State.selectTallies s t content).mem = s.mem := by
  simp [State.selectTallies]

@[simp] theorem State.armTrace_mem (s : State) :
    (State.armTrace s).mem = s.mem := by
  simp [State.armTrace]

@[simp] theorem State.stopTrace_mem (s : State) :
    (State.stopTrace s).mem = s.mem := by
  simp [State.stopTrace]

@[simp] theorem State.armFull_mem (s : State) (on : Bool) :
    (State.armFull s on).mem = s.mem := by
  simp [State.armFull]

@[simp] theorem State.showHalted_mem (s : State) (t : Nat) :
    (State.showHalted s t).mem = s.mem := by
  simp [State.showHalted]

@[simp] theorem State.stopEngines_mem (s : State) (t : Nat) (mine : Nat → Bool) :
    (s.stopEngines t mine).mem = s.mem := by
  unfold State.stopEngines
  refine foldl_mem _ _ _ fun s c => foldl_mem _ _ _ fun s b => ?_
  split <;> simp

@[simp] theorem State.breakHit_mem (s : State) (t : Nat) (core : Nat) (i : Nat) :
    (State.breakHit s t core i).mem = s.mem := by
  unfold State.breakHit
  dsimp only
  (repeat' split) <;> simp

@[simp] theorem State.breakGo_mem (s : State) (t : Nat) :
    (State.breakGo s t).mem = s.mem := by
  simp [State.breakGo]

@[simp] theorem State.heard_mem (s : State) (p : Path) :
    (State.heard s p).mem = s.mem := by
  unfold State.heard
  (repeat' split) <;> simp

@[simp] theorem State.keep_mem (s : State) (p : Path) (y : Kept) :
    (State.keep s p y).mem = s.mem := by
  simp [State.keep]

@[simp] theorem State.signed_mem (s : State) (x : Option Session) (m : Msg) (svc : Nat) (describe : Bool) (r : Resp) :
    (State.signed s x m svc describe r).1.mem = s.mem := by
  unfold State.signed
  (repeat' split) <;> simp

@[simp] theorem State.authTake_mem (s : State) (m : Msg) :
    (State.authTake s m).mem = s.mem := by
  unfold State.authTake
  (repeat' split) <;> simp

@[simp] theorem State.applyTable_mem (s : State) (p : Path) (k : Nat) (c : Bytes) :
    (State.applyTable s p k c).mem = s.mem := by
  unfold State.applyTable
  (repeat' split) <;> simp

@[simp] theorem State.queueWrite_mem (s : State) (p : Path) (k : Nat) (b : Bytes) :
    (State.queueWrite s p k b).mem = s.mem := by
  simp [State.queueWrite]

@[simp] theorem State.takeSource_mem (s : State) :
    (State.takeSource s).mem = s.mem := by
  simp [State.takeSource]

@[simp] theorem State.slowSubs_mem (n : Nat) (s : State) : (State.slowSubs n s).mem = s.mem := by
  induction n generalizing s with
  | zero => rfl
  | succ n ih =>
    unfold State.slowSubs
    split
    · rfl
    · exact ih _

@[simp] theorem State.takePeriod_mem (s : State) (v : Nat) :
    (State.takePeriod s v).mem = s.mem := by
  simp [State.takePeriod]

@[simp] theorem State.readBlock_mem (s : State) (m : Msg) :
    (State.readBlock s m).1.mem = s.mem := by
  unfold State.readBlock
  dsimp only
  (repeat' split) <;> simp

@[simp] theorem State.subscribe_mem (s : State) (m : Msg) :
    (State.subscribe s m).1.mem = s.mem := by
  unfold State.subscribe
  dsimp only
  (repeat' split) <;> simp

@[simp] theorem State.respond_mem (s : State) (svc : Nat) (d : Bool) (m : Msg) (r : Resp) (t : Option Trailer) :
    (State.respond s svc d m r t).mem = s.mem := by
  simp [State.respond]

@[simp] theorem State.keepAnswer_mem (s : State) (svc : Nat) (d : Bool) (m : Msg) (r : Resp) (t : Option Trailer) :
    (State.keepAnswer s svc d m r t).mem = s.mem := by
  simp [State.keepAnswer]

@[simp] theorem State.mirrorWrite_mem (s : State) (q : Nat) (off : Nat) (len : Nat) (v : Nat) :
    (State.mirrorWrite s q off len v).mem = s.mem := by
  simp [State.mirrorWrite]

@[simp] theorem State.makeBoundary_mem (s : State) :
    (State.makeBoundary s).mem = s.mem := by
  simp [State.makeBoundary]

@[simp] theorem State.holdover_mem (s : State) :
    (State.holdover s).mem = s.mem := by
  simp [State.holdover]

@[simp] theorem State.strayEdge_mem (s : State) :
    (State.strayEdge s).mem = s.mem := by
  simp [State.strayEdge]

@[simp] theorem State.edge_mem (s : State) (since : Int) (offset : Int) :
    (State.edge s since offset).mem = s.mem := by
  unfold State.edge
  (repeat' split) <;> simp

@[simp] theorem State.strike_mem (s : State) (u : Upset) :
    (State.strike s u).mem = s.mem := by
  simp [State.strike]

@[simp] theorem State.binUpset_mem (s : State) (u : BinUpset) :
    (State.binUpset s u).mem = s.mem := by
  unfold State.binUpset
  dsimp only
  (repeat' split) <;> simp

@[simp] theorem State.upsets_mem (s : State) (env : TickEnv) :
    (State.upsets s env).mem = s.mem := by
  simp [State.upsets]

@[simp] theorem State.heartbeats_mem (s : State) (silent : List Die) :
    (State.heartbeats s silent).mem = s.mem := by
  simp [State.heartbeats]

@[simp] theorem State.countShape_mem (s : State) (before : List Nat) :
    (State.countShape s before).mem = s.mem := by
  simp [State.countShape]

@[simp] theorem State.takeVerdict_mem (s : State) :
    (State.takeVerdict s).mem = s.mem := by
  simp [State.takeVerdict]

@[simp] theorem State.retainDie_mem (s : State) (busy : List (Nat × Nat)) (t : Nat) :
    (State.retainDie s busy t).mem = s.mem := by
  simp [State.retainDie]

@[simp] theorem State.retain_mem (s : State) :
    (State.retain s).mem = s.mem := by
  simp [State.retain]

@[simp] theorem State.losePublish_mem (s : State) (p : Path) : (s.losePublish p).mem = s.mem := by
  simp [State.losePublish]

@[simp] theorem State.publish_mem (s : State) (unsent : List Path) : (s.publish unsent).mem = s.mem := by
  unfold State.publish
  refine foldl_mem _ _ _ fun s y => ?_
  dsimp only
  split
  · simp
  · split <;> simp

@[simp] theorem State.drivePulse_mem (s : State) :
    (State.drivePulse s).mem = s.mem := by
  simp [State.drivePulse]

@[simp] theorem State.markTick_mem (s : State) : s.markTick.mem = s.mem := by
  simp [State.markTick]

end Sys2Proof.Machine
end

