-- ==== Sys2Proof/Laws/MemWf.lean ====
section
/-! SUPPORT. Memory keeps its canonical form through everything that stores. -/

namespace Sys2Proof.Machine

theorem foldl_wf {α : Type} (f : State → α → State) (l : List α) (s : State) (h : Mem.wf s.mem = true)
    (hf : ∀ s a, Mem.wf s.mem = true → Mem.wf (f s a).mem = true) : Mem.wf (l.foldl f s).mem = true := by
  induction l generalizing s with
  | nil => exact h
  | cons a t ih => exact ih _ (hf s a h)

theorem foldl_wf' {α β : Type} (g : β → State) (f : β → α → β) (l : List α) (s : β) (h : Mem.wf (g s).mem = true)
    (hf : ∀ s a, Mem.wf (g s).mem = true → Mem.wf (g (f s a)).mem = true) : Mem.wf (g (l.foldl f s)).mem = true := by
  induction l generalizing s with
  | nil => exact h
  | cons a t ih => exact ih _ (hf s a h)

theorem eachCmd_wf (s : State) (p : Cmd → Bool) (f : State → Cmd → State) (h : Mem.wf s.mem = true)
    (hf : ∀ s c, Mem.wf s.mem = true → Mem.wf (f s c).mem = true) : Mem.wf (s.eachCmd p f).mem = true := by
  unfold State.eachCmd
  refine foldl_wf _ _ _ h fun s a h => ?_
  split
  · exact h
  · split
    · exact hf _ _ h
    · exact h

/-- A state that stops a reading has canonical memory. -/
def StopWf {α : Type} (x : Try α) : Prop := ∀ e, x = .error e → Mem.wf e.mem = true

theorem tryWf_bind {α : Type} (x : Try α) (f : α → Try State) (hx : StopWf x)
    (hf : ∀ a, x = .ok a → Mem.wf (f a).state.mem = true) : Mem.wf (x >>= f).state.mem = true := by
  cases x with
  | error e => exact hx e rfl
  | ok a => exact hf a rfl

theorem stopWf_bind {α β : Type} (x : Try α) (f : α → Try β) (hx : StopWf x) (hf : ∀ a, StopWf (f a)) :
    StopWf (x >>= f) := by
  cases x with
  | error e => intro e' h; exact hx e' (by simpa [bind, Except.bind] using h)
  | ok a => exact hf a

theorem stopWf_map {α β : Type} (x : Try α) (f : α → β) (hx : StopWf x) : StopWf (x.map f) := by
  cases x with
  | error e => intro e' h; exact hx e' (by simpa [Except.map] using h)
  | ok a => intro e' h; simp [Except.map] at h

theorem stopWf_ok {α : Type} (a : α) : StopWf (.ok a : Try α) := by intro e h; cases h

theorem tryWf_ite (p : Prop) [Decidable p] (x y : Try State) (hx : p → Mem.wf x.state.mem = true)
    (hy : ¬p → Mem.wf y.state.mem = true) : Mem.wf (if p then x else y).state.mem = true := by
  split
  · exact hx ‹_›
  · exact hy ‹_›

theorem stopWf_ite {α : Type} (p : Prop) [Decidable p] (x y : Try α) (hx : StopWf x) (hy : StopWf y) :
    StopWf (if p then x else y) := by
  split
  · exact hx
  · exact hy

theorem okWf_ite {ε β : Type} {g : β → State} (p : Prop) [Decidable p] (x y : Except ε β)
    (hx : ∀ u, x = .ok u → Mem.wf (g u).mem = true) (hy : ∀ u, y = .ok u → Mem.wf (g u).mem = true) :
    ∀ u, (if p then x else y) = .ok u → Mem.wf (g u).mem = true := by
  split
  · exact hx
  · exact hy

theorem okWf_ok {ε β : Type} {g : β → State} (s : β) (h : Mem.wf (g s).mem = true) :
    ∀ u, (.ok s : Except ε β) = .ok u → Mem.wf (g u).mem = true := by
  intro u hu
  injection hu with hu
  exact hu ▸ h

theorem wf_ite (p : Prop) [Decidable p] (x y : State) (hx : Mem.wf x.mem = true) (hy : Mem.wf y.mem = true) :
    Mem.wf (if p then x else y).mem = true := by
  split
  · exact hx
  · exact hy

@[simp] theorem wf_ite_iff (p : Prop) [Decidable p] (x y : List Host.Cell) :
    Mem.wf (if p then x else y) = true ↔ (p → Mem.wf x = true) ∧ (¬p → Mem.wf y = true) := by
  split <;> simp [*]

theorem wf_fst_ite {β : Type} (p : Prop) [Decidable p] (x y : State × β) (hx : Mem.wf x.1.mem = true)
    (hy : Mem.wf y.1.mem = true) : Mem.wf (if p then x else y).1.mem = true := by
  split
  · exact hx
  · exact hy

theorem okWf_bind {ε α β : Type} {g : β → State} (x : Except ε α) (f : α → Except ε β)
    (hf : ∀ a, x = .ok a → ∀ u, f a = .ok u → Mem.wf (g u).mem = true) :
    ∀ u, (x >>= f) = .ok u → Mem.wf (g u).mem = true := by
  cases x with
  | error e => intro u h; cases h
  | ok a => exact hf a rfl

theorem foldlM_wf {ε α β : Type} {g : β → State} (f : β → α → Except ε β) (l : List α) (s : β)
    (h : Mem.wf (g s).mem = true)
    (hf : ∀ s a, Mem.wf (g s).mem = true → ∀ u, f s a = .ok u → Mem.wf (g u).mem = true) :
    ∀ u, l.foldlM f s = .ok u → Mem.wf (g u).mem = true := by
  induction l generalizing s with
  | nil => intro u hu; cases hu; exact h
  | cons a t ih => exact okWf_bind _ _ fun s' e => ih s' (hf s a h s' e)

theorem fst_wf {β : Type} {x : State × β} {s : State} {b : β} (e : x = (s, b)) (h : Mem.wf x.1.mem = true) :
    Mem.wf s.mem = true := by subst e; exact h

theorem State.readOperand_stop (s : State) (c : Cmd) (ctx : Nat) (hm : Mem.wf s.mem = true) : StopWf (s.readOperand c ctx) := by
  intro e h
  unfold State.readOperand at h
  split at h <;> cases h <;> simp [hm]

theorem State.checkDraws_stop (s : State) (c : Cmd) (ctx : Nat) (sr : Bool) (hm : Mem.wf s.mem = true) :
    StopWf (s.checkDraws c ctx sr) := by
  intro e h
  unfold State.checkDraws at h
  dsimp only at h
  split at h <;> cases h
  simp [hm]

theorem State.checkWrite_stop (s : State) (c : Cmd) (ctx : Nat) (hm : Mem.wf s.mem = true) : StopWf (s.checkWrite c ctx) := by
  intro e h
  unfold State.checkWrite at h
  dsimp only at h
  split at h <;> cases h
  simp [hm]

theorem State.arrayIn_stop (s : State) (c : Cmd) (hm : Mem.wf s.mem = true) : StopWf (s.arrayIn c) := by
  have h := fun k => State.readOperand_stop s c k hm
  unfold State.arrayIn
  dsimp only
  refine stopWf_bind _ _ (h _) fun a => stopWf_bind _ _ (h _) fun b => ?_
  split
  all_goals
    refine stopWf_bind _ _ (by first | exact stopWf_ok _ | exact stopWf_map _ _ (h _)) fun x => ?_
    split <;> exact stopWf_bind _ _ (by first | exact stopWf_ok _ | exact stopWf_map _ _ (h _)) fun y => stopWf_ok _

@[simp] theorem State.store_wf (s : State) (a : Nat) (bs : Bytes) (hm : Mem.wf s.mem = true) :
    Mem.wf (State.store s a bs).mem = true := Mem.wf_writeN bs _ a hm

@[simp] theorem State.putPlate_wf (s : State) (p : Place) (x : Plate) (hm : Mem.wf s.mem = true) :
    Mem.wf (State.putPlate s p x).mem = true := by
  simp only [State.putPlate, State.tame_mem, State.healLines_mem]
  exact State.store_wf _ _ _ (State.store_wf _ _ _ (State.store_wf _ _ _ hm))

@[simp] theorem State.writeRecord_wf (s : State) (c : Cmd) (status : Nat) (hm : Mem.wf s.mem = true) :
    Mem.wf (State.writeRecord s c status).mem = true := by
  unfold State.writeRecord
  dsimp only
  split
  · split <;> simp [hm]
  · simp [hm]

@[simp] theorem State.finish_wf (s : State) (c : Cmd) (status : Nat) (hm : Mem.wf s.mem = true) :
    Mem.wf (State.finish s c status).mem = true := by
  unfold State.finish
  (repeat' split) <;> simp [hm]

@[simp] theorem State.redWriteOut_wf (s : State) (d : Nat) (k : Nat) (line : Nat) (e : Nat) (l : RedLine) (hm : Mem.wf s.mem = true) :
    Mem.wf (State.redWriteOut s d k line e l).mem = true := by
  unfold State.redWriteOut
  dsimp only
  (repeat' split) <;> simp [hm]

@[simp] theorem State.reduceAdd_wf (s : State) (d : Nat) (k : Nat) (addr : Nat) (p : Plate) (hm : Mem.wf s.mem = true) :
    Mem.wf (State.reduceAdd s d k addr p).mem = true := by
  unfold State.reduceAdd
  dsimp only
  (repeat' split) <;> simp [hm]

@[simp] theorem State.emit_wf (s : State) (ctx : Nat) (t : Tensor) (off : Nat) (p : Plate) (hm : Mem.wf s.mem = true) :
    Mem.wf (State.emit s ctx t off p).mem = true := by
  unfold State.emit
  (repeat' split) <;> simp [hm]

@[simp] theorem State.emitTensor_wf (s : State) (ctx : Nat) (t : Tensor) (ps : List (Nat × Plate)) (hm : Mem.wf s.mem = true) :
    Mem.wf (State.emitTensor s ctx t ps).mem = true := by
  have h : Mem.wf (ps.foldl (fun s (p : Nat × Plate) => State.emit s ctx t p.1 p.2) s).mem = true :=
    foldl_wf _ _ _ hm fun s p h => State.emit_wf s ctx t p.1 p.2 h
  unfold State.emitTensor
  dsimp only
  split
  · exact h
  · simpa using h

@[simp] theorem State.complete_wf (s : State) (c : Cmd) (status : Nat) (now : Nat) (hm : Mem.wf s.mem = true) :
    Mem.wf (State.complete s c status now).mem = true := by
  unfold State.complete
  (repeat' split) <;> simp [hm]

@[simp] theorem State.discard_wf (s : State) (c : Cmd) (hm : Mem.wf s.mem = true) :
    Mem.wf (State.discard s c).mem = true := by
  simp [State.discard, hm]

@[simp] theorem State.cutOff_wf (s : State) (c : Cmd) (status : Nat) (hm : Mem.wf s.mem = true) :
    Mem.wf (State.cutOff s c status).mem = true := by
  simp [State.cutOff, hm]

@[simp] theorem State.breakMuster_wf (s : State) (m : Nat) (hm : Mem.wf s.mem = true) :
    Mem.wf (State.breakMuster s m).mem = true := by
  unfold State.breakMuster
  refine eachCmd_wf _ _ _ hm ?_
  intro s a hm
  simp [hm]

@[simp] theorem State.loseModule_wf (s : State) (m : Nat) (hm : Mem.wf s.mem = true) :
    Mem.wf (State.loseModule s m).mem = true := by
  simp [State.loseModule, hm]

@[simp] theorem musterTimeout_wf (m : Nat) (lost : Bool) (s : State) (hm : Mem.wf s.mem = true) :
    Mem.wf (musterTimeout m lost s).mem = true := by
  unfold musterTimeout State.loseModule
  dsimp only
  (repeat' split) <;> simp [hm]

@[simp] theorem State.fillWindow_wf (s : State) (c : Cmd) (ctx : Nat) (ps : List (Nat × Plate)) (hm : Mem.wf s.mem = true) :
    Mem.wf (State.fillWindow s c ctx ps).mem = true := by
  unfold State.fillWindow
  dsimp only
  refine wf_ite _ _ _ hm (foldl_wf _ _ _ hm fun s p h => ?_)
  split <;> simp [h]

@[simp] theorem State.writeOutput_wf (s : State) (c : Cmd) (ctx : Nat) (sr : Bool) (form : Nat) (src : Nat → Nat → Nat → Fx)
    (hm : Mem.wf s.mem = true) : Mem.wf (State.writeOutput s c ctx sr form src).1.mem = true := by
  simp [State.writeOutput, hm]

@[simp] theorem State.fillWindows_wf (s : State) (c : Cmd) (os : List Operand) (hm : Mem.wf s.mem = true) :
    Mem.wf (State.fillWindows s c os).mem = true :=
  foldl_wf _ _ _ hm fun s o h => State.fillWindow_wf s c o.ctx o.ps h

@[simp] theorem State.arrayRun_wf (s : State) (c : Cmd) (stall : LogStall) (hm : Mem.wf s.mem = true) :
    Mem.wf (State.arrayRun s c stall).state.mem = true := by
  unfold State.arrayRun
  dsimp only
  refine tryWf_bind _ _ (checkDraws_stop _ _ _ _ hm) fun _ _ => ?_
  refine tryWf_bind _ _ (arrayIn_stop _ _ (by simp [hm])) fun x _ => ?_
  refine tryWf_bind _ _ (checkWrite_stop _ _ _ (by simp [hm])) fun _ _ => ?_
  split
  · refine tryWf_bind _ _ (checkWrite_stop _ _ _ (by simp [hm])) fun _ _ => ?_
    simp only [Try.state, State.workDone_mem, State.shareBatch_mem, State.setArray_mem, State.setEngine_mem]
    exact State.writeOutput_wf _ _ _ _ _ _ (State.writeOutput_wf _ _ _ _ _ _ (by simp [hm]))
  · simp [Try.state, hm]

@[simp] theorem State.arrayWork_wf (s : State) (q slot stall : Nat) (parity : Option ArrayHit) (mine : Mode → Bool)
    (hm : Mem.wf s.mem = true) : Mem.wf (State.arrayWork s q slot stall parity mine).mem = true := by
  unfold State.arrayWork
  (repeat' split) <;> simp [hm]

@[simp] theorem State.logWork_wf (s : State) (q slot : Nat) (stall : LogStall) (parity : Option LogHit) (hm : Mem.wf s.mem = true) :
    Mem.wf (State.logWork s q slot stall parity).mem = true := by
  unfold State.logWork
  (repeat' split) <;> try simp [hm]
  rename_i c _ _ _
  have h := State.arrayRun_wf s c stall hm
  revert h
  generalize State.arrayRun s c stall = x
  intro h
  cases x with
  | error e => exact h
  | ok a => simpa [Try.state, bind, Except.bind] using h

@[simp] theorem State.vectorRun_wf (s : State) (c : Cmd) (f : VecFn) (hm : Mem.wf s.mem = true) :
    Mem.wf (State.vectorRun s c f).state.mem = true := by
  have hd := fun c k b => State.checkDraws_stop s c k b hm
  have hr := fun k => State.readOperand_stop s c k hm
  have hw := fun k => State.checkWrite_stop s c k hm
  unfold State.vectorRun
  dsimp only
  repeat' first
    | exact hd _ _ _
    | exact hr _
    | exact hw _
    | exact stopWf_ok _
    | exact stopWf_map _ _ (hr _)
    | refine tryWf_bind _ _ ?_ fun _ _ => ?_
    | refine tryWf_ite _ _ _ (fun _ => ?_) (fun _ => ?_)
    | refine stopWf_ite _ _ _ ?_ ?_
    | dsimp only
  all_goals
    simp only [Try.state, State.workDone_mem]
    repeat' split
    all_goals
      repeat' first
        | with_reducible refine State.writeOutput_wf _ _ _ _ _ _ ?_
        | with_reducible refine State.fillWindow_wf _ _ _ _ ?_
      simp [hm]

@[simp] theorem State.vectorWork_wf (s : State) (q : Nat) (slot : Nat) (func : Nat) (f : VecFn) (hm : Mem.wf s.mem = true) :
    Mem.wf (State.vectorWork s q slot func f).mem = true := by
  unfold State.vectorWork
  (repeat' split) <;> simp [hm]

@[simp] theorem State.copyRun_wf (s : State) (c : Cmd) (hm : Mem.wf s.mem = true) :
    Mem.wf (State.copyRun s c).state.mem = true := by
  have hd := fun c k b => State.checkDraws_stop s c k b hm
  have hr := fun k => State.readOperand_stop s c k hm
  have hw := fun k => State.checkWrite_stop s c k hm
  unfold State.copyRun
  dsimp only
  repeat' first
    | exact hd _ _ _
    | exact hr _
    | exact hw _
    | refine tryWf_bind _ _ ?_ fun _ _ => ?_
    | refine tryWf_ite _ _ _ (fun _ => ?_) (fun _ => ?_)
    | refine stopWf_ite _ _ _ ?_ ?_
    | dsimp only
  all_goals
    simp only [Try.state, State.workDone_mem]
    repeat' split
    all_goals
      repeat' first
        | with_reducible refine State.writeOutput_wf _ _ _ _ _ _ ?_
        | with_reducible refine State.fillWindow_wf _ _ _ _ ?_
      simp [hm]

@[simp] theorem State.copyWork_wf (s : State) (q : Nat) (slot : Nat) (hm : Mem.wf s.mem = true) :
    Mem.wf (State.copyWork s q slot).mem = true := by
  unfold State.copyWork
  (repeat' split) <;> simp [hm]

@[simp] theorem State.dumpWork_wf (s : State) (q : Nat) (slot : Nat) (hm : Mem.wf s.mem = true) :
    Mem.wf (State.dumpWork s q slot).mem = true := by
  unfold State.dumpWork
  split
  · exact hm
  · split
    · simp [hm]
    · dsimp only
      rw [State.workDone_mem]
      refine foldl_wf _ _ _ hm fun s a h => ?_
      split <;> simp [h]

@[simp] theorem State.copyPage_wf (s : State) (src dst : Parts) (hm : Mem.wf s.mem = true) :
    Mem.wf (State.copyPage s src dst).mem = true := by
  unfold State.copyPage
  split
  · exact hm
  · exact Mem.wf_copy _ _ _ _ (Mem.wf_copy _ _ _ _ (copyNuggets_wf _ _ _ hm))

@[simp] theorem pageInDone_wf (addr : Nat) (readError : Bool) (s : State) (hm : Mem.wf s.mem = true) :
    Mem.wf (pageInDone addr readError s).mem = true := by
  unfold pageInDone
  dsimp only
  (repeat' split) <;> simp [hm]

@[simp] theorem State.copyOut_wf (s : State) (old new : Nat) (hm : Mem.wf s.mem = true) :
    Mem.wf (State.copyOut s old new).mem = true := by
  unfold State.copyOut
  split
  · exact foldl_wf _ _ _ hm fun s a h => State.copyPage_wf _ _ _ h
  · (repeat' split) <;> simp [hm]

@[simp] theorem pageDrainDone_wf (addr : Nat) (bad : Option Nat) (s : State) (hm : Mem.wf s.mem = true) :
    Mem.wf (pageDrainDone addr bad s).mem = true := by
  unfold pageDrainDone
  dsimp only
  (repeat' split) <;> simp [hm]

@[simp] theorem State.refuseCmd_wf (s : State) (c : Cmd) (status : Nat) (hm : Mem.wf s.mem = true) :
    Mem.wf (State.refuseCmd s c status).mem = true := by
  unfold State.refuseCmd
  dsimp only
  (repeat' split) <;> simp [hm]

@[simp] theorem State.writeFix_wf (s : State) (t : Tensor) (ps : List (Nat × Plate)) (hm : Mem.wf s.mem = true) :
    Mem.wf (State.writeFix s t ps).mem = true := by
  unfold State.writeFix
  refine foldl_wf _ _ _ hm fun s a h => ?_
  split <;> simp [h]

theorem State.updDenseRun_wf (s : State) (c : Cmd) (hm : Mem.wf s.mem = true) :
    ∀ u, State.updDenseRun s c = .ok u → Mem.wf u.mem = true := by
  unfold State.updDenseRun
  dsimp only
  repeat' first
    | refine okWf_bind _ _ fun _ _ => ?_
    | refine okWf_ite _ _ _ ?_ ?_
    | dsimp only
  all_goals
    refine okWf_ok _ ?_
    simp only [State.setCmd_mem, State.bump_mem]
    repeat' first
      | with_reducible refine wf_ite _ _ _ ?_ ?_
      | with_reducible refine wf_fst_ite _ _ _ ?_ ?_
      | with_reducible refine State.writeFix_wf _ _ _ ?_
      | rw [State.copyCounts_mem]
      | rw [State.convCounts_mem]
    all_goals simp only [State.gradEpochs_mem, hm]

theorem State.updRowsRun_wf (s : State) (c : Cmd) (hm : Mem.wf s.mem = true) :
    ∀ u, State.updRowsRun s c = .ok u → Mem.wf u.mem = true := by
  unfold State.updRowsRun
  dsimp only
  repeat' first
    | refine okWf_bind _ _ fun _ _ => ?_
    | refine okWf_ite _ _ _ ?_ ?_
    | dsimp only
  all_goals
    refine okWf_ok _ ?_
    simp [hm]

theorem State.touchRun_wf (s : State) (c : Cmd) (hm : Mem.wf s.mem = true) :
    ∀ u, State.touchRun s c = .ok u → Mem.wf u.mem = true := by
  unfold State.touchRun
  refine okWf_bind _ _ fun _ _ => ?_
  refine okWf_ok _ ?_
  simp only [State.setCmd_mem]
  split <;> simp [hm]

@[simp] theorem State.updateWork_wf (s : State) (q : Nat) (slot : Nat) (hm : Mem.wf s.mem = true) :
    Mem.wf (State.updateWork s q slot).mem = true := by
  unfold State.updateWork
  split
  · exact hm
  · dsimp only
    split
    · rename_i h
      split at h
      · exact State.touchRun_wf _ _ hm _ h
      · split at h
        · exact State.updRowsRun_wf _ _ hm _ h
        · exact State.updDenseRun_wf _ _ hm _ h
    · simp [hm]

@[simp] theorem State.changePlate_wf (s : State) (c : Cmd) (t : Tensor) (off : Nat) (f : Plate → Plate) (hm : Mem.wf s.mem = true) :
    Mem.wf (State.changePlate s c t off f).mem = true := by
  unfold State.changePlate
  split <;> simp [hm]

theorem State.reformCopy_wf (s : State) (e sd fmt : Nat) (hm : Mem.wf s.mem = true) :
    ∀ u, State.reformCopy s e sd fmt = .ok u → Mem.wf u.1.mem = true := by
  unfold State.reformCopy
  refine okWf_bind _ _ fun _ _ => okWf_bind _ _ fun _ _ => okWf_ok _ ?_
  dsimp only
  rw [State.copyCounts_mem]
  split <;> simp [hm]

@[simp] theorem State.putCopyRow_wf (s : State) (c : Cmd) (e : Nat) (h : HeldRow) (hm : Mem.wf s.mem = true) :
    Mem.wf (State.putCopyRow s c e h).mem = true := by
  unfold State.putCopyRow
  dsimp only
  split
  · exact hm
  · split
    · simp [hm]
    · refine foldl_wf _ _ _ hm fun s a h => ?_
      split <;> simp [h]

@[simp] theorem State.commitRow_wf (s : State) (c : Cmd) (e step : Nat) (h : HeldRow) (hm : Mem.wf s.mem = true) :
    Mem.wf (State.commitRow s c e step h).mem = true := by
  unfold State.commitRow
  dsimp only
  rw [State.bump_mem]
  refine State.changePlate_wf _ _ _ _ _ (State.putCopyRow_wf _ _ _ _ ?_)
  refine foldl_wf _ _ _ (State.writeFix_wf _ _ _ (State.writeFix_wf _ _ _ hm)) fun s a h => ?_
  split <;> simp [h]

theorem State.commitRows_wf (c : Cmd) (f g step e : Nat) (l : List HeldRow) (s : State) (hm : Mem.wf s.mem = true) :
    Mem.wf (l.foldl (fun s h =>
      let s := s.commitRow c e step h
      s.setFixer f ((s.fixer f).changedRow g h.row)) s).mem = true :=
  foldl_wf _ _ _ hm fun s a h => by simp [h]

@[simp] theorem State.commitGroup_wf (s : State) (c : Cmd) (f g fmt step : Nat) (hm : Mem.wf s.mem = true) :
    Mem.wf (State.commitGroup s c f g fmt step).1.mem = true := by
  unfold State.commitGroup
  dsimp only
  refine wf_fst_ite _ _ _ ?_ ?_
  · simp only [State.bump_mem]
    split
    · refine State.reformCopy_wf _ _ _ _ ?_ _ ‹_›
      simp only [State.bump_mem, State.setGroup_mem, State.setFixer_mem]
      exact wf_ite _ _ _ (State.commitRows_wf _ _ _ _ _ _ _ hm) hm
    · simp only [State.bump_mem, State.setGroup_mem, State.setFixer_mem, State.commitFault_mem]
      exact wf_ite _ _ _ (State.commitRows_wf _ _ _ _ _ _ _ hm) hm
  · simp only [State.bump_mem, State.setGroup_mem, State.setFixer_mem]
    exact wf_ite _ _ _ (State.commitRows_wf _ _ _ _ _ _ _ hm) hm

@[simp] theorem State.commitDie_wf (s : State) (c : Cmd) (f step : Nat) (hm : Mem.wf s.mem = true) :
    Mem.wf (State.commitDie s c f step).1.mem = true := by
  unfold State.commitDie
  simp only [State.clearHolds_mem, State.applyFreezes_mem]
  exact foldl_wf' Prod.fst _ _ _ (by simp [hm]) fun s a h => by simp [h]

@[simp] theorem State.loseUpdates_wf (s : State) (f : Nat) (step : Nat) (hm : Mem.wf s.mem = true) :
    Mem.wf (State.loseUpdates s f step).mem = true := by
  unfold State.loseUpdates
  refine eachCmd_wf _ _ _ hm ?_
  intro s a hm
  simp [hm]

@[simp] theorem State.updateLeaves_wf (s : State) (c : Cmd) (hm : Mem.wf s.mem = true) :
    Mem.wf (State.updateLeaves s c).mem = true := by
  unfold State.updateLeaves
  dsimp only
  refine wf_ite _ _ _ hm (wf_ite _ _ _ (by simp [hm]) ?_)
  rw [State.applyFreezes_mem, foldl_mem _ _ _ fun s a => by simp]
  simp [hm]

@[simp] theorem State.verdictWork_wf (s : State) (q : Nat) (slot : Nat) (hm : Mem.wf s.mem = true) :
    Mem.wf (State.verdictWork s q slot).mem = true := by
  unfold State.verdictWork
  dsimp only
  (repeat' split) <;> simp [hm]

theorem State.restorePart_wf (s : State) (peer : List (Nat × Byte)) (k from' : Nat) (t : Tensor) (lines : List (Nat × Nat))
    (hm : Mem.wf s.mem = true) : ∀ u, State.restorePart s peer k from' t lines = .ok u → Mem.wf u.mem = true := by
  unfold State.restorePart
  refine okWf_bind _ _ fun _ _ => okWf_bind _ _ fun _ _ => okWf_ok _ ?_
  refine foldl_wf _ _ _ hm fun s a h => ?_
  split <;> simp [h]

theorem State.reformRows_wf (s : State) (e row n : Nat) (hm : Mem.wf s.mem = true) :
    ∀ u, State.reformRows s e row n = .ok u → Mem.wf u.1.mem = true := by
  unfold State.reformRows
  dsimp only
  refine okWf_bind _ _ fun _ _ => okWf_ite _ _ _ (okWf_ok _ hm) (okWf_bind _ _ fun _ _ => okWf_ite _ _ _ ?_ ?_)
  · exact okWf_ok _ (State.writeFix_wf _ _ _ hm)
  · exact okWf_ok _ (by simp [hm])

theorem State.restoreRows_wf (s : State) (c : Cmd) (peer : List (Nat × Byte)) (k : Nat) (tab : Nat → Nat)
    (hm : Mem.wf s.mem = true) : ∀ u, State.restoreRows s c peer k tab = .ok u → Mem.wf u.mem = true := by
  unfold State.restoreRows
  refine okWf_bind _ _ fun s1 h1 => okWf_bind _ _ fun s2 h2 => okWf_bind _ _ fun s3 h3 => okWf_ok _ ?_
  have w1 := foldlM_wf _ _ _ hm (fun s a h => State.restorePart_wf _ _ _ _ _ _ h) s1 h1
  have w2 := foldlM_wf _ _ _ w1 (fun s a h => by
    exact okWf_ite _ _ _ (State.restorePart_wf _ _ _ _ _ _ h) (State.restorePart_wf _ _ _ _ _ _ h)) s2 h2
  simpa using State.reformRows_wf _ _ _ _ w2 s3 h3

@[simp] theorem State.restoreGroupWork_wf (s : State) (q slot : Nat) (peer : List (Nat × Byte)) (hm : Mem.wf s.mem = true) :
    Mem.wf (State.restoreGroupWork s q slot peer).mem = true := by
  unfold State.restoreGroupWork
  split
  · exact hm
  · refine wf_ite _ _ _ hm (wf_ite _ _ _ (by simp [hm]) ?_)
    split
    · simp [hm]
    · split
      · simp [hm]
      · refine wf_ite _ _ _ ?_ (by simp [hm])
        split
        · exact State.restoreRows_wf _ _ _ _ _ hm _ ‹_›
        · simp [hm]

@[simp] theorem State.restoreModuleWork_wf (s : State) (q : Nat) (slot : Nat) (peer : List (Nat × Byte)) (hm : Mem.wf s.mem = true) :
    Mem.wf (State.restoreModuleWork s q slot peer).mem = true := by
  unfold State.restoreModuleWork
  (repeat' split) <;> simp [hm]

theorem State.sheetPlate_wf (s : State) (c : Cmd) (n addr : Nat) (p : Plate) (hm : Mem.wf s.mem = true) :
    ∀ u, State.sheetPlate s c n addr p = .ok u → Mem.wf u.mem = true := by
  unfold State.sheetPlate
  dsimp only
  refine okWf_ite _ _ _ ?_ (okWf_ite _ _ _ ?_ (okWf_ite _ _ _ ?_ ?_))
  · exact okWf_ok _ (by simp [hm])
  · exact okWf_ok _ (by simp [hm])
  · intro u hu
    cases hu
  · split
    · intro u hu
      cases hu
    · exact okWf_ok _ (by simp [hm])

theorem State.sheetRun_wf (s : State) (c : Cmd) (peer : List (Nat × Byte)) (k : Nat) (tab : Nat → Nat)
    (hm : Mem.wf s.mem = true) : ∀ u, State.sheetRun s c peer k tab = .ok u → Mem.wf u.s.mem = true := by
  unfold State.sheetRun
  refine foldlM_wf (g := SheetRun.s) _ _ _ hm fun a j ha => ?_
  refine okWf_bind _ _ fun src _ => okWf_bind _ _ fun s' h => okWf_ok _ ?_
  simpa using foldlM_wf (g := fun s => s) _ _ _ ha (fun s a h => State.sheetPlate_wf _ _ _ _ _ h) _ h

@[simp] theorem State.sheetWork_wf (s : State) (q slot : Nat) (peer : List (Nat × Byte)) (hm : Mem.wf s.mem = true) :
    Mem.wf (State.sheetWork s q slot peer).mem = true := by
  unfold State.sheetWork
  split
  · exact hm
  · dsimp only
    split
    · simp [hm]
    · simp only [State.workDone_mem, State.raiseCmd_mem, State.setReg_mem, State.bump_mem]
      exact okWf_bind _ _ (fun _ _ => State.sheetRun_wf _ _ _ _ _ hm) _ ‹_›

@[simp] theorem State.takeDesc_wf (s : State) (q : Nat) (slot : Nat) (d : BitVec 1024) (hm : Mem.wf s.mem = true) :
    Mem.wf (State.takeDesc s q slot d).mem = true := by
  unfold State.takeDesc
  dsimp only
  (repeat' split) <;> simp [hm]

@[simp] theorem State.fetch_wf (s : State) (q : Nat) (hm : Mem.wf s.mem = true) :
    Mem.wf (State.fetch s q).mem = true := by
  unfold State.fetch
  dsimp only
  (repeat' split) <;> simp [hm]

@[simp] theorem State.admitUpdate_wf (s : State) (c : Cmd) (hm : Mem.wf s.mem = true) :
    Mem.wf (State.admitUpdate s c).mem = true := by
  unfold State.admitUpdate
  dsimp only
  (repeat' split) <;> simp [hm]

@[simp] theorem State.admitGo_wf (s : State) (c : Cmd) (hm : Mem.wf s.mem = true) :
    Mem.wf (State.admitGo s c).mem = true := by
  unfold State.admitGo
  dsimp only
  (repeat' split) <;> simp [hm]

@[simp] theorem State.admitMember_wf (o : List Cmd) (first : Nat × Nat × BitVec 1024) (s : State) (m : Nat × Nat)
    (hm : Mem.wf s.mem = true) : Mem.wf (State.admitMember o first s m).mem = true := by
  unfold State.admitMember
  dsimp only
  (repeat' split) <;> simp [hm]

@[simp] theorem State.admitBatch_wf (s : State) (k : Nat) (g : Gather) (now : Nat) (hm : Mem.wf s.mem = true) :
    Mem.wf (State.admitBatch s k g now).mem = true := by
  unfold State.admitBatch
  dsimp only
  split
  · exact hm
  · refine wf_ite _ _ _ ?_ (wf_ite _ _ _ ?_ ?_)
    · exact foldl_wf _ _ _ hm fun s a h => by simp [h]
    · exact foldl_wf _ _ _ hm fun s a h => by simp [h]
    · refine foldl_wf _ _ _ ?_ fun s a h => by simp [h]
      split <;> simp [hm]

@[simp] theorem State.joinBatch_wf (s : State) (k : Nat) (c : Cmd) (g : Option Gather) (now : Nat) (hm : Mem.wf s.mem = true) :
    Mem.wf (State.joinBatch s k c g now).mem = true := by
  unfold State.joinBatch
  dsimp only
  (repeat' split) <;> simp [hm]

@[simp] theorem State.holdCmd_wf (s : State) (c : Cmd) (now : Nat) (hm : Mem.wf s.mem = true) :
    Mem.wf (State.holdCmd s c now).mem = true := by
  unfold State.holdCmd
  dsimp only
  (repeat' split) <;> simp [hm]

@[simp] theorem gatherDeadline_wf (die : Nat) (shaft : Nat) (engine : Nat) (s : State) (hm : Mem.wf s.mem = true) :
    Mem.wf (gatherDeadline die shaft engine s).mem = true := by
  unfold gatherDeadline
  dsimp only
  split
  · exact foldl_wf _ _ _ hm fun s a h => by simp [h]
  · exact hm

@[simp] theorem State.admitFront_wf (s : State) (q : Nat) (now : Nat) (hm : Mem.wf s.mem = true) :
    Mem.wf (State.admitFront s q now).mem = true := by
  unfold State.admitFront
  dsimp only
  (repeat' split) <;> simp [hm]

@[simp] theorem State.runVariant_wf (s : State) (c : Cmd) (v : BitVec 1024) (hm : Mem.wf s.mem = true) :
    Mem.wf (State.runVariant s c v).mem = true := by
  simp [State.runVariant, hm]

@[simp] theorem State.bracketTest_wf (s : State) (c : Cmd) (hm : Mem.wf s.mem = true) :
    Mem.wf (State.bracketTest s c).mem = true := by
  unfold State.bracketTest
  (repeat' split) <;> simp [hm]

@[simp] theorem State.completeWork_wf (s : State) (c : Cmd) (status : Nat) (now : Nat) (hm : Mem.wf s.mem = true) :
    Mem.wf (State.completeWork s c status now).mem = true := by
  unfold State.completeWork
  (repeat' split) <;> simp [hm]

@[simp] theorem State.completeCmd_wf (s : State) (q : Nat) (slot : Nat) (now : Nat) (hm : Mem.wf s.mem = true) :
    Mem.wf (State.completeCmd s q slot now).mem = true := by
  unfold State.completeCmd
  dsimp only
  (repeat' split) <;> simp [hm]

@[simp] theorem State.cutDie_wf (s : State) (d : Die) (hm : Mem.wf s.mem = true) : Mem.wf (State.cutDie s d).mem = true := by
  unfold State.cutDie
  refine foldl_wf _ _ _ (eachCmd_wf _ _ _ hm fun s a h => ?_) fun s a h => ?_
  · simp [h]
  · split <;> simp [h]

@[simp] theorem State.endJob_wf (s : State) (hm : Mem.wf s.mem = true) : Mem.wf (State.endJob s).mem = true := by
  unfold State.endJob
  simp only [State.raise_mem, State.setReg_mem]
  refine foldl_wf _ _ _ ?_ fun s a h => ?_
  · rw [State.dropHolds_mem]
    refine foldl_wf _ _ _ (eachCmd_wf _ _ _ hm fun s a h => ?_) fun s a h => ?_
    · simp [h]
    · simp [h]
  · simp [h]

@[simp] theorem State.loseJob_wf (s : State) (d : Die) (ms : List Nat) (hm : Mem.wf s.mem = true) :
    Mem.wf (State.loseJob s d ms).mem = true := by
  unfold State.loseJob
  have hb : Mem.wf ((ms.foldl (fun s m => s.breakMuster m) s).dropHolds).mem = true := by
    rw [State.dropHolds_mem]
    exact foldl_wf _ _ _ hm fun s a h => by simp [h]
  simp only [State.raiseAt_mem]
  exact wf_ite _ _ _ (State.endJob_wf _ hb) hb

@[simp] theorem State.fenceDie_wf (s : State) (d : Die) (lost : Bool) (hm : Mem.wf s.mem = true) :
    Mem.wf (State.fenceDie s d lost).mem = true := by
  unfold State.fenceDie
  refine wf_ite _ _ _ hm ?_
  dsimp only
  generalize hx : State.loseMemory _ d = x
  have hw : Mem.wf x.mem = true := by
    rw [← hx]
    simp only [State.loseMemory_mem]
    cases d <;> simp [hm]
  exact wf_ite _ _ _ (by simp [hw]) hw

@[simp] theorem State.discardShaft_wf (s : State) (t : Nat) (k : Nat) (hm : Mem.wf s.mem = true) :
    Mem.wf (State.discardShaft s t k).mem = true := by
  unfold State.discardShaft
  refine eachCmd_wf _ _ _ hm ?_
  intro s a hm
  simp [hm]

@[simp] theorem State.moveShafts_wf (s : State) (t : Nat) (l : List Nat) (hm : Mem.wf s.mem = true) :
    Mem.wf (State.moveShafts s t l).1.mem = true := by
  induction l generalizing s with
  | nil => exact hm
  | cons k rest ih =>
    unfold State.moveShafts
    dsimp only
    split
    · exact ih _ (by simp [hm])
    · split
      · rename_i h
        exact ih _ (by rw [State.doubleShaft_mem _ _ _ _ h]; simp [hm])
      · simp [hm]

@[simp] theorem State.retireShafts_wf (s : State) (t : Nat) (ps : List Nat) (hm : Mem.wf s.mem = true) :
    Mem.wf (State.retireShafts s t ps).mem = true := by
  unfold State.retireShafts
  dsimp only
  (repeat' split) <;> simp [hm]

@[simp] theorem State.swapStope_wf (s : State) (t p : Nat) (fs : List (Nat × Nat)) (out : Bool) (hm : Mem.wf s.mem = true) :
    Mem.wf (State.swapStope s t p fs out).mem = true := by
  unfold State.swapStope
  refine foldl_wf _ _ _ hm fun s x h => ?_
  cases out
  · exact Mem.wf_copy _ _ _ _ (Mem.wf_copy _ _ _ _ (Mem.wf_copy _ _ _ _ h))
  · exact Mem.wf_copy _ _ _ _ (Mem.wf_copy _ _ _ _ (Mem.wf_copy _ _ _ _ h))

@[simp] theorem State.swapStopes_wf (s : State) (hm : Mem.wf s.mem = true) : Mem.wf (State.swapStopes s).mem = true := by
  unfold State.swapStopes
  refine foldl_wf _ _ _ hm fun s t h => foldl_wf _ _ _ h fun s p h => wf_ite _ _ _ ?_ h
  split
  · exact State.swapStope_wf _ _ _ _ _ (State.swapStope_wf _ _ _ _ _ h)
  · exact h

@[simp] theorem State.numberingChanges_wf (s : State) (hm : Mem.wf s.mem = true) :
    Mem.wf (State.numberingChanges s).mem = true := by
  unfold State.numberingChanges
  simp only [State.showShape_mem]
  refine foldl_wf _ _ _ (foldl_wf _ _ _ (foldl_wf _ _ _ ?_ fun s a h => by simp [h]) fun s a h =>
    wf_ite _ _ _ (by simp [h]) h) fun s a h => by simp [h]
  simp only [State.retireStacks_mem]
  refine foldl_wf _ _ _ hm fun s a h => wf_ite _ _ _ (State.retireShafts_wf _ _ _ h) h

theorem State.bringIn_wf (s : State) (p : Nat) (a : Nat) (hm : Mem.wf s.mem = true) :
    ∀ u, State.bringIn s p a = some u → Mem.wf u.mem = true := by
  unfold State.bringIn
  dsimp only
  split
  · intro u hu
    cases hu
  · intro u hu
    simp only [Option.map_eq_some_iff] at hu
    obtain ⟨f, -, rfl⟩ := hu
    exact pageInDone_wf _ _ _ hm

theorem State.holdLines_wf (s : State) (p : Nat) (write : Bool) (l : List Nat) (hm : Mem.wf s.mem = true) :
    ∀ u, State.holdLines s p write l = .ok u → Mem.wf u.mem = true := by
  induction l generalizing s with
  | nil => exact okWf_ok _ hm
  | cons a rest ih =>
    unfold State.holdLines
    split
    · exact ih s hm
    · intro u hu
      cases hu
    · split
      · refine okWf_ite _ _ _ (ih _ (State.bringIn_wf _ _ _ hm _ ‹_›)) ?_
        intro u hu
        cases hu
      · intro u hu
        cases hu

@[simp] theorem State.readRequest_wf (s : State) (p : Nat) (m : DriftMsg) (hm : Mem.wf s.mem = true) :
    Mem.wf (State.readRequest s p m).mem = true := by
  unfold State.readRequest
  refine wf_ite _ _ _ (by simp [hm]) ?_
  split
  · simp [hm]
  · have h := State.holdLines_wf _ _ _ _ hm _ ‹_›
    split <;> simp [h]

@[simp] theorem State.remoteWrite_wf (s : State) (a : Nat) (pl : Plate) (hm : Mem.wf s.mem = true) :
    ∀ u, State.remoteWrite s a pl = .ok u → Mem.wf u.mem = true := by
  unfold State.remoteWrite
  (repeat' split) <;> simp [hm]

@[simp] theorem State.writeTransfer_wf (s : State) (p : Nat) (m : DriftMsg) (plates : List Bytes) (hm : Mem.wf s.mem = true) :
    Mem.wf (State.writeTransfer s p m plates).mem = true := by
  unfold State.writeTransfer
  refine wf_ite _ _ _ (by simp [hm]) ?_
  split
  · simp [hm]
  · have h := State.holdLines_wf _ _ _ _ hm _ ‹_›
    split
    · simp [h]
    · rw [State.answer_mem, State.tellEpoch_mem]
      exact foldlM_wf (g := fun s => s) _ _ _ h (fun s x h => State.remoteWrite_wf _ _ _ h) _ ‹_›

@[simp] theorem State.transfer_wf (s : State) (p : Nat) (m : DriftMsg) (plates : List Bytes) (rider : Option Rider) (hm : Mem.wf s.mem = true) :
    Mem.wf (State.transfer s p m plates rider).mem = true := by
  unfold State.transfer
  (repeat' split) <;> simp [hm]

@[simp] theorem State.takePlate_wf (s : State) (p : Nat) (l : Nat) (i : Nat) (b : Bytes) (hm : Mem.wf s.mem = true) :
    Mem.wf (State.takePlate s p l i b).mem = true := by
  unfold State.takePlate
  dsimp only
  (repeat' split) <;> simp [hm]

@[simp] theorem State.dataMessage_wf (s : State) (p : Nat) (m : DriftMsg) (plates : List (Nat × Bytes)) (rider : Option Rider)
    (hm : Mem.wf s.mem = true) : Mem.wf (State.dataMessage s p m plates rider).mem = true := by
  unfold State.dataMessage
  refine wf_ite _ _ _ hm (wf_ite _ _ _ (by simp [hm]) ?_)
  split
  · simp [hm]
  · exact foldl_wf _ _ _ (by simp [hm]) fun s a h => by simp [h]

@[simp] theorem State.message_wf (s : State) (p : Nat) (type : Nat) (m : DriftMsg) (hm : Mem.wf s.mem = true) :
    Mem.wf (State.message s p type m).mem = true := by
  unfold State.message
  (repeat' split) <;> simp [hm]

@[simp] theorem State.takeSlot_wf (s : State) (p : Nat) (x : FrameSlot) (hm : Mem.wf s.mem = true) :
    Mem.wf (State.takeSlot s p x).mem = true := by
  unfold State.takeSlot
  refine wf_ite _ _ _ hm (wf_ite _ _ _ (by simp [hm]) (wf_ite _ _ _ hm ?_))
  exact foldl_wf _ _ _ hm fun s a h => State.message_wf _ _ _ _ h

@[simp] theorem State.receive_wf (s : State) (p : Nat) (f : Frame) (hm : Mem.wf s.mem = true) :
    Mem.wf (State.receive s p f).mem = true := by
  unfold State.receive
  refine wf_ite _ _ _ hm (wf_ite _ _ _ (by simp [hm]) (wf_ite _ _ _ hm (wf_ite _ _ _ (by simp [hm])
    (wf_ite _ _ _ (by simp [hm]) ?_))))
  dsimp only
  have h1 : Mem.wf (State.takeAck (if f.idle then s else
      s.setPort p { s.port p with rxNext := (s.port p).rxNext + 1, discarding := false }) p f).mem = true := by
    rw [State.takeAck_mem]
    exact wf_ite _ _ _ hm (by simp [hm])
  generalize State.takeAck _ p f = x at h1 ⊢
  have h2 : Mem.wf (if f.swapReq then x.swapAsked p f.swapLane.val else x).mem = true :=
    wf_ite _ _ _ (by rw [State.swapAsked_mem]; exact h1) h1
  generalize (if f.swapReq then x.swapAsked p f.swapLane.val else x) = y at h2 ⊢
  have h3 : Mem.wf (if f.idle then y else f.slots.foldl (fun s z => s.takeSlot p z) y).mem = true :=
    wf_ite _ _ _ h2 (foldl_wf _ _ _ h2 fun s a h => State.takeSlot_wf s p a h)
  exact wf_ite _ _ _ (by rw [State.replayFrames_mem]; exact h3) h3

@[simp] theorem State.apertureWrite_wf (s : State) (o : Nat) (bs : Bytes) (hm : Mem.wf s.mem = true) :
    Mem.wf (State.apertureWrite s o bs).mem = true := by
  unfold State.apertureWrite
  refine wf_ite _ _ _ hm ?_
  dsimp only
  split
  · refine wf_ite _ _ _ (by simp [hm]) ?_
    rw [State.healLines_mem, State.markDirty_mem]
    exact State.store_wf _ _ _ hm
  · simp [hm]

@[simp] theorem State.killWork_wf (s : State) (hm : Mem.wf s.mem = true) :
    Mem.wf (State.killWork s).mem = true := by
  unfold State.killWork
  dsimp only
  (repeat' split) <;> simp [hm]

@[simp] theorem State.removePower_wf (s : State) (hm : Mem.wf s.mem = true) : Mem.wf (State.removePower s).mem = true := by
  unfold State.removePower
  simp only [State.setReg_mem]
  refine foldl_wf _ _ _ ?_ fun s a h => by simpa using h
  simp only [State.setReg_mem]
  refine Mem.wf_forget _ _ _ (wf_ite _ _ _ ?_ ?_) <;> simp [hm]

@[simp] theorem State.stopBoot_wf (s : State) (code : Nat) (detail : Nat) (hm : Mem.wf s.mem = true) :
    Mem.wf (State.stopBoot s code detail).mem = true := by
  simp [State.stopBoot, hm]

@[simp] theorem State.emergency_wf (s : State) (cause : Nat) (mv : Nat) (hm : Mem.wf s.mem = true) :
    Mem.wf (State.emergency s cause mv).mem = true := by
  unfold State.emergency
  dsimp only
  (repeat' split) <;> simp [hm]

@[simp] theorem State.tamper_wf (s : State) (source : Nat) (d : Die) (failed : List Die) (hm : Mem.wf s.mem = true) :
    Mem.wf (State.tamper s source d failed).mem = true := by
  unfold State.tamper
  dsimp only
  (repeat' split) <;> simp [hm]

@[simp] theorem State.endStep_wf (s : State) (n : Nat) (ms : Nat) (hm : Mem.wf s.mem = true) :
    Mem.wf (State.endStep s n ms).mem = true := by
  unfold State.endStep
  dsimp only
  (repeat' split) <;> simp [hm]

@[simp] theorem State.selectImage_wf (s : State) (copies : List ImageCopy) (ms : Nat) (hm : Mem.wf s.mem = true) :
    Mem.wf (State.selectImage s copies ms).mem = true := by
  unfold State.selectImage
  dsimp only
  (repeat' split) <;> simp [hm]

@[simp] theorem State.wave_wf (s : State) (railFail : List Die) (channelFail : List (Nat × Nat)) (stackFail : List Nat) (ms : Nat) (hm : Mem.wf s.mem = true) :
    Mem.wf (State.wave s railFail channelFail stackFail ms).mem = true := by
  unfold State.wave
  dsimp only
  (repeat' split) <;> simp [hm]

@[simp] theorem State.broadcast_wf (s : State) (failTwice : List (Die × Bool)) (ms : Nat) (hm : Mem.wf s.mem = true) :
    Mem.wf (State.broadcast s failTwice ms).mem = true := by
  have h1 : Mem.wf (failTwice.foldl (fun (s : State) (x : Die × Bool) =>
      if s.boot.powered.any fun d => decide (d = x.1) then
        (s.fenceBoot x.1).raiseAt 0x1204 2 (unitOfDie x.1) 0 0 (unitOfDie x.1).toNat (b2n x.2)
      else s) s).mem = true := foldl_wf _ _ _ hm fun s a h => by split <;> simp [h]
  unfold State.broadcast
  dsimp only
  generalize failTwice.foldl _ s = x at h1 ⊢
  refine State.endStep_wf _ _ _ ?_
  split
  · exact h1
  · refine foldl_wf _ _ _ h1 fun s a h => foldl_wf _ _ _ h fun s k h => by simp [h]

@[simp] theorem State.tested_wf (s : State) (failed : List (BitVec 32 × Nat)) (ms : Nat) (hm : Mem.wf s.mem = true) :
    Mem.wf (State.tested s failed ms).mem = true := by
  unfold State.tested
  dsimp only
  refine State.endStep_wf _ _ _ ?_
  refine foldl_wf _ _ _ hm fun s t h => ?_

  exact foldl_wf _ _ _ h fun s p h => wf_ite _ _ _ (by simpa using h) h

@[simp] theorem State.unionDone_wf (s : State) (hm : Mem.wf s.mem = true) : Mem.wf s.unionDone.mem = true := by
  unfold State.unionDone
  dsimp only
  generalize hx : List.foldl _ _ _ = x
  have hf : Mem.wf x.mem = true := by
    rw [← hx]
    exact foldl_wf _ _ _ (by simp [hm]) fun s a h => by simp [h]
  have hg : Mem.wf (if x.num.append.isEmpty then x else x.appendList).mem = true := wf_ite _ _ _ hf (by simp [hf])
  simpa using hg

@[simp] theorem State.unionStep_wf (s : State) (ms : Nat) (hm : Mem.wf s.mem = true) :
    Mem.wf (State.unionStep s ms).mem = true := by
  unfold State.unionStep
  split
  · simp [hm]
  · rename_i s' h
    have hw : Mem.wf s'.unionDone.mem = true := State.unionDone_wf _ (by rw [State.chooseList_mem _ _ h]; exact hm)
    exact wf_ite _ _ _ (by simp [hw]) (wf_ite _ _ _ (by simp [hw]) (by simp [hw]))

@[simp] theorem State.oscFailed_wf (s : State) (d : Die) (hm : Mem.wf s.mem = true) :
    Mem.wf (State.oscFailed s d).mem = true := by
  simp [State.oscFailed, hm]

@[simp] theorem State.trainPorts_wf (s : State) (cable : List Nat) (peers : List Nat) (ms : Nat) (hm : Mem.wf s.mem = true) :
    Mem.wf (State.trainPorts s cable peers ms).mem = true := by
  unfold State.trainPorts
  dsimp only
  (repeat' split) <;> simp [hm]

@[simp] theorem State.applyNow_wf (s : State) (x : WriteEnv) (p : Path) (k : Nat) (v : Nat) (hm : Mem.wf s.mem = true) :
    Mem.wf (State.applyNow s x p k v).mem = true := by
  unfold State.applyNow
  (repeat' split) <;> simp [hm]

@[simp] theorem State.takeEffect_wf (s : State) (w : PendWrite) (hm : Mem.wf s.mem = true) :
    Mem.wf (State.takeEffect s w).mem = true := by
  unfold State.takeEffect
  dsimp only
  (repeat' split) <;> simp [hm]

@[simp] theorem State.accept_wf (s : State) (x : WriteEnv) (p : Path) (o : Obj) (k : Nat) (b : Bytes) (hm : Mem.wf s.mem = true) :
    Mem.wf (State.accept s x p o k b).1.mem = true := by
  unfold State.accept
  (repeat' split) <;> simp [hm]

@[simp] theorem State.writeObj_wf (s : State) (x : WriteEnv) (m : Msg) (hm : Mem.wf s.mem = true) :
    Mem.wf (State.writeObj s x m).1.mem = true := by
  unfold State.writeObj
  dsimp only
  (repeat' split) <;> simp [hm]

@[simp] theorem State.writeTable_wf (s : State) (x : WriteEnv) (m : Msg) (o : Obj) (k : Nat) (c : Bytes) (hm : Mem.wf s.mem = true) :
    Mem.wf (State.writeTable s x m o k c).1.mem = true := by
  unfold State.writeTable
  dsimp only
  (repeat' split) <;> simp [hm]

@[simp] theorem State.writeBlock_wf (s : State) (x : WriteEnv) (m : Msg) (hm : Mem.wf s.mem = true) :
    Mem.wf (State.writeBlock s x m).1.mem = true := by
  unfold State.writeBlock
  dsimp only
  (repeat' split) <;> simp [hm]

@[simp] theorem State.service_wf (s : State) (x : WriteEnv) (svc : Nat) (describe : Bool) (m : Msg) (hm : Mem.wf s.mem = true) :
    Mem.wf (State.service s x svc describe m).1.mem = true := by
  unfold State.service
  (repeat' split) <;> simp [hm]

@[simp] theorem State.ilturRequest_wf (s : State) (x : WriteEnv) (svc : Nat) (describe : Bool) (m : Msg) (hm : Mem.wf s.mem = true) :
    Mem.wf (State.ilturRequest s x svc describe m).mem = true := by
  unfold State.ilturRequest
  dsimp only
  (repeat' split) <;> simp [hm]

@[simp] theorem State.doorbell_wf (s : State) (x : WriteEnv) (svc : Nat) (describe : Bool) (m : Msg) (hm : Mem.wf s.mem = true) :
    Mem.wf (State.doorbell s x svc describe m).mem = true := by
  unfold State.doorbell
  dsimp only
  (repeat' split) <;> simp [hm]

@[simp] theorem State.request_wf (s : State) (x : WriteEnv) (svc : Nat) (describe : Bool) (m : Msg) (hm : Mem.wf s.mem = true) :
    Mem.wf (State.request s x svc describe m).mem = true := by
  unfold State.request
  (repeat' split) <;> simp [hm]

@[simp] theorem State.writes_wf (s : State) (m : Msg) (i : Nat) (sub : Nat) (b : Bytes) (hm : Mem.wf s.mem = true) :
    Mem.wf (State.writes s m i sub b).mem = true := by
  simp [State.writes, hm]

@[simp] theorem State.latch_wf (s : State) (env : TickEnv) (hm : Mem.wf s.mem = true) :
    Mem.wf (State.latch s env).mem = true := by
  unfold State.latch
  (repeat' split) <;> simp [hm]

@[simp] theorem State.renumber_wf (s : State) (hm : Mem.wf s.mem = true) :
    Mem.wf (State.renumber s).mem = true := by
  unfold State.renumber
  (repeat' split) <;> simp [hm]

@[simp] theorem State.takeWrites_wf (s : State) (env : TickEnv) (len : Nat) (hm : Mem.wf s.mem = true) :
    Mem.wf (State.takeWrites s env len).mem = true := by
  unfold State.takeWrites
  dsimp only
  generalize hx : List.foldl _ _ _ = x
  have hf : Mem.wf x.mem = true := by
    rw [← hx]
    refine foldl_wf _ _ _ ?_ fun s a h => by simp [h]
    exact wf_ite _ _ _ (by simp [hm]) hm
  have hg : Mem.wf (if x.pwr.uvCleared then ({ x with pwr := { x.pwr with uvCleared := false } }).setCap 1 false else x).mem
      = true := wf_ite _ _ _ (by simpa using hf) hf
  generalize (if x.pwr.uvCleared then ({ x with pwr := { x.pwr with uvCleared := false } }).setCap 1 false else x) = y at hg ⊢
  have hh : Mem.wf (if y.enterSafe.pwr.rackWrite then y.enterSafe.leaveSafe else y.enterSafe).mem = true :=
    wf_ite _ _ _ (by simp [hg]) (by simp [hg])
  exact wf_ite _ _ _ (by simpa using hh) (by simpa using hh)

@[simp] theorem State.resumeWork_wf (s : State) (hm : Mem.wf s.mem = true) :
    Mem.wf (State.resumeWork s).mem = true := by
  unfold State.resumeWork
  (repeat' split) <;> simp [hm]

theorem governed_mem (s : State) : (if s.openPhases.governorHalted then s.openPhases else s.openPhases.govern).mem = s.mem := by
  split <;> simp

@[simp] theorem State.boundary_wf (s : State) (env : TickEnv) (hm : Mem.wf s.mem = true) :
    Mem.wf (State.boundary s env).mem = true := by
  unfold State.boundary
  dsimp only
  rw [State.publish_mem]
  refine State.resumeWork_wf _ ?_
  rw [governed_mem]
  have h0 : Mem.wf ((s.makeBoundary.drivePulse.markTick.latch env).heartbeats env.silent).renumber.mem = true :=
    State.renumber_wf _ (by rw [State.heartbeats_mem]; exact State.latch_wf _ _ (by simpa using hm))
  have h : Mem.wf ((((((s.makeBoundary.drivePulse.markTick.latch env).heartbeats env.silent).renumber.takeWrites env s.tickLen).countShape
      s.shape).takeVerdict)).mem = true := by
    rw [State.takeVerdict_mem, State.countShape_mem]
    exact State.takeWrites_wf _ _ _ h0
  exact wf_ite _ _ _ (by rw [State.releaseDue_mem]; exact h) h

end Sys2Proof.Machine
end

