-- ==== Sys2Proof/Laws/PerInstr.lean ====
section
/-! SUPPORT. What holds of every command as a term: a well-formed command that a request brings carries a whole message. -/

namespace Sys2Proof.Laws.Shape

/-- A well-formed command that a request brings carries a message whose trailer, if any, is whole. -/
def Statement (i : Instr) : Prop := i.wf = true → ∀ m, i.request = some m → m.wf = true

theorem says_wf (m : Msg) (i k : Nat) (b : Bytes) (h : m.says i k b = true) : m.wf = true := by
  simp only [Msg.says, Bool.and_eq_true] at h
  exact h.1.1.1

theorem at_wf (m : Msg) (i k : Nat) (h : m.at i k = true) : m.wf = true := by
  simp only [Msg.at, Bool.and_eq_true] at h
  exact h.1.1

theorem read (m : Msg) : Statement (.read m) := by
  intro h m' h'
  cases h'
  simp only [Instr.wf, Bool.and_eq_true] at h
  exact h.1

theorem describe (m : Msg) : Statement (.describe m) := by
  intro h m' h'
  cases h'
  simp only [Instr.wf, Bool.and_eq_true] at h
  exact h.1

theorem write (m : Msg) : Statement (.write m) := by
  intro h m' h'
  cases h'
  exact h

theorem readBlock (m : Msg) : Statement (.readBlock m) := by
  intro h m' h'
  cases h'
  exact h

theorem writeBlock (m : Msg) : Statement (.writeBlock m) := by
  intro h m' h'
  cases h'
  exact h

theorem subscribe (m : Msg) : Statement (.subscribe m) := by
  intro h m' h'
  cases h'
  exact h

theorem badService (code : BitVec 8) (m : Msg) : Statement (.badService code m) := by
  intro h m' h'
  cases h'
  simp only [Instr.wf, Bool.and_eq_true] at h
  exact h.1

theorem snapshotLapse (p : Path) (index : BitVec 16) (sub : BitVec 8) : Statement (.snapshotLapse p index sub) := by
  intro _ m h
  cases h

theorem blockAbandoned (index : BitVec 16) (sub : BitVec 8) : Statement (.blockAbandoned index sub) := by
  intro _ m h
  cases h

theorem keptResponseExpiry (p : Path) (id : BitVec 16) : Statement (.keptResponseExpiry p id) := by
  intro _ m h
  cases h

theorem mbDoorbell (service : BitVec 8) (m : Msg) : Statement (.mbDoorbell service m) := by
  intro h m' h'
  cases h'
  simp only [Instr.wf, Bool.and_eq_true] at h
  exact h.1

theorem mbResponse : Statement (.mbResponse) := by
  intro _ m h
  cases h

theorem pitheadHandover : Statement (.pitheadHandover) := by
  intro _ m h
  cases h

theorem tickBoundary (env : TickEnv) : Statement (.tickBoundary env) := by
  intro _ m h
  cases h

theorem tickEdge (sinceBoundary : Nat) (offset : Int) : Statement (.tickEdge sinceBoundary offset) := by
  intro _ m h
  cases h

theorem tickMarker (port : Fin 64) (lane : Fin 8) (sinceBoundary : Nat) (arrivalPs : Int) (control : BitVec 20) : Statement (.tickMarker port lane sinceBoundary arrivalPs control) := by
  intro _ m h
  cases h

theorem edgeMissed : Statement (.edgeMissed) := by
  intro _ m h
  cases h

theorem queueEnable (m : Msg) (q : Fin 128) : Statement (.queueEnable m q) := by
  intro h m' h'
  cases h'
  exact says_wf _ _ _ _ h

theorem queueDisable (m : Msg) (q : Fin 128) : Statement (.queueDisable m q) := by
  intro h m' h'
  cases h'
  exact says_wf _ _ _ _ h

theorem queueHaltRequest (m : Msg) (q : Fin 128) : Statement (.queueHaltRequest m q) := by
  intro h m' h'
  cases h'
  exact says_wf _ _ _ _ h

theorem tailWrite (m : Msg) (mirror : Option (Nat × Nat)) (q : Fin 128) (value : BitVec 32) : Statement (.tailWrite m mirror q value) := by
  intro h m' h'
  cases mirror with
  | some x => cases h'
  | none =>
    cases h'
    exact says_wf _ _ _ _ h

theorem descriptorFetch (q : Fin 128) : Statement (.descriptorFetch q) := by
  intro _ m h
  cases h

theorem admitCommand (q : Fin 128) (now : Nat) : Statement (.admitCommand q now) := by
  intro _ m h
  cases h

theorem gatherDeadline (die : Fin 32) (shaft : Fin 16) (engine : Fin 2) : Statement (.gatherDeadline die shaft engine) := by
  intro _ m h
  cases h

theorem commandComplete (q : Fin 128) (slot : BitVec 32) (now : Nat) : Statement (.commandComplete q slot now) := by
  intro _ m h
  cases h

theorem musterTimeout (muster : MusterCheck) : Statement (.musterTimeout muster) := by
  intro _ m h
  cases h

theorem windowEndSuspend (q : Fin 128) (slot : BitVec 32) (consumed : Nat) : Statement (.windowEndSuspend q slot consumed) := by
  intro _ m h
  cases h

theorem nop (q : Fin 128) (slot : BitVec 32) : Statement (.nop q slot) := by
  intro _ m h
  cases h

theorem arrayProduct (q : Fin 128) (slot : BitVec 32) (stall : Nat) (parity : Option ArrayHit) : Statement (.arrayProduct q slot stall parity) := by
  intro _ m h
  cases h

theorem arrayDifference (q : Fin 128) (slot : BitVec 32) (stall : Nat) (parity : Option ArrayHit) : Statement (.arrayDifference q slot stall parity) := by
  intro _ m h
  cases h

theorem arrayAbsDifference (q : Fin 128) (slot : BitVec 32) (stall : Nat) (parity : Option ArrayHit) : Statement (.arrayAbsDifference q slot stall parity) := by
  intro _ m h
  cases h

theorem arraySquaredDifference (q : Fin 128) (slot : BitVec 32) (stall : Nat) (parity : Option ArrayHit) : Statement (.arraySquaredDifference q slot stall parity) := by
  intro _ m h
  cases h

theorem arrayLogMode (q : Fin 128) (slot : BitVec 32) (stall : LogStall) (bankParity : Option LogHit) : Statement (.arrayLogMode q slot stall bankParity) := by
  intro _ m h
  cases h

theorem arrayReduceMin (q : Fin 128) (slot : BitVec 32) (stall : Nat) (parity : Option ArrayHit) : Statement (.arrayReduceMin q slot stall parity) := by
  intro _ m h
  cases h

theorem arrayReduceMax (q : Fin 128) (slot : BitVec 32) (stall : Nat) (parity : Option ArrayHit) : Statement (.arrayReduceMax q slot stall parity) := by
  intro _ m h
  cases h

theorem arrayPaired (q : Fin 128) (slot : BitVec 32) (stall : Nat) (parity : Option ArrayHit) : Statement (.arrayPaired q slot stall parity) := by
  intro _ m h
  cases h

theorem arrayFp32Accurate (q : Fin 128) (slot : BitVec 32) (stall : Nat) (parity : Option ArrayHit) : Statement (.arrayFp32Accurate q slot stall parity) := by
  intro _ m h
  cases h

theorem arrayFp64 (q : Fin 128) (slot : BitVec 32) (stall : Nat) (parity : Option ArrayHit) : Statement (.arrayFp64 q slot stall parity) := by
  intro _ m h
  cases h

theorem passSplit (q : Fin 128) (slot : BitVec 32) : Statement (.passSplit q slot) := by
  intro _ m h
  cases h

theorem nuggetPoolSwap (die : Fin 32) (shaft : Fin 16) (engine : Fin 2) (sub : Fin 16) (need : Nat) : Statement (.nuggetPoolSwap die shaft engine sub need) := by
  intro _ m h
  cases h

theorem vAdd (q : Fin 128) (slot : BitVec 32) : Statement (.vAdd q slot) := by
  intro _ m h
  cases h

theorem vMul (q : Fin 128) (slot : BitVec 32) : Statement (.vMul q slot) := by
  intro _ m h
  cases h

theorem vAxpby (q : Fin 128) (slot : BitVec 32) : Statement (.vAxpby q slot) := by
  intro _ m h
  cases h

theorem vExp (q : Fin 128) (slot : BitVec 32) : Statement (.vExp q slot) := by
  intro _ m h
  cases h

theorem vRecip (q : Fin 128) (slot : BitVec 32) : Statement (.vRecip q slot) := by
  intro _ m h
  cases h

theorem vRsqrt (q : Fin 128) (slot : BitVec 32) : Statement (.vRsqrt q slot) := by
  intro _ m h
  cases h

theorem vSigmoid (q : Fin 128) (slot : BitVec 32) : Statement (.vSigmoid q slot) := by
  intro _ m h
  cases h

theorem vRowSum (q : Fin 128) (slot : BitVec 32) : Statement (.vRowSum q slot) := by
  intro _ m h
  cases h

theorem vRowMax (q : Fin 128) (slot : BitVec 32) : Statement (.vRowMax q slot) := by
  intro _ m h
  cases h

theorem vSoftmax (q : Fin 128) (slot : BitVec 32) : Statement (.vSoftmax q slot) := by
  intro _ m h
  cases h

theorem vRmsnorm (q : Fin 128) (slot : BitVec 32) : Statement (.vRmsnorm q slot) := by
  intro _ m h
  cases h

theorem vLayernorm (q : Fin 128) (slot : BitVec 32) : Statement (.vLayernorm q slot) := by
  intro _ m h
  cases h

theorem vTopkMax (q : Fin 128) (slot : BitVec 32) : Statement (.vTopkMax q slot) := by
  intro _ m h
  cases h

theorem vTopkMin (q : Fin 128) (slot : BitVec 32) : Statement (.vTopkMin q slot) := by
  intro _ m h
  cases h

theorem vConvert (q : Fin 128) (slot : BitVec 32) : Statement (.vConvert q slot) := by
  intro _ m h
  cases h

theorem copy (q : Fin 128) (slot : BitVec 32) : Statement (.copy q slot) := by
  intro _ m h
  cases h

theorem arm (q : Fin 128) (slot : BitVec 32) : Statement (.arm q slot) := by
  intro _ m h
  cases h

theorem dump (q : Fin 128) (slot : BitVec 32) : Statement (.dump q slot) := by
  intro _ m h
  cases h

theorem shadowTakeEffect (ctx : BitVec 18) : Statement (.shadowTakeEffect ctx) := by
  intro _ m h
  cases h

theorem plateReadReply (ctx : BitVec 18) (addr : BitVec 52) (ecc : Ecc) (remote : Option RemReply) : Statement (.plateReadReply ctx addr ecc remote) := by
  intro _ m h
  cases h

theorem writeAck (ctx : BitVec 18) (addr : BitVec 52) (faulted : Bool) : Statement (.writeAck ctx addr faulted) := by
  intro _ m h
  cases h

theorem pageIn (addr : BitVec 52) : Statement (.pageIn addr) := by
  intro _ m h
  cases h

theorem pageInDone (addr : BitVec 52) (readError : Bool) : Statement (.pageInDone addr readError) := by
  intro _ m h
  cases h

theorem resume (m : Msg) (value : BitVec 32) : Statement (.resume m value) := by
  intro h m' h'
  cases h'
  exact says_wf _ _ _ _ h

theorem streamResume (q : Fin 128) (slot : BitVec 32) : Statement (.streamResume q slot) := by
  intro _ m h
  cases h

theorem streamHaltStale (ctx : BitVec 18) : Statement (.streamHaltStale ctx) := by
  intro _ m h
  cases h

theorem remoteTimeout (ctx : BitVec 18) : Statement (.remoteTimeout ctx) := by
  intro _ m h
  cases h

theorem deadlockDetect (die : Fin 32) (shaft : Fin 16) (blocked : List (Fin 128 × BitVec 32)) : Statement (.deadlockDetect die shaft blocked) := by
  intro _ m h
  cases h

theorem mapBatch (m : Msg) (pairs : List (BitVec 64 × BitVec 64)) : Statement (.mapBatch m pairs) := by
  intro h m' h'
  cases h'
  simp only [Instr.wf, Bool.and_eq_true] at h
  exact says_wf _ _ _ _ h.1

theorem pageDrainDone (addr : BitVec 52) (bad : Option (BitVec 30)) : Statement (.pageDrainDone addr bad) := by
  intro _ m h
  cases h

theorem lookupAddr (m : Msg) (addr : BitVec 64) : Statement (.lookupAddr m addr) := by
  intro h m' h'
  cases h'
  exact says_wf _ _ _ _ h

theorem hostApertureRead (offset : Nat) (len : Nat) : Statement (.hostApertureRead offset len) := by
  intro _ m h
  cases h

theorem hostApertureWrite (offset : Nat) (bs : Bytes) : Statement (.hostApertureWrite offset bs) := by
  intro _ m h
  cases h

theorem retentionWake (die : Fin 32) (shaft : Option (Fin 18)) : Statement (.retentionWake die shaft) := by
  intro _ m h
  cases h

theorem canarySegment (die : Die) (work : CanaryWork) : Statement (.canarySegment die work) := by
  intro _ m h
  cases h

theorem canaryLate (die : Fin 32) (phys : Fin 18) : Statement (.canaryLate die phys) := by
  intro _ m h
  cases h

theorem defectListAppend : Statement (.defectListAppend) := by
  intro _ m h
  cases h

theorem startJob (m : Msg) : Statement (.startJob m) := by
  intro h m' h'
  cases h'
  exact says_wf _ _ _ _ h

theorem endJob (m : Msg) : Statement (.endJob m) := by
  intro h m' h'
  cases h'
  exact says_wf _ _ _ _ h

theorem injectReplay (m : Msg) : Statement (.injectReplay m) := by
  intro h m' h'
  cases h'
  exact says_wf _ _ _ _ h

theorem heldStepWrite (m : Msg) (value : BitVec 64) : Statement (.heldStepWrite m value) := by
  intro h m' h'
  cases h'
  exact says_wf _ _ _ _ h

theorem update (q : Fin 128) (slot : BitVec 32) : Statement (.update q slot) := by
  intro _ m h
  cases h

theorem verdict (q : Fin 128) (slot : BitVec 32) : Statement (.verdict q slot) := by
  intro _ m h
  cases h

theorem freeze (m : Msg) (value : BitVec 32) : Statement (.freeze m value) := by
  intro h m' h'
  cases h'
  exact says_wf _ _ _ _ h

theorem probeStep (m : Msg) (value : BitVec 32) : Statement (.probeStep m value) := by
  intro h m' h'
  cases h'
  exact says_wf _ _ _ _ h

theorem checkpointSave (q : Fin 128) (slot : BitVec 32) (acked : Bool) : Statement (.checkpointSave q slot acked) := by
  intro _ m h
  cases h

theorem ckptTimeout (f : Fin 16) : Statement (.ckptTimeout f) := by
  intro _ m h
  cases h

theorem restoreGroup (q : Fin 128) (slot : BitVec 32) (peer : List (Nat × Byte)) : Statement (.restoreGroup q slot peer) := by
  intro _ m h
  cases h

theorem restoreModule (q : Fin 128) (slot : BitVec 32) (peer : List (Nat × Byte)) : Statement (.restoreModule q slot peer) := by
  intro _ m h
  cases h

theorem contactSheet (q : Fin 128) (slot : BitVec 32) (peer : List (Nat × Byte)) : Statement (.contactSheet q slot peer) := by
  intro _ m h
  cases h

theorem fenceDie (m : Msg) (die : Die) : Statement (.fenceDie m die) := by
  intro h m' h'
  cases h'
  exact says_wf _ _ _ _ h

theorem readmitDie (m : Msg) (die : Die) : Statement (.readmitDie m die) := by
  intro h m' h'
  cases h'
  exact says_wf _ _ _ _ h

theorem fixerFirmwareSwitch (f : Fin 16) : Statement (.fixerFirmwareSwitch f) := by
  intro _ m h
  cases h

theorem frameReceive (port : Fin 64) (frame : FrameRx) : Statement (.frameReceive port frame) := by
  intro _ m h
  cases h

theorem replayTimeout (port : Fin 64) : Statement (.replayTimeout port) := by
  intro _ m h
  cases h

theorem plateGapTimeout (port : Fin 64) : Statement (.plateGapTimeout port) := by
  intro _ m h
  cases h

theorem linkSilence (port : Fin 64) : Statement (.linkSilence port) := by
  intro _ m h
  cases h

theorem retrain (port : Fin 64) (replays : Bool) (attempts : Nat) (ok : Bool) : Statement (.retrain port replays attempts ok) := by
  intro _ m h
  cases h

theorem readReq (port : Fin 64) (msg : DriftMsg) : Statement (.readReq port msg) := by
  intro _ m h
  cases h

theorem data (port : Fin 64) (msg : DriftMsg) (plates : List (Fin 8 × Bytes)) (rider : Option Rider) : Statement (.data port msg plates rider) := by
  intro _ m h
  cases h

theorem ack (msg : DriftMsg) : Statement (.ack msg) := by
  intro _ m h
  cases h

theorem refuse (msg : DriftMsg) : Statement (.refuse msg) := by
  intro _ m h
  cases h

theorem musterPart (msg : DriftMsg) (now : Nat) : Statement (.musterPart msg now) := by
  intro _ m h
  cases h

theorem musterRelease (msg : DriftMsg) : Statement (.musterRelease msg) := by
  intro _ m h
  cases h

theorem swapReq (port : Fin 64) (lane : Fin 8) : Statement (.swapReq port lane) := by
  intro _ m h
  cases h

theorem laneSwap (m : Msg) (value : BitVec 16) : Statement (.laneSwap m value) := by
  intro h m' h'
  cases h'
  exact says_wf _ _ _ _ h

theorem requalify (m : Msg) (port : BitVec 8) : Statement (.requalify m port) := by
  intro h m' h'
  cases h'
  exact says_wf _ _ _ _ h

theorem qualification (port : Fin 64) (failing : List (Fin 9)) (ratios : List (BitVec 32)) (peer : BitVec 12 × Fin 64) : Statement (.qualification port failing ratios peer) := by
  intro _ m h
  cases h

theorem hostReset (surprise : Bool) : Statement (.hostReset surprise) := by
  intro _ m h
  cases h

theorem powerStateChange (d3hot : Bool) : Statement (.powerStateChange d3hot) := by
  intro _ m h
  cases h

theorem doeDiscovery (request : Bytes) : Statement (.doeDiscovery request) := by
  intro _ m h
  cases h

theorem getVersion (request : Bytes) : Statement (.getVersion request) := by
  intro _ m h
  cases h

theorem getCapabilities (request : Bytes) : Statement (.getCapabilities request) := by
  intro _ m h
  cases h

theorem negotiateAlgorithms (request : Bytes) (pss4096 : Bool) (hash512 : Bool) : Statement (.negotiateAlgorithms request pss4096 hash512) := by
  intro _ m h
  cases h

theorem getDigests (request : Bytes) : Statement (.getDigests request) := by
  intro _ m h
  cases h

theorem getCertificate (request : Bytes) (offset : Nat) (len : Nat) : Statement (.getCertificate request offset len) := by
  intro _ m h
  cases h

theorem challenge (request : Bytes) : Statement (.challenge request) := by
  intro _ m h
  cases h

theorem getMeasurements (request : Bytes) : Statement (.getMeasurements request) := by
  intro _ m h
  cases h

theorem hostReadTimeout (addr : BitVec 52) : Statement (.hostReadTimeout addr) := by
  intro _ m h
  cases h

theorem clockSelectRecovered (m : Msg) (steady : Bool) : Statement (.clockSelectRecovered m steady) := by
  intro h m' h'
  cases h'
  exact says_wf _ _ _ _ h

theorem referenceLoss (cause : Fin 3) (ppm : BitVec 32) : Statement (.referenceLoss cause ppm) := by
  intro _ m h
  cases h

theorem domainSwitch (die : Die) (dom : ClockDomain) : Statement (.domainSwitch die dom) := by
  intro _ m h
  cases h

theorem undervoltageHalving (mv : Nat) : Statement (.undervoltageHalving mv) := by
  intro _ m h
  cases h

theorem undervoltageClear (mv : Nat) : Statement (.undervoltageClear mv) := by
  intro _ m h
  cases h

theorem overvoltageAlert (mv : Nat) : Statement (.overvoltageAlert mv) := by
  intro _ m h
  cases h

theorem overvoltageClear (mv : Nat) : Statement (.overvoltageClear mv) := by
  intro _ m h
  cases h

theorem emergencyStop (cause : Fin 7) (mv : Nat) : Statement (.emergencyStop cause mv) := by
  intro _ m h
  cases h

theorem estopRequest (m : Msg) (mv : Nat) : Statement (.estopRequest m mv) := by
  intro h m' h'
  cases h'
  exact says_wf _ _ _ _ h

theorem estopRestart (m : Msg) : Statement (.estopRestart m) := by
  intro h m' h'
  cases h'
  exact says_wf _ _ _ _ h

theorem capSafe : Statement (.capSafe) := by
  intro _ m h
  cases h

theorem capExceeded (excessW : Nat) : Statement (.capExceeded excessW) := by
  intro _ m h
  cases h

theorem gatingLoop (die : Fin 32) (activity : Nat) (measuredW : BitVec 32) (wantsRise : Bool) (now : Nat) : Statement (.gatingLoop die activity measuredW wantsRise now) := by
  intro _ m h
  cases h

theorem estimatorDistrusted (die : Fin 32) (errorTenths : Nat) : Statement (.estimatorDistrusted die errorTenths) := by
  intro _ m h
  cases h

theorem estimatorTrusted (die : Fin 32) : Statement (.estimatorTrusted die) := by
  intro _ m h
  cases h

theorem powerStageSilent (die : Fin 32) : Statement (.powerStageSilent die) := by
  intro _ m h
  cases h

theorem thermalStepUp (die : Die) (tenths : Int) (stackTenths : Int) : Statement (.thermalStepUp die tenths stackTenths) := by
  intro _ m h
  cases h

theorem thermalStepDown (die : Fin 32) (tenths : Int) (stackTenths : Int) : Statement (.thermalStepDown die tenths stackTenths) := by
  intro _ m h
  cases h

theorem junctionLimit (die : Die) (tenths : Int) : Statement (.junctionLimit die tenths) := by
  intro _ m h
  cases h

theorem sensorImplausible (die : Die) (voltage : Bool) (sensor : Fin 24) : Statement (.sensorImplausible die voltage sensor) := by
  intro _ m h
  cases h

theorem coolantInlet (tenths : Int) : Statement (.coolantInlet tenths) := by
  intro _ m h
  cases h

theorem auxPowerGood (elapsedMs : Nat) : Statement (.auxPowerGood elapsedMs) := by
  intro _ m h
  cases h

theorem strapLatch (straps : BitVec 12) : Statement (.strapLatch straps) := by
  intro _ m h
  cases h

theorem resetRelease (heldMs : Nat) : Statement (.resetRelease heldMs) := by
  intro _ m h
  cases h

theorem resetAssert : Statement (.resetAssert) := by
  intro _ m h
  cases h

theorem romSelfCheck (d0 : Bool) (d8 : Bool) (elapsedMs : Nat) : Statement (.romSelfCheck d0 d8 elapsedMs) := by
  intro _ m h
  cases h

theorem imageSelect (copies : List ImageCopy) (elapsedMs : Nat) : Statement (.imageSelect copies elapsedMs) := by
  intro _ m h
  cases h

theorem powerWave (railFail : List Die) (channelFail : List (Fin 16 × Fin 16)) (stackFail : List (Fin 64)) (elapsedMs : Nat) : Statement (.powerWave railFail channelFail stackFail elapsedMs) := by
  intro _ m h
  cases h

theorem inrush : Statement (.inrush) := by
  intro _ m h
  cases h

theorem firmwareBroadcast (failTwice : List (Die × Bool)) (elapsedMs : Nat) : Statement (.firmwareBroadcast failTwice elapsedMs) := by
  intro _ m h
  cases h

theorem startupTest (failed : List (BitVec 32 × Nat)) (elapsedMs : Nat) : Statement (.startupTest failed elapsedMs) := by
  intro _ m h
  cases h

theorem defectUnion (elapsedMs : Nat) : Statement (.defectUnion elapsedMs) := by
  intro _ m h
  cases h

theorem clockSetup (oscFail : Option Die) (elapsedMs : Nat) : Statement (.clockSetup oscFail elapsedMs) := by
  intro _ m h
  cases h

theorem portTraining (cable : List (Fin 64)) (peers : List (Fin 64)) (elapsedMs : Nat) : Statement (.portTraining cable peers elapsedMs) := by
  intro _ m h
  cases h

theorem peerTrainingTimeout (port : Fin 64) : Statement (.peerTrainingTimeout port) := by
  intro _ m h
  cases h

theorem hostLinkTraining (link : Option (Fin 7 × Fin 32 × Bool)) (elapsedMs : Nat) : Statement (.hostLinkTraining link elapsedMs) := by
  intro _ m h
  cases h

theorem bringupTimeout : Statement (.bringupTimeout) := by
  intro _ m h
  cases h

theorem bootRestart (m : Msg) : Statement (.bootRestart m) := by
  intro h m' h'
  cases h'
  exact says_wf _ _ _ _ h

theorem lcRequest (m : Msg) (value : BitVec 8) : Statement (.lcRequest m value) := by
  intro h m' h'
  cases h'
  exact says_wf _ _ _ _ h

theorem identityGenerate (m : Msg) (value : BitVec 8) : Statement (.identityGenerate m value) := by
  intro h m' h'
  cases h'
  exact says_wf _ _ _ _ h

theorem floorAdvance (m : Msg) (value : BitVec 8) : Statement (.floorAdvance m value) := by
  intro h m' h'
  cases h'
  exact says_wf _ _ _ _ h

theorem updateOpen (m : Msg) : Statement (.updateOpen m) := by
  intro h m' h'
  cases h'
  exact says_wf _ _ _ _ h

theorem imageChunk (m : Msg) : Statement (.imageChunk m) := by
  intro h m' h'
  cases h'
  exact at_wf _ _ _ h

theorem updateCommit (m : Msg) (staged : ImageCopy) : Statement (.updateCommit m staged) := by
  intro h m' h'
  cases h'
  exact says_wf _ _ _ _ h

theorem updateAbandon (m : Msg) : Statement (.updateAbandon m) := by
  intro h m' h'
  cases h'
  exact says_wf _ _ _ _ h

theorem attestNonce (m : Msg) : Statement (.attestNonce m) := by
  intro h m' h'
  cases h'
  exact at_wf _ _ _ h

theorem challengeRead (m : Msg) : Statement (.challengeRead m) := by
  intro h m' h'
  cases h'
  exact at_wf _ _ _ h

theorem sessionOpen (m : Msg) : Statement (.sessionOpen m) := by
  intro h m' h'
  cases h'
  exact at_wf _ _ _ h

theorem sessionClose (m : Msg) (value : BitVec 8) : Statement (.sessionClose m value) := by
  intro h m' h'
  cases h'
  exact says_wf _ _ _ _ h

theorem sessionTimeout (p : Path) : Statement (.sessionTimeout p) := by
  intro _ m h
  cases h

theorem tamperTrip (source : Fin 5) (die : Die) (wipeFail : List Die) : Statement (.tamperTrip source die wipeFail) := by
  intro _ m h
  cases h

theorem sampleRead (m : Msg) (die : Fin 32) : Statement (.sampleRead m die) := by
  intro h m' h'
  cases h'
  exact at_wf _ _ _ h

theorem traceArm (m : Msg) : Statement (.traceArm m) := by
  intro h m' h'
  cases h'
  exact says_wf _ _ _ _ h

theorem traceStop (m : Msg) : Statement (.traceStop m) := by
  intro h m' h'
  cases h'
  exact says_wf _ _ _ _ h

theorem triggerNow (m : Msg) : Statement (.triggerNow m) := by
  intro h m' h'
  cases h'
  exact says_wf _ _ _ _ h

theorem traceFreeze (die : Fin 32) : Statement (.traceFreeze die) := by
  intro _ m h
  cases h

theorem fullExposureArm (m : Msg) (value : BitVec 8) : Statement (.fullExposureArm m value) := by
  intro h m' h'
  cases h'
  exact says_wf _ _ _ _ h

theorem breakpointHit (die : Fin 32) (core : Fin 76) (index : Fin 8) : Statement (.breakpointHit die core index) := by
  intro _ m h
  cases h

theorem breakResume (m : Msg) (die : Fin 32) : Statement (.breakResume m die) := by
  intro h m' h'
  cases h'
  exact says_wf _ _ _ _ h

theorem singleStep (m : Msg) (die : Fin 32) : Statement (.singleStep m die) := by
  intro h m' h'
  cases h'
  exact says_wf _ _ _ _ h

theorem locate (m : Msg) (value : BitVec 8) : Statement (.locate m value) := by
  intro h m' h'
  cases h'
  exact says_wf _ _ _ _ h

theorem powerRemoved : Statement (.powerRemoved) := by
  intro _ m h
  cases h

theorem junctionLimitClear (die : Die) (tenths : Int) : Statement (.junctionLimitClear die tenths) := by
  intro _ m h
  cases h

theorem peerAppears (port : Fin 64) : Statement (.peerAppears port) := by
  intro _ m h
  cases h

theorem hostLinkUp (rate : Fin 7) (width : Fin 32) (flit : Bool) : Statement (.hostLinkUp rate width flit) := by
  intro _ m h
  cases h

theorem bar2Resize (log2GiB : Fin 11) : Statement (.bar2Resize log2GiB) := by
  intro _ m h
  cases h

theorem neighbourSolicitation (target : BitVec 128) (request : Bytes) : Statement (.neighbourSolicitation target request) := by
  intro _ m h
  cases h

theorem echoRequest (request : Bytes) : Statement (.echoRequest request) := by
  intro _ m h
  cases h

theorem sbInputLevelChange (pin : InPin) (level : Bool) : Statement (.sbInputLevelChange pin level) := by
  intro _ m h
  cases h

end Sys2Proof.Laws.Shape
end

