-- ==== Sys2Proof/Laws/Request.lean ====
section
/-! SUPPORT. What one request does, from its arrival to its response: a request that is served runs its service once, in the
state in which the service begins, and its response changes nothing but the client's own records. -/

namespace Sys2Proof.Machine

open Sys2Proof

/-- The end of a served request: the response is signed, kept and sent, or stands at the mailbox. -/
def State.closed (t : State) (ses : Option Session) (svc : Nat) (d : Bool) (m : Msg) (r : Resp) : State :=
  if viaIltur m then
    (t.signed ses m svc d r).1.keepAnswer svc d m r (t.signed ses m svc d r).2
  else if t.dict.mbBusy then { t with dict := { t.dict with mbServed := some (r, answerBox m svc d r) } } else t

/-- The session that a request came in. -/
def State.sessionOf (s : State) (m : Msg) : Option Session := if m.session then s.session? m.path else none

/-- A request that is served is its service, then its response. -/
theorem State.request_heard (s : State) (x : WriteEnv) (svc : Nat) (d : Bool) (m : Msg) (h : Heard s svc d m) :
    s.request x svc d m =
      ((atService s svc d m).service x svc d m).1.closed ((atService s svc d m).sessionOf m) svc d m
        ((atService s svc d m).service x svc d m).2 := by
  obtain ⟨h1, h2, h3, hf, h4⟩ := h
  by_cases hv : viaIltur m = true
  · rw [if_pos hv] at h4
    obtain ⟨h4, h5⟩ := h4
    have e1 : ∀ b : Bool, (if b then s.setReg (okey 0x1100 6) 0 else s).keptFor m.path m.requestId = none := by
      intro b; cases b <;> exact h4
    unfold State.request
    rw [h1, hv]
    simp only [Bool.not_true, Bool.false_eq_true, if_false, if_true]
    unfold State.ilturRequest
    rw [h2]
    simp only [Bool.false_eq_true, if_false]
    generalize hs : (if restartsTimer m svc d = true then s.setReg (okey 0x1100 6) 0 else s) = s'
    have k1 : s'.dict = s.dict := by rw [← hs]; split <;> rfl
    have k2 : s'.sec = s.sec := by rw [← hs]; split <;> rfl
    have k3 : (s'.heard m.path).dict.handover = s.dict.handover := by
      unfold State.heard
      split
      · rw [k1]
      · simp [k1]
    have k4 : (s'.heard m.path).sec = s.sec := by
      unfold State.heard
      split <;> simp [k2]
    have k5 : (s'.heard m.path).keptFor m.path m.requestId = none := by
      have e : s'.keptFor m.path m.requestId = none := by
        unfold State.keptFor; rw [k1]; exact h4
      unfold State.heard
      split
      · exact e
      · rename_i y hy
        unfold State.keptFor at e ⊢
        rw [hy] at e
        have hp : decide (y.1 = m.path) = true := by simpa using List.find?_some hy
        simp only [List.find?_cons, hp]
        exact e
    have k6 : (s'.heard m.path).authFails m svc d = none := by
      have hreg : (s'.heard m.path).session? m.path = s.session? m.path := by
        unfold State.session?; rw [k4]
      unfold State.authFails at h5 ⊢
      rw [hreg]
      revert h5
      cases m.trailer with
      | none => intro _; rfl
      | some t =>
        cases s.session? m.path with
        | none => intro h; cases h
        | some y => exact id
    rw [k5]
    simp only []
    rw [k3, h3, k6]
    simp only [Bool.false_eq_true, if_false]
    unfold atService State.closed
    rw [if_pos hv, if_pos hv, hs]
    rfl
  · have hv' : viaIltur m = false := by simpa using hv
    rw [if_neg hv] at h4
    obtain ⟨h4, h5⟩ := h4
    unfold State.request
    rw [h1, hv', h4]
    simp only [Bool.not_true, Bool.false_eq_true, if_false, if_true]
    unfold State.doorbell
    rw [h5, h2]
    simp only [Bool.false_eq_true, if_false, h3]
    unfold atService State.closed
    rw [if_neg hv, if_neg hv]
    simp only [h3]

/-- A write that is served and passes is accepted. -/
theorem State.request_writes (s : State) (x : WriteEnv) (m : Msg) (o : Obj) (h : Writes s x m o) :
    s.request x 2 false m =
      ((atService s 2 false m).accept x m.path o (okey m.index.toNat m.sub.toNat) m.payload).1.closed
        ((atService s 2 false m).sessionOf m) 2 false m
        ((atService s 2 false m).accept x m.path o (okey m.index.toNat m.sub.toNat) m.payload).2 := by
  rw [State.request_heard s x 2 false m h.heard]
  have : (atService s 2 false m).service x 2 false m =
      (atService s 2 false m).accept x m.path o (okey m.index.toNat m.sub.toNat) m.payload := by
    unfold State.service
    rw [h.heard.2.2.2.1]
    show (atService s 2 false m).writeObj x m = _
    unfold State.writeObj
    rw [h.found]
    simp [h.passes]
  rw [this]

/-- An accepted write of an object that takes writes at once. -/
theorem State.accept_now (s : State) (x : WriteEnv) (p : Path) (o : Obj) (k : Nat) (b : Bytes) (ho : o.acc ≠ .rwt)
    (hd : o.ty ≠ .domain) : s.accept x p o k b = (s.applyNow x p k (leNat b), s.resp abOk) := by
  unfold State.accept
  rw [if_neg ho, if_neg hd]

/-- An accepted write of an RWT object waits. -/
theorem State.accept_later (s : State) (x : WriteEnv) (p : Path) (o : Obj) (k : Nat) (b : Bytes) (ho : o.acc = .rwt) :
    s.accept x p o k b = (s.queueWrite p k b, { s.resp abOk with tick := BitVec.ofNat 32 (s.tickNo + 1) }) := by
  unfold State.accept
  rw [if_pos ho]

/-- Nothing of the response stands outside `dict`, `sec` and `out`. -/
theorem State.closed_frame (t : State) (ses : Option Session) (svc : Nat) (d : Bool) (m : Msg) (r : Resp) :
    ∃ dict sec out, t.closed ses svc d m r = { t with dict := dict, sec := sec, out := out } ∧ dict.rwt = t.dict.rwt ∧
      dict.staged = t.dict.staged ∧ dict.snaps = t.dict.snaps ∧ dict.subs = t.dict.subs ∧ dict.abandoned = t.dict.abandoned ∧
      sec.stage = t.sec.stage ∧ sec.lcPending = t.sec.lcPending ∧ sec.identity = t.sec.identity ∧
      (sec.sessions.map Session.path) = (t.sec.sessions.map Session.path) ∧ sec.challenges = t.sec.challenges := by
  unfold State.closed
  split
  · unfold State.signed State.keepAnswer State.respond State.keep State.send
    cases ses with
    | none => exact ⟨_, _, _, rfl, rfl, rfl, rfl, rfl, rfl, rfl, rfl, rfl, rfl, rfl⟩
    | some y =>
      refine ⟨_, _, _, rfl, rfl, rfl, rfl, rfl, rfl, rfl, rfl, rfl, ?_, rfl⟩
      simp only [List.map_map]
      refine List.map_congr_left fun z _ => ?_
      simp only [Function.comp]
      split <;> rfl
  · split
    · exact ⟨_, _, _, rfl, rfl, rfl, rfl, rfl, rfl, rfl, rfl, rfl, rfl, rfl⟩
    · exact ⟨t.dict, t.sec, t.out, rfl, rfl, rfl, rfl, rfl, rfl, rfl, rfl, rfl, rfl, rfl⟩

/-- The client is answered, where the mailbox still holds the request. -/
theorem State.closed_answered (t : State) (ses : Option Session) (svc : Nat) (d : Bool) (m : Msg) (r : Resp)
    (h : viaIltur m = true ∨ t.dict.mbBusy = true) : Answered (t.closed ses svc d m r) svc m r := by
  unfold Answered State.closed
  by_cases hv : viaIltur m = true
  · rw [if_pos hv, if_pos hv]
    refine ⟨(t.signed ses m svc d r).2, d, ?_⟩
    simp [State.keepAnswer, State.respond, State.send]
  · rw [if_neg hv, if_neg hv]
    exact ⟨d, by simp [h.resolve_left hv]⟩

/-- Before its service a request changes nothing but the silence timer and the records of requests and sessions. -/
theorem atService_frame (s : State) (svc : Nat) (d : Bool) (m : Msg) :
    { atService s svc d m with regs := s.regs, dict := s.dict, sec := s.sec } = s ∧
      ∀ k, k ≠ okey 0x1100 6 → (atService s svc d m).reg k = s.reg k := by
  unfold atService
  split
  · unfold State.authTake State.heard
    refine ⟨?_, fun k hk => ?_⟩
    · split <;> split <;> split <;> rfl
    · split <;> split <;> split <;> first | rfl | exact State.reg_setReg_other _ _ _ _ hk
  · exact ⟨rfl, fun _ _ => rfl⟩

/-- At the mailbox the request in progress is the one that is served. -/
theorem atService_busy (s : State) (svc : Nat) (d : Bool) (m : Msg) (h : viaIltur m = false) :
    (atService s svc d m).dict.mbBusy = true := by
  unfold atService
  rw [if_neg (by simp [h])]

end Sys2Proof.Machine
end

