-- ==== Sys2Proof/Laws/Tables.lean ====
section
/-! SUPPORT. What a stored DOMAIN table reads as after a write: the bytes written, every other byte as before. -/

namespace Sys2Proof.Machine

theorem domPut_other (k : Nat) (bs : Bytes) (m : List (Nat × Byte)) (off j : Nat)
    (h : j < dkey k off ∨ dkey k off + bs.length ≤ j) : SMap.get? (domPut k m off bs) j = SMap.get? m j := by
  induction bs generalizing m off with
  | nil => rfl
  | cons b t ih =>
    have e : dkey k (off + 1) = dkey k off + 1 := by simp only [dkey]; omega
    simp only [List.length_cons] at h
    simp only [domPut]
    rw [ih _ (off + 1) (by omega)]
    split
    · exact SMap.get?_del_other m _ j (by omega)
    · exact SMap.get?_put_other m _ j b (by omega)

theorem domPut_in (k : Nat) (bs : Bytes) (m : List (Nat × Byte)) (off i : Nat) (h : i < bs.length) :
    (SMap.get? (domPut k m off bs) (dkey k (off + i))).getD (domDefault k (off + i)) = bs.getD i 0 := by
  induction bs generalizing m off i with
  | nil => simp at h
  | cons b t ih =>
    simp only [domPut]
    cases i with
    | zero =>
      rw [domPut_other k t _ (off + 1) (dkey k (off + 0)) (by simp only [dkey]; omega)]
      simp only [Nat.add_zero]
      split <;> simp_all
    | succ i =>
      have := ih (if b = domDefault k off then SMap.del m (dkey k off) else SMap.put m (dkey k off) b) (off + 1) i
        (by simpa using h)
      rw [show off + (i + 1) = off + 1 + i by omega, this]
      simp

/-- A byte of a write reads back. -/
theorem State.domByte_setDom_in (s : State) (k off i : Nat) (bs : Bytes) (h : i < bs.length) :
    (s.setDom k off bs).domByte k (off + i) = bs.getD i 0 := domPut_in k bs s.dom off i h

/-- A write leaves every other byte of the table as it was. -/
theorem State.domByte_setDom_other (s : State) (k off j : Nat) (bs : Bytes) (h : j < off ∨ off + bs.length ≤ j) :
    (s.setDom k off bs).domByte k j = s.domByte k j := by
  simp only [State.domByte, State.setDom]
  rw [domPut_other k bs s.dom off (dkey k j) (by simp only [dkey]; omega)]

/-- A write inside one table leaves every other table as it was. -/
theorem State.domByte_setDom_table (s : State) (k k' off j : Nat) (bs : Bytes) (h : k' ≠ k) (hb : off + bs.length ≤ 16777216)
    (hj : j < 16777216) : (s.setDom k off bs).domByte k' j = s.domByte k' j := by
  simp only [State.domByte, State.setDom]
  rw [domPut_other k bs s.dom off (dkey k' j) (by simp only [dkey]; omega)]

/-- What a write put in reads back whole. -/
theorem State.domBytes_setDom_self (s : State) (k off : Nat) (bs : Bytes) :
    (s.setDom k off bs).domBytes k off bs.length = bs := by
  apply List.ext_getElem
  · simp [State.domBytes]
  · intro i h1 h2
    simp only [State.domBytes, List.getElem_map, List.getElem_range]
    rw [State.domByte_setDom_in s k off i bs h2]
    simp [List.getD, h2]

theorem State.domBytes_setDom_other (s : State) (k off off' n : Nat) (bs : Bytes) (h : off' + n ≤ off ∨ off + bs.length ≤ off') :
    (s.setDom k off bs).domBytes k off' n = s.domBytes k off' n := by
  simp only [State.domBytes]
  apply List.map_congr_left
  intro i hi
  have := List.mem_range.mp hi
  exact State.domByte_setDom_other s k off (off' + i) bs (by omega)

end Sys2Proof.Machine
end

