-- ==== Sys2Proof/Tests/Slice0.lean ====
section
/-! SUPPORT. The model's own tests: a term that each check of WellFormed refuses, small tests of single steps whose expected
results are worked out by hand from the rules, and for every statement with hypotheses a state and operands that meet them. -/

namespace Sys2Proof.Tests

open Sys2Proof Sys2Proof.Machine

set_option Elab.async false

/-! ### States and messages of the tests -/

/-- A request over the mailbox. -/
def box (i sub : Nat) (b : Bytes) : Msg where
  path := .mailbox
  magic := 0x49
  version := 1
  response := false
  reservedA := 0
  index := BitVec.ofNat 16 i
  sub := BitVec.ofNat 8 sub
  last := true
  pendingFlag := false
  session := false
  reservedB := 0
  requestId := 7
  offset := 0
  abort := 0
  tick := 0
  length := BitVec.ofNat 16 b.length
  payload := b
  trailer := none
  crc := 0
  describe := false
  fault := false

/-- The module in Ready with its host link up and some objects as listed (keys rising). -/
def up (regs : List (Nat × Nat)) : State :=
  { State.reset with
    regs := regs.foldl (fun m (p : Nat × Nat) => SMap.put m p.1 p.2) [(0x514002, 0x6101)]
    boot := { State.reset.boot with aux := true, resetHeld := false, latched := true, step := 11, pithead := some false
                                    powered := allDies, admitted := allDies } }

/-- The checks of `Heard` as one test. -/
def heardB (s : State) (svc : Nat) (d : Bool) (m : Msg) : Bool :=
  s.serves && !msgDropped m svc d && !s.dict.handover && !m.fault &&
    if viaIltur m then (s.keptFor m.path m.requestId).isNone && (s.authFails m svc d).isNone else s.barUp && !s.dict.mbBusy

theorem heard_of {s : State} {svc : Nat} {d : Bool} {m : Msg} (h : heardB s svc d m = true) : Heard s svc d m := by
  unfold heardB at h
  unfold Heard
  cases hv : viaIltur m <;> simp_all

/-- The checks of `WritesNow` (acc is not RWT) or `WritesLater` as one test. -/
def writeB (later : Bool) (s : State) (m : Msg) (i sub : Nat) (b : Bytes) : Bool :=
  let m := aim m i sub b
  heardB s 2 false m &&
  match (atService s 2 false m).find m.index.toNat m.sub.toNat with
  | .ok o => decide (o.ty ≠ .domain) && decide ((o.acc = .rwt) ↔ later = true) &&
      decide ((atService s 2 false m).checkScalar false m o (okey m.index.toNat m.sub.toNat) m.payload = abOk)
  | .error _ => false

theorem writes_of {later : Bool} {s : State} {m : Msg} {i sub : Nat} {b : Bytes} (h : writeB later s m i sub b = true) :
    ∃ o, Writes s s.plainEnv (aim m i sub b) o ∧ (o.acc = .rwt ↔ later = true) := by
  unfold writeB at h
  simp only [Bool.and_eq_true] at h
  obtain ⟨h1, h2⟩ := h
  split at h2
  · rename_i o ho
    simp only [Bool.and_eq_true, decide_eq_true_eq] at h2
    exact ⟨o, ⟨heard_of h1, ho, h2.1.1, h2.2⟩, h2.1.2⟩
  · cases h2

theorem now_of {s : State} {m : Msg} {i sub : Nat} {b : Bytes} (h : writeB false s m i sub b = true) :
    WritesNow s m i sub b := by
  obtain ⟨o, ho, ha⟩ := writes_of h
  exact ⟨o, ho, fun hc => by simp [hc] at ha⟩

theorem later_of {s : State} {m : Msg} {i sub : Nat} {b : Bytes} (h : writeB true s m i sub b = true) :
    WritesLater s m i sub b := by
  obtain ⟨o, ho, ha⟩ := writes_of h
  exact ⟨o, ho, ha.2 rfl⟩

/-! ### Witnesses: the block and the dictionary -/

theorem wit_StepRunsTheFrontCommand : ({ up [] with pending := [.mbResponse] } : State).pending = .mbResponse :: [] := rfl
theorem wit_EmptyQueueIdles : (up []).pending = [] := rfl
theorem wit_StepKeepsInv : ∃ t, Inv (up []) ∧ step { up [] with pending := [.coolantInlet 0] } = .next t :=
  ⟨_, by decide +kernel, rfl⟩
theorem wit_StepKeepsFuses : ∃ t, step (up []) = .next t := ⟨_, rfl⟩
theorem wit_OnlyStoringCommandsStore : ∃ t, Instr.stores .mbResponse = false ∧ exec .mbResponse (up []) = .next t :=
  ⟨_, rfl, rfl⟩
theorem wit_OnlyBeyondRatings : Instr.shownMv (.undervoltageHalving 60001) = some 60001 ∧ 60000 < 60001 := by decide
theorem wit_OnlyBeyondRatings_next : ∃ t, exec (.undervoltageHalving 60000) (up []) = .next t := ⟨_, rfl⟩
theorem wit_FloatRoundTrip : f16 ∈ [f64, f32, f16, bf16] ∧ 0xFC00 < 2 ^ (1 + f16.ebits + f16.fbits) ∧ f16.decode 0xFC00 ≠ .nan := by
  decide +kernel
theorem wit_LittleEndianRoundTrip : 0xFFFF < 256 ^ 2 := by decide

theorem wit_ReadAnswers : Heard (up []) 1 false (box 0x1000 1 []) := heard_of (by decide +kernel)
theorem wit_DescribeAndBadService : Heard (up []) 1 true (box 0x4080 6 []) ∧
    ∃ o, (atService (up []) 1 true (box 0x4080 6 [])).find 0x4080 6 = .ok o :=
  ⟨heard_of (by decide +kernel), _, rfl⟩
theorem wit_DescribeAndBadService_code : (6#8 = 0 ∨ 6 ≤ (6#8).toNat) ∧ Heard (up []) 6 false (box 0x1000 1 []) :=
  ⟨by decide, heard_of (by decide +kernel)⟩
theorem wit_WriteTakesEffect_at_once : ownRow (box 0x4080 1 (leBytes 8 4096)) = false ∧
    ∃ o, Writes (up []) (up []).plainEnv (aim (box 0 0 []) 0x4080 1 (leBytes 8 4096)) o ∧ (o.acc = .rwt ↔ false = true) :=
  ⟨by decide +kernel, writes_of (by decide +kernel)⟩
theorem wit_WriteTakesEffect_later : ownRow (box 0x2000 1 (leBytes 4 10000)) = false ∧
    ∃ o, Writes (up []) (up []).plainEnv (aim (box 0 0 []) 0x2000 1 (leBytes 4 10000)) o ∧ (o.acc = .rwt ↔ true = true) :=
  ⟨by decide +kernel, writes_of (by decide +kernel)⟩
theorem wit_RefusedWrite_no_object : ownRow (box 0xFFFF 0 []) = false ∧ Heard (up []) 2 false (box 0xFFFF 0 []) ∧
    (atService (up []) 2 false (box 0xFFFF 0 [])).find 0xFFFF 0 = .error abNoIndex :=
  ⟨by decide, heard_of (by decide +kernel), by rfl⟩
theorem wit_RefusedWrite_check : ownRow (box 0x4080 6 [2, 0]) = false ∧ Heard (up []) 2 false (box 0x4080 6 [2, 0]) ∧
    ∃ o, (atService (up []) 2 false (box 0x4080 6 [2, 0])).find 0x4080 6 = .ok o ∧
      (atService (up []) 2 false (box 0x4080 6 [2, 0])).checkScalar false (box 0x4080 6 [2, 0]) o 0x408006 [2, 0] = abType :=
  ⟨by decide, heard_of (by decide +kernel), _, rfl, by decide +kernel⟩

/-- A request over Iltur from one client. -/
def iltur (i sub : Nat) (b : Bytes) (crc : BitVec 32) : Msg := { box i sub b with path := .iltur 1 9000, crc := crc }

/-! ### Witnesses: queues and commands -/

/-- A word from its fields: lowest bit and value. -/
def fields (l : List (Nat × Nat)) : Nat := (l.map fun (p : Nat × Nat) => p.2 * 2 ^ p.1).sum

/-- A mapping entry: 2 MiB, present, writable, on stack 0, frame 0. -/
def mapE : BitVec 64 := BitVec.ofNat 64 (fields [(62, 1), (61, 1), (60, 1)])

/-- Queue 0 runs for T0 with its ring at 0 and its records at 4096, in a job; the first page is mapped. -/
def jobS (tail head : Nat) (regs : List (Nat × Nat)) : State :=
  let s := up ([(0x408001, 0), (0x408002, 3), (0x408003, 8192), (0x408004, 4096), (0x408006, 1), (0x408007, tail),
    (0x408008, head), (0x700201, 1), (0xA01001, 16), (0xA01101, 0x8000)] ++ regs)
  { s with page := { s.page with small := [(0, mapE)] } }

/-- A descriptor of NOP with a budget. -/
def nopD : BitVec 1024 := BitVec.ofNat 1024 (fields [(0, 1), (96, 1)])
/-- A descriptor whose opcode no table defines. -/
def badD : BitVec 1024 := BitVec.ofNat 1024 (fields [(0, 2), (96, 1)])

/-- The command of slot 0 of queue 0. -/
def cmd0 (d : BitVec 1024) : Cmd := Cmd.fetched 0 0 d 0

theorem wit_QueueWrites_start : WritesNow (up []) (box 0 0 []) (0x4080 + (127 : Fin 128).val) 6 [1] := now_of (by decide +kernel)
theorem wit_QueueWrites_stop : WritesNow (jobS 1 0 []) (box 0 0 []) (0x4080 + (0 : Fin 128).val) 6 [0] := now_of (by decide +kernel)
theorem wit_QueueWrites_halt : WritesNow (jobS 1 0 []) (box 0 0 []) (0x4080 + (0 : Fin 128).val) 6 [2] := now_of (by decide +kernel)
theorem wit_QueueWrites_tail : WritesNow (jobS 0 0 []) (box 0 0 []) (0x4080 + (0 : Fin 128).val) 7 (leBytes 4 (8#32).toNat) :=
  now_of (by decide +kernel)

/-- The state in which queue 0 has a descriptor to fetch. -/
def fetchS (d : BitVec 1024) : State := { jobS 1 0 [] with mem := Mem.writeN [] 0 (leBytes 128 d.toNat) }

theorem wit_Fetch_taken :
    let p : Place := ⟨0, frameMargin 0 0 0, frameNugget 0 0 0⟩
    (fetchS nopD).isReady = true ∧ (fetchS nopD).fetchDue 0 = true ∧
    (fetchS nopD).cmd? 0 ((fetchS nopD).qHead 0) = none ∧
    (fetchS nopD).access ((fetchS nopD).descAddr 0 ((fetchS nopD).qHead 0)) false = .served ∧
    (fetchS nopD).physLine ((fetchS nopD).descAddr 0 ((fetchS nopD).qHead 0)) = some p ∧
    (fetchS nopD).lineBad ((fetchS nopD).descAddr 0 ((fetchS nopD).qHead 0)) = false ∧
    (fetchS nopD).fenced ((fetchS nopD).qDie 0) = false ∧
    ((fetchS nopD).setReg (qkey 0 8) 1).validate ((fetchS nopD).qDie 0) (BitVec.ofNat 1024 ((fetchS nopD).loadNat p.data 128)) = 0 := by decide +kernel
theorem wit_Fetch_refused :
    let p : Place := ⟨0, frameMargin 0 0 0, frameNugget 0 0 0⟩
    (fetchS badD).isReady = true ∧ (fetchS badD).fetchDue 0 = true ∧
    (fetchS badD).cmd? 0 ((fetchS badD).qHead 0) = none ∧
    (fetchS badD).access ((fetchS badD).descAddr 0 ((fetchS badD).qHead 0)) false = .served ∧
    (fetchS badD).physLine ((fetchS badD).descAddr 0 ((fetchS badD).qHead 0)) = some p ∧
    (fetchS badD).lineBad ((fetchS badD).descAddr 0 ((fetchS badD).qHead 0)) = false ∧
    (fetchS badD).fenced ((fetchS badD).qDie 0) = false ∧
    ((fetchS badD).setReg (qkey 0 8) 1).validate ((fetchS badD).qDie 0) (BitVec.ofNat 1024 ((fetchS badD).loadNat p.data 128)) ≠ 0 ∧
    (fetchS badD).recordWaits 0 ((fetchS badD).qHead 0) = false := by decide +kernel

/-- T0 at 1,000 MHz with the NOP of slot 0 fetched. -/
def admitS : State := { jobS 1 1 [(0xA02001, 1000)] with cmds := [cmd0 nopD] }
theorem wit_Admission : admitS.front 0 = some (cmd0 nopD) ∧ admitS.isReady = true ∧ admitS.fenced (admitS.qDie 0) = false ∧
    memN (dOpcode nopD) [opNop, opArray, opVector] = true ∧
    ({ admitS with tick := { admitS.tick with now := 2000 } } : State).gate (cmd0 nopD) 2000 = .go ∧
    ({ admitS with tick := { admitS.tick with now := 2000 } } : State).outranked 0
      (({ admitS with tick := { admitS.tick with now := 2000 } } : State).engineOf (cmd0 nopD)) 2000 = false := by decide +kernel

/-- A VECTOR command of T0 that names contexts 1 and 2. -/
def vecD : BitVec 1024 := BitVec.ofNat 1024 (fields [(0, 0x20), (96, 1), (164, 2), (128, 2), (144, 2), (192, 1), (256, 2),
  (512 + 504, 1), (512 + 448, 1), (512 + 416, 32)])
/-- The same context is in use by another command of the step. -/
def keyS : State := { jobS 2 2 [] with cmds := [cmd0 vecD, { cmd0 vecD with slot := 1, phase := .admitted, bound := [(1, 0), (2, 0)] }] }
theorem wit_Admission_key_in_use : keyS.front 0 = some (cmd0 vecD) ∧ keyS.isReady = true ∧ keyS.fenced (keyS.qDie 0) = false ∧
    ({ keyS with tick := { keyS.tick with now := 0 } } : State).gateOrder (cmd0 vecD) = .go ∧ dOpcode vecD ≠ opVerdict ∧
    ¬ (dOpcode vecD = opArray ∧ dGather vecD ≠ 0) ∧ (∀ x ∈ keyS.cmds, ¬ (x.q = 0 ∧ x.phase = .gathered)) ∧
    ({ keyS with tick := { keyS.tick with now := 0 } } : State).keyInUse (cmd0 vecD) keyS.cmds = true ∧
    keyS.recordWaits 0 0 = false := by decide +kernel

/-- The NOP of slot 0 admitted, its work as given. -/
def runS (worked : Bool) (d : BitVec 1024) : State := { jobS 1 1 [] with cmds := [{ cmd0 d with phase := .admitted, worked := worked }] }
theorem wit_Windows_suspend : (runS false nopD).cmd? 0 (0#32).toNat = some { cmd0 nopD with phase := .admitted, worked := false } := by
  decide +kernel

/-- An ARRAY command whose 128 rows fill the array at once, gathered. -/
def arrD : BitVec 1024 := BitVec.ofNat 1024 (fields [(0, 0x10), (96, 1), (168, 1), (512 + 480, 128)])
def gatherS : State := { jobS 1 1 [(0xA02001, 1000)] with
  cmds := [{ cmd0 arrD with phase := .gathered }]
  eng := [(0, { EngineSt.fresh with gather := [⟨0, false, [(0, 0)]⟩] })] }
theorem wit_Windows_gather :
    let s := gatherS
    let k := ekey (Die.ofIx (0 : Fin 32).val) (0 : Fin 16).val (0 : Fin 2).val
    let g : Gather := ⟨0, false, [(0, 0)]⟩
    let l := s.members g
    let first := { cmd0 arrD with phase := .gathered }
    (s.engine k).gather.filter s.gatherDue = [g] ∧ l.head? = some first ∧ s.isReady = true ∧ s.gatherWaits l = false ∧
    s.gatherFits k l (max s.tick.now (s.windowStart (Die.ofIx 0) 0)) = true ∧
    (∀ c ∈ l, s.keyInUse c s.cmds = false) := by decide +kernel

/-- A NOP that waits for round 5 of muster 0, which two modules of the pod share. -/
def waitD : BitVec 1024 := BitVec.ofNat 1024 (fields [(0, 1), (96, 1), (332, 1), (336, 5)])
def lostS : State := { jobS 1 1 [] with cmds := [cmd0 waitD], dom := [(dkey 0x401001 4, 4#8), (dkey 0x401001 6, 0x20#8)] }
theorem wit_MusterTimeout_lost : lostS.jobRuns = true ∧ mEnabled (lostS.mEntry (0 : Fin 4096).val) = true ∧
    1 < mPod (lostS.mEntry (0 : Fin 4096).val) ∧ (lostS.cmds.filter fun c => lostS.waitsOn c (0 : Fin 4096).val) = [cmd0 waitD] ∧
    lostS.cmd? (cmd0 waitD).q (cmd0 waitD).slot = some (cmd0 waitD) ∧ lostS.recordWaits (cmd0 waitD).q (cmd0 waitD).slot = false := by
  decide +kernel
theorem wit_Completion :
    let p : Place := ⟨4096, frameMargin 0 0 0 + 16 * 32, frameNugget 0 0 0 + 8 * 32⟩
    Inv (runS true nopD) ∧
    (runS true nopD).cmd? 0 (0#32).toNat = some { cmd0 nopD with phase := .admitted, worked := true } ∧
    (runS true nopD).bracketTriggers { cmd0 nopD with phase := .admitted, worked := true } = false ∧
    (runS true nopD).access ((runS true nopD).recordAddr 0 (0#32).toNat) true = .served ∧
    (runS true nopD).physLine ((runS true nopD).recordAddr 0 (0#32).toNat) = some p ∧ dOpcode nopD ≠ opUpdate := by decide +kernel

/-! ### Witnesses: arrays, the vector unit and the stream engine -/

/-- The descriptor of a context over 32 F32 elements on one line of the first page. -/
def ctxD (base : Nat) : BitVec 364 :=
  BitVec.ofNat 364 (fields [(300, base), (268, 32), (236, 1), (220, 1), (188, 8), (118, 2), (116, 2)])

/-- A plate of zeros for that line. -/
def zeroPlate (base : Nat) : Plate := Plate.finish 2 0 base ⟨0, 0, 0, 0, 0⟩

/-- Contexts 1 to 4 of T0's shaft 0 stand on four lines, each with its plate, and the command of slot 0 is admitted. -/
def workS (d : BitVec 1024) : State :=
  let s := { runS false d with ctxs := [1, 2, 3, 4].map fun k => (k, { Ctx.fresh with desc := ctxD (8192 + 128 * k), state := .running }) }
  let put (s : State) (k : Nat) : State := match s.physLine (8192 + 128 * k) with
    | some p => s.putPlate p (zeroPlate (8192 + 128 * k))
    | none => s
  [1, 2, 3, 4].foldl put s

/-- The admitted command of slot 0. -/
def cmdR (d : BitVec 1024) : Cmd := { cmd0 d with phase := .admitted, worked := false }

/-- The result is not an error. -/
def okB {α β : Type} (e : Except α β) : Bool := match e with
  | .ok _ => true
  | .error _ => false

theorem ok_of {α β : Type} {e : Except α β} (h : okB e = true) : ∃ x, e = .ok x := by
  cases e with
  | error _ => cases h
  | ok x => exact ⟨x, rfl⟩

theorem unit_of {α : Type} {e : Except α Unit} (h : okB e = true) : e = .ok () := by
  obtain ⟨x, hx⟩ := ok_of h
  exact hx

/-- An ARRAY command on the four contexts with one row, in the mode that the word gives. -/
def arrayD (mode : Nat) : BitVec 1024 := BitVec.ofNat 1024 (fields [(0, 0x10), (96, 1), (192, 1), (224, 2), (256, 3), (288, 4),
  (128, 2), (136, 2), (144, 2), (152, 2), (512 + 480, 1), (512 + 448, 1), (512 + 416, 1), (512 + 400, 1)] + mode)

/-- The five products, the two reductions, and the paired, accurate and FP64 modes. -/
def arrayModes : List (Nat × Nat × Nat × Nat) :=
  [(0, 0, 0, 0), (1 <<< 15, 0, 0, 1), (2 <<< 15, 0, 0, 2), (3 <<< 15, 0, 0, 3), (4 <<< 15, 0, 0, 4), (1 <<< 18, 0, 1, 0),
   (2 <<< 18, 0, 2, 0), (1 <<< 13, 1, 0, 0), (2 <<< 13, 2, 0, 0), (3 <<< 13, 3, 0, 0)]

def arrayOk (m : Nat × Nat × Nat × Nat) : Bool :=
  let s := workS (arrayD m.1)
  let c := cmdR (arrayD m.1)
  decide (s.running 0 0 opArray = some c) && decide ((dMode c.run).precision = m.2.1 ∧ (dMode c.run).reduce = m.2.2.1 ∧
    (dMode c.run).product = m.2.2.2) && okB (s.checkDraws c (dCtx c.run 2) (stochasticC c.run)) &&
    okB ((s.stopBath c).arrayIn c) && okB ((s.stopBath c).checkWrite c (dCtx c.run 2)) &&
    okB ((s.stopBath c).checkWrite c (dCtx c.run 3))

theorem arrayOk_all : arrayModes.all arrayOk = true := by decide +kernel

/-- Every form of ArrayModesWriteTheirResults and of ParityFaultStopsTheCommand, with D. -/
theorem wit_ArrayModes (m : Nat × Nat × Nat × Nat) (hm : m ∈ arrayModes) :
    let s := workS (arrayD m.1)
    let c := cmdR (arrayD m.1)
    s.running (0 : Fin 128).val (0#32).toNat opArray = some c ∧
    ((dMode c.run).precision = m.2.1 ∧ (dMode c.run).reduce = m.2.2.1 ∧ (dMode c.run).product = m.2.2.2) ∧
    s.checkDraws c (dCtx c.run 2) (stochasticC c.run) = .ok () ∧ (∃ x, (s.stopBath c).arrayIn c = .ok x) ∧
    (s.stopBath c).checkWrite c (dCtx c.run 2) = .ok () ∧ (s.stopBath c).checkWrite c (dCtx c.run 3) = .ok () := by
  have h := List.all_eq_true.mp arrayOk_all m hm
  simp only [arrayOk, Bool.and_eq_true, decide_eq_true_eq] at h
  exact ⟨h.1.1.1.1.1, h.1.1.1.1.2, unit_of h.1.1.1.2, ok_of h.1.1.2, unit_of h.1.2, unit_of h.2⟩

theorem wit_ParityFault_log : plainMode 4 (dMode (cmdR (arrayD (4 <<< 15))).run) = true := by decide +kernel

/-- The same array has another command of an older setting, its work done, when the stop bath begins. -/
def bathS : State :=
  let s := workS (arrayD (1 <<< 13))
  let s := { s with cmds := s.cmds ++ [{ cmdR (arrayD 0) with slot := 1, worked := true }] }
  s.setArray (s.arrayOf (cmdR (arrayD (1 <<< 13)))) { ArraySt.fresh with setting := some (dSetting (arrayD 0)) }
theorem wit_ParityFault_bath : let c := cmdR (arrayD (1 <<< 13))
    bathS.running (0 : Fin 128).val (0#32).toNat opArray = some c ∧ (dMode c.run).precision = 1 ∧ (bathS.bathFrom c).isSome = true ∧
    bathS.crossing c = some { cmdR (arrayD 0) with slot := 1, worked := true } := by decide +kernel

/-- A VECTOR command on the four contexts: its function, with or without B and D. -/
def vectorD (f : Nat) (b d : Bool) : BitVec 1024 := BitVec.ofNat 1024 (fields [(0, 0x20), (96, 1), (164, 2), (192, 1), (256, 3),
  (128, 2), (144, 2), (224, if b then 2 else 0), (136, if b then 2 else 0), (288, if d then 4 else 0), (152, if d then 2 else 0),
  (512 + 504, f), (512 + 496, 1), (512 + 448, 1), (512 + 416, 32)])

/-- The functions of R128, with B where the function reads it and D where it writes it. -/
def vectorForms : List (Nat × Bool × Bool) :=
  [(0x01, true, false), (0x02, true, false), (0x03, true, false), (0x08, false, false), (0x09, false, false),
   (0x0A, false, false), (0x0B, false, false), (0x10, false, false), (0x11, false, true), (0x18, false, false),
   (0x19, true, false), (0x1A, true, false), (0x20, false, true), (0x21, false, true), (0x28, false, false)]

def vectorOk (x : Nat × Bool × Bool) : Bool :=
  let d := vectorD x.1 x.2.1 x.2.2
  let s := workS d
  let c := cmdR d
  let srC := dGradient d 2 && decide (dFmt d 2 ≠ 0x02)
  let srD := dGradient d 3 && decide (dFmt d 3 ≠ 0x02)
  decide (s.running 0 0 opVector = some c ∧ oFunc d = x.1 ∧ (dCtx d 1 = 0 ↔ x.2.1 = false) ∧ (dCtx d 3 = 0 ↔ x.2.2 = false)) &&
    okB (s.checkDraws c (dCtx d 0) (stochasticIn d 0)) && okB (s.checkDraws c (dCtx d 1) (stochasticIn d 1)) &&
    okB (s.checkDraws c (dCtx d 2) srC) && okB (s.checkDraws c (dCtx d 3) srD) && okB (s.readOperand c (dCtx d 0)) &&
    (!x.2.1 || okB (s.readOperand c (dCtx d 1))) && okB (s.checkWrite c (dCtx d 2)) && okB (s.checkWrite c (dCtx d 3))

theorem vectorOk_all : vectorForms.all vectorOk = true := by decide +kernel

theorem wit_VectorFunctions (x : Nat × Bool × Bool) (hx : x ∈ vectorForms) :
    let d := vectorD x.1 x.2.1 x.2.2
    let s := workS d
    let c := cmdR d
    let srC := dGradient d 2 && decide (dFmt d 2 ≠ 0x02)
    let srD := dGradient d 3 && decide (dFmt d 3 ≠ 0x02)
    ∃ (a : Operand) (b : Option Operand), s.running (0 : Fin 128).val (0#32).toNat opVector = some c ∧ oFunc d = x.1 ∧
      s.checkDraws c (dCtx d 0) (stochasticIn d 0) = .ok () ∧ (dCtx d 1 ≠ 0 → s.checkDraws c (dCtx d 1) (stochasticIn d 1) = .ok ()) ∧
      s.checkDraws c (dCtx d 2) srC = .ok () ∧ (dCtx d 3 ≠ 0 → s.checkDraws c (dCtx d 3) srD = .ok ()) ∧
      s.readOperand c (dCtx d 0) = .ok a ∧
      (if dCtx d 1 = 0 then b = none else ∃ b', b = some b' ∧ s.readOperand c (dCtx d 1) = .ok b') ∧
      s.checkWrite c (dCtx d 2) = .ok () ∧ (dCtx d 3 ≠ 0 → s.checkWrite c (dCtx d 3) = .ok ()) := by
  have h := List.all_eq_true.mp vectorOk_all x hx
  simp only [vectorOk, Bool.and_eq_true, decide_eq_true_eq, Bool.or_eq_true, Bool.not_eq_true'] at h
  obtain ⟨⟨⟨⟨⟨⟨⟨⟨⟨h1, h2, h3, _⟩, h4⟩, h5⟩, h6⟩, h7⟩, h8⟩, h9⟩, h10⟩, h11⟩ := h
  obtain ⟨a, ha⟩ := ok_of h8
  by_cases hb : x.2.1 = false
  · exact ⟨a, none, h1, h2, unit_of h4, fun _ => unit_of h5, unit_of h6, fun _ => unit_of h7, ha, by simp [h3.mpr hb],
      unit_of h10, fun _ => unit_of h11⟩
  · obtain ⟨b, hb'⟩ := ok_of (h9.resolve_left hb)
    refine ⟨a, some b, h1, h2, unit_of h4, fun _ => unit_of h5, unit_of h6, fun _ => unit_of h7, ha, ?_,
      unit_of h10, fun _ => unit_of h11⟩
    rw [if_neg (fun hc => hb (h3.mp hc))]
    exact ⟨b, rfl, hb'⟩

theorem wit_Passes : (workS (arrayD 0)).running (0 : Fin 128).val (0#32).toNat opArray = some (cmdR (arrayD 0)) := by decide +kernel

/-- The pool of engine 0 of T0's shaft 0 with what its slots hold. -/
def poolS (held : List (Nat × Nat)) : State := { up [] with eng := [(0, { EngineSt.fresh with held := held })] }
theorem wit_NuggetPool_fits : (∀ w ∈ ((poolS []).engine (ekey (Die.ofIx 0) 0 0)).waiting, w.1 = (0 : Fin 16).val) ∧ 64 ≤ 64 ∧
    heldSum (SMap.del ((poolS []).engine (ekey (Die.ofIx 0) 0 0)).held 0) + 64 ≤ 64 := by decide +kernel
theorem wit_NuggetPool_none (need : Nat) (h : need = 0 ∨ need = 65) : (need = 0 ∨ 64 < need) ∧
    (∀ w ∈ ((poolS [(0, 3)]).engine (ekey (Die.ofIx 0) 0 0)).waiting, w.1 = (0 : Fin 16).val) := by rcases h with rfl | rfl <;> decide +kernel
theorem wit_NuggetPool_waits : 1 ≤ 64 ∧ 64 < heldSum (SMap.del ((poolS [(1, 64)]).engine (ekey (Die.ofIx 0) 0 0)).held 0) + 1 ∧
    (∀ w ∈ ((poolS [(1, 64)]).engine (ekey (Die.ofIx 0) 0 0)).waiting, w.1 = (0 : Fin 16).val) := by decide +kernel

theorem wit_Move_nop : (runS false nopD).running (0 : Fin 128).val (0#32).toNat opNop = some (cmdR nopD) := by decide +kernel

/-- A MOVE command: its function, with contexts 1 and 3 for a COPY; one record at 12288 for an ARM or a DUMP of context 1. -/
def moveD (f : Nat) : BitVec 1024 := BitVec.ofNat 1024 (fields ([(0, 0x30), (96, 1), (164, 3), (512 + 504, f)] ++
  if f = 1 then [(192, 1), (256, 3), (128, 2), (144, 2)] else [(512 + 448, 12288), (512 + 439, 1), (512 + 432, 1)]))

def copyOk : Bool :=
  let s := workS (moveD 1)
  let c := cmdR (moveD 1)
  decide (s.runningMove 0 0 1 = some c) && okB (s.checkDraws c (dCtx c.desc 2) false) && okB (s.readOperand c (dCtx c.desc 0)) &&
    okB (s.checkWrite c (dCtx c.desc 2)) && decide ((ctxTensor (s.ctx (dCtx c.desc 2)).desc).fmt = (ctxTensor (s.ctx (dCtx c.desc 0)).desc).fmt)
theorem copyOk_holds : copyOk = true := by decide +kernel
theorem wit_Move_copy :
    let s := workS (moveD 1)
    let c := cmdR (moveD 1)
    ∃ a, s.runningMove (0 : Fin 128).val (0#32).toNat 1 = some c ∧ s.checkDraws c (dCtx c.desc 2) false = .ok () ∧
      s.readOperand c (dCtx c.desc 0) = .ok a ∧ s.checkWrite c (dCtx c.desc 2) = .ok () ∧
      (ctxTensor (s.ctx (dCtx c.desc 2)).desc).fmt = (ctxTensor (s.ctx (dCtx c.desc 0)).desc).fmt := by
  have h := copyOk_holds
  simp only [copyOk, Bool.and_eq_true, decide_eq_true_eq] at h
  obtain ⟨a, ha⟩ := ok_of h.1.1.2
  exact ⟨a, h.1.1.1.1, unit_of h.1.1.1.2, ha, unit_of h.1.2, h.2⟩

/-- The ARM of slot 0 with context 1 as given. -/
def armS (x : Ctx) : State := { runS false (moveD 2) with ctxs := [(1, x)] }
theorem wit_Move_arm : (armS Ctx.fresh).runningMove (0 : Fin 128).val (0#32).toNat 2 = some (cmdR (moveD 2)) ∧
    (∀ j, j < oCount (moveD 2) → (armS Ctx.fresh).tableRecord (moveD 2) j = some 0) ∧
    (∀ j, j < oCount (moveD 2) → ((armS Ctx.fresh).ctx ((armS Ctx.fresh).localCtx (cmdR (moveD 2)) (oFirst (moveD 2) + j))).shadow = none ∧
      (armS Ctx.fresh).outstanding ((armS Ctx.fresh).localCtx (cmdR (moveD 2)) (oFirst (moveD 2) + j)) = false) := by
  have h1 : oCount (moveD 2) = 1 := by decide +kernel
  rw [h1]
  refine ⟨by decide +kernel, ?_, ?_⟩ <;> intro j hj <;> obtain rfl : j = 0 := by omega
  · decide +kernel
  · decide +kernel
theorem wit_Move_arm_shadow : (cmdR (moveD 2)).passes = 0 ∧ 0 + 1 = oCount (moveD 2) ∧
    (armS { Ctx.fresh with tags := 1 }).outstanding ((armS { Ctx.fresh with tags := 1 }).localCtx (cmdR (moveD 2)) (oFirst (moveD 2) + 0)) = true ∧
    ((armS { Ctx.fresh with tags := 1 }).ctx ((armS { Ctx.fresh with tags := 1 }).localCtx (cmdR (moveD 2)) (oFirst (moveD 2) + 0))).shadow = none := by
  decide +kernel
theorem wit_Move_arm_stalls : ((armS { Ctx.fresh with shadow := some (0, none) }).ctx
    ((armS { Ctx.fresh with shadow := some (0, none) }).localCtx (cmdR (moveD 2)) (oFirst (moveD 2) + 0))).shadow ≠ none := by
  decide +kernel
theorem wit_Move_dump : (runS false (moveD 3)).runningMove (0 : Fin 128).val (0#32).toNat 3 = some (cmdR (moveD 3)) ∧
    (runS false (moveD 3)).dumpFault (moveD 3) = none := by decide +kernel

/-- Context 1 as given, in use by the VECTOR command of slot 0 in a phase. -/
def ctxS (phase : Phase) (x : Ctx) : State :=
  { jobS 1 1 [] with cmds := [{ cmd0 vecD with phase := phase, bound := [(1, 0)] }], ctxs := [(1, x)] }
theorem wit_StreamContexts_shadow : (({ jobS 1 1 [] with ctxs := [(1, { Ctx.fresh with shadow := some (7, none) })] } : State).ctx
    (1#18).toNat).shadow = some (7, none) := by decide +kernel
theorem wit_StreamContexts_ack : ((ctxS .admitted { Ctx.fresh with tags := 1 }).ctx (1#18).toNat).tags ≠ 0 ∧
    (ctxS .admitted { Ctx.fresh with tags := 1 }).userOf (1#18).toNat = some { cmd0 vecD with phase := .admitted, bound := [(1, 0)] } := by
  decide +kernel
theorem wit_StreamContexts_resume : (ctxS .halted Ctx.fresh).cmd? (0 : Fin 128).val (0#32).toNat =
    some { cmd0 vecD with phase := .halted, bound := [(1, 0)] } := by decide +kernel
theorem wit_StreamContexts_RESUME : WritesNow
    (ctxS .halted { Ctx.fresh with state := .halted, causes := [.translation], faultPage := some 0 }) (box 0 0 []) 0x4110 1
    (leBytes 4 (1#32).toNat) := now_of (by decide +kernel)

/-- Context 1 over a line of the first page, of module `m` or in its stope. -/
def lineCtx (m : Nat) (stope : Nat) : Ctx :=
  { Ctx.fresh with desc := BitVec.ofNat 364 (fields [(352, m), (300, if stope = 1 then 0 else 8192), (268, 32), (236, 1), (220, 1), (188, 8),
      (124, stope), (118, 2), (115, stope)]), state := .running }
def replyCmd : Cmd := { cmd0 vecD with phase := .admitted, bound := [(1, 0)] }
/-- Tag 0 of the stream engine of T0's shaft 0: its reuse count is 3, and it is held as given. -/
def tagS (s : State) (u : TagUse) : State := s.setEngine (streamKey 1) { EngineSt.fresh with rtags := [(0, ⟨3, some u⟩)] }
/-- Context 1 waits for a plate of module 1, or for the acknowledgement of one. -/
def remoteS (write : Bool) : State := tagS (ctxS .admitted (lineCtx 1 0)) ⟨1, 8192, write, true, none⟩
def zeroB : Bytes := (zeroPlate 0).body ++ leBytes 4 (crc32c (zeroPlate 0).body)
theorem wit_PlateReplies_link : (remoteS false).userOf (1#18).toNat = some replyCmd ∧
    lineOffset (ctxTensor ((remoteS false).ctx (1#18).toNat).desc) (8192#52).toNat = some 0 ∧
    (remoteS false).tagOf (streamReqId (1#18).toNat (0#16).toNat 3) = some (streamKey 1, 0, ⟨(1#18).toNat, (8192#52).toNat, false, true, none⟩) ∧
    (remoteS false).remote (ctxTensor ((remoteS false).ctx (1#18).toNat).desc) = true ∧ replyCmd.phase ≠ .done ∧
    (remoteS false).stale (Plate.ofBytes zeroB 0) = false ∧
    plateCheck (ctxTensor ((remoteS false).ctx (1#18).toNat).desc).fmt none
      (lineInBlock (ctxTensor ((remoteS false).ctx (1#18).toNat).desc) 0) (Plate.ofBytes zeroB 0) = 0 := by decide +kernel
theorem wit_PlateReplies_reuse : (remoteS false).tagOf (streamReqId (1#18).toNat (0#16).toNat 4) = none := by decide +kernel
theorem wit_PlateReplies_tier :
    let s := { workS vecD with cmds := [replyCmd] }
    let t := ctxTensor (s.ctx (1#18).toNat).desc
    s.userOf (1#18).toNat = some replyCmd ∧ lineOffset t (8320#52).toNat = some 0 ∧ t.stope = false ∧ s.remote t = false ∧
      s.physLine (8320#52).toNat = some ⟨8320, frameMargin 0 0 0 + 16 * 65, frameNugget 0 0 0 + 8 * 65⟩ ∧ s.lineErr 8320 = false ∧
      plateCheck t.fmt (some (8320#52).toNat) (lineInBlock t 0) (s.plateAt ⟨8320, frameMargin 0 0 0 + 16 * 65, frameNugget 0 0 0 + 8 * 65⟩) = 0 := by
  decide +kernel
theorem wit_PlateReplies_stope : (ctxS .admitted (lineCtx 0 1)).userOf (1#18).toNat = some replyCmd ∧
    lineOffset (ctxTensor ((ctxS .admitted (lineCtx 0 1)).ctx (1#18).toNat).desc) (0#52).toNat = some 0 ∧
    (ctxTensor ((ctxS .admitted (lineCtx 0 1)).ctx (1#18).toNat).desc).stope = true := by decide +kernel

theorem wit_StreamHalts_stale : (ctxS .halted Ctx.fresh).userOf (1#18).toNat =
    some { cmd0 vecD with phase := .halted, bound := [(1, 0)] } := by decide +kernel
theorem wit_StreamHalts_remote : (remoteS false).userOf (1#18).toNat = some replyCmd ∧ replyCmd.phase ≠ .done ∧
    (((remoteS false).heldRemote (1#18).toNat).find? fun x => x.2.want) = some (0, ⟨1, 8192, false, true, none⟩) := by decide +kernel
/-- Two commands of one shaft that wait for each other. -/
def lockS : State := { jobS 2 2 [(0x500006, 2)] with cmds := [replyCmd, { replyCmd with slot := 1, bound := [(2, 0)] }] }
theorem wit_StreamHalts_deadlock :
    let blocked : List (Fin 128 × BitVec 32) := [(0, 0), (0, 1)]
    let set := blocked.filterMap fun b => lockS.cmd? b.1.val b.2.toNat
    set.length = blocked.length ∧ 2 ≤ set.length ∧
    (∀ x ∈ set, x.phase = .admitted ∧ lockS.qDie x.q = Die.ofIx (0 : Fin 32).val ∧ dShaft x.desc = (0 : Fin 16).val ∧ x.bound ≠ [] ∧
      lockS.blockedLong x = true) ∧
    (set.find? fun x => decide (x.topCtx = set.foldl (fun a y => max a y.topCtx) 0)) = some { replyCmd with slot := 1, bound := [(2, 0)] } := by
  decide +kernel

/-! ### Witnesses: memory, the canary and the services of the Fixer dies -/

/-- The second page has its backing in LPDDR5X of F0 (tier 1) or in the host pool (tier 2), and context 1 waits for it. -/
def pageS (back : Nat) (ins : List PageIn) (regs : List (Nat × Nat)) : State :=
  let s := { ctxS .halted { Ctx.fresh with state := .halted, causes := [.translation], faultPage := some (2 ^ 21) } with
    regs := (jobS 1 1 regs).regs }
  { s with page := { s.page with small := [(0, mapE), (1, BitVec.ofNat 64 (fields [(62, 1), (60, 1), (30, back), (0, 5)]))], ins := ins } }
theorem wit_PageIn_frame : (pageS 1 [] []).pagerDie ((pageS 1 [] []).pageStart (0x200000#52).toNat) = some 0 ∧
    (pageS 1 [] []).access (0x200000#52).toNat false = .absent ∧ (pageS 1 [] []).draining (0x200000#52).toNat = false ∧
    (∀ i ∈ (pageS 1 [] []).page.ins, i.page ≠ (pageS 1 [] []).pageStart (0x200000#52).toNat) ∧
    (pageS 1 [] []).chooseFrame 0 ((pageS 1 [] []).entryAt (0x200000#52).toNat) = some (0, 0, 1) := by decide +kernel
theorem wit_PageIn_none :
    let s := { pageS 2 [] [] with boot := { (pageS 2 [] []).boot with admitted := [] } }
    s.pagerDie (s.pageStart (0x200000#52).toNat) = some 0 ∧ s.access (0x200000#52).toNat false = .absent ∧
    s.draining (0x200000#52).toNat = false ∧ (∀ i ∈ s.page.ins, i.page ≠ s.pageStart (0x200000#52).toNat) ∧
    s.chooseFrame 0 (s.entryAt (0x200000#52).toNat) = none ∧ s.fetchWaiters (s.pageStart (0x200000#52).toNat) = [] ∧
    s.recordWaiters (s.pageStart (0x200000#52).toNat) = [] := by decide +kernel
theorem wit_PageInDone :
    let s := pageS 1 [⟨2 ^ 21, 0, 1, 0, 0⟩] []
    SMap.get? s.page.large (s.pageStart (0x200000#52).toNat / 2 ^ 30) = none ∧
    (s.page.ins.find? fun i => decide (i.page = s.pageStart (0x200000#52).toNat)) = some ⟨2 ^ 21, 0, 1, 0, 0⟩ ∧
    (s.backParts (s.entryAt (0x200000#52).toNat)).isSome = true ∧ 0 < 2 ∧ 1 < 64 ∧ 0 < 2 ^ 20 ∧
    s.frameErr (1, eBackUnit (s.entryAt (0x200000#52).toNat), eBackFrame (s.entryAt (0x200000#52).toNat)) = none := by decide +kernel
/-- The first page drains to frame 1 of stack 0. -/
def drainS : State :=
  { pageS 1 [] [] with page := { (pageS 1 [] []).page with drains := [⟨0, mapE, BitVec.ofNat 64 (fields [(62, 1), (61, 1), (60, 1), (32, 1)])⟩] } }
theorem wit_PageDrain : ∃ d, (drainS.page.drains.find? fun d => decide (d.page = drainS.pageStart (0#52).toNat)) = some d ∧
    drainS.copies 0 d.old.toNat d.new.toNat = true ∧
    drainS.drainErr 0 d.old.toNat ((none : Option (BitVec 30)).map BitVec.toNat) = none ∧
    drainS.drainErr 0 d.old.toNat ((some (2097151#30)).map BitVec.toNat) = some ((0, 0, 0), 2097024) := ⟨_, rfl, by decide +kernel⟩

/-- The checks of `WritesTable` as one test; the writes given up earlier do not enter the checks that it makes. -/
def tableB (s : State) (m : Msg) : Bool :=
  heardB s 4 false m && match (atService s 4 false m).find m.index.toNat m.sub.toNat with
  | .ok o => decide (o.ty = .domain) && !(s.dict.staged.any fun y => decide (y.key = okey m.index.toNat m.sub.toNat)) &&
      decide (m.offset = 0) && m.last && decide (m.payload.length ≤ domRoom o (okey m.index.toNat m.sub.toNat)) &&
      decide ((atService s 4 false m).checkTable m o (okey m.index.toNat m.sub.toNat) m.payload = abOk)
  | .error _ => false

theorem checkTable_abandoned (s : State) (l : List (Path × Nat)) (m : Msg) (o : Obj) (k : Nat) (c : Bytes) :
    ({ s with dict := { s.dict with abandoned := l } } : State).checkTable m o k c = s.checkTable m o k c := rfl

theorem table_of {s : State} {m : Msg} (h : tableB s m = true) : ∃ o, WritesTable s m o := by
  unfold tableB at h
  simp only [Bool.and_eq_true] at h
  obtain ⟨h1, h2⟩ := h
  split at h2
  · rename_i o ho
    simp only [Bool.and_eq_true, decide_eq_true_eq, Bool.not_eq_true'] at h2
    obtain ⟨⟨⟨⟨⟨h3, h4⟩, h5⟩, h6⟩, h7⟩, h8⟩ := h2
    exact ⟨o, heard_of h1, ho, h3, h4, h5, h6, h7, fun l => by rw [checkTable_abandoned]; exact h8⟩
  · cases h2

theorem wit_Mapping_batch : ∃ o, WritesTable (up []) { aim (box 0 0 []) 0x4410 1 (pairBytes [(0x200000#64, 0#64)]) with offset := 0, last := true } o :=
  table_of (by decide +kernel)
theorem wit_Mapping_lookup : WritesNow (up []) (box 0 0 []) 0x4410 2 (leBytes 8 (0x200000#64).toNat) := now_of (by decide +kernel)

theorem wit_Aperture_read : (jobS 0 0 []).hostUp = true ∧ (jobS 0 0 []).host.d3hot = false ∧ 0x1FFFFF < (jobS 0 0 []).barSize / 2 ∧
    (jobS 0 0 []).physLine ((jobS 0 0 []).apertureBase + 0x1FFFFF) =
      some ⟨128 * 16383, frameMargin 0 0 0 + 16 * 16383, frameNugget 0 0 0 + 8 * 16383⟩ ∧
    (apLines (.data ((jobS 0 0 []).apertureBase + 0x1FFFFF)) 1).find? (jobS 0 0 []).lineBad = none := by decide +kernel
theorem wit_Aperture_write : Inv (jobS 0 0 []) ∧ (jobS 0 0 []).physLine ((jobS 0 0 []).apertureBase + 0) =
      some ⟨0, frameMargin 0 0 0, frameNugget 0 0 0⟩ ∧ (jobS 0 0 []).access ((jobS 0 0 []).apertureBase + 0) true = .served := by
  decide +kernel
theorem wit_Aperture_absent : 0x200000 < (jobS 0 0 []).barSize / 2 ∧
    (jobS 0 0 []).physLine ((jobS 0 0 []).apertureBase + 0x200000) = none := by decide +kernel

theorem wit_HostReadTimeout :
    let s := pageS 2 [⟨2 ^ 21, 0, 0, 1, 0⟩] []
    let c := { cmd0 vecD with phase := .halted, bound := [(1, 0)] }
    eBackTier (s.entryAt (0x200000#52).toNat) = 2 ∧
    (s.page.ins.find? fun i => decide (i.page = s.pageStart (0x200000#52).toNat)) = some ⟨2 ^ 21, 0, 0, 1, 0⟩ ∧
    s.pageWaiters (s.pageStart (0x200000#52).toNat) = [1] ∧ s.userOf 1 = some c ∧
    (∀ q, q < 128 → s.pageStart (s.descAddr q (s.qHead q)) ≠ s.pageStart (0x200000#52).toNat) ∧
    (∀ x ∈ s.cmds, s.pageStart (s.recordAddr x.q x.slot) ≠ s.pageStart (0x200000#52).toNat) := by decide +kernel

theorem wit_Canary_out : ({ up [] with num := { (up []).num with fenced := [.t 0] } } : State).live (.t 0) = false := by decide +kernel
theorem wit_Canary_pass : (up []).live (.t 31) = true ∧ (up []).physState (31 : Fin 32).val (17 : Fin 18).val < 16 ∧ (up []).tickNo < 2 ^ 64 := by
  decide +kernel
theorem wit_Canary_slot : (up []).noSlot (.t 31) (.segment (some 17) true) = false ∧ (up []).noSlot (.t 31) (.vectorFail 1 17 0 0) = false ∧
    (up []).noSlot (.t 31) (.bgTest none 0 false) = false ∧ (up []).isReady = true := by decide +kernel
theorem wit_Canary_halted : ({ up [] with obs := { (up []).obs with halted := [(31, 68), (31, 69), (31, 70), (31, 71)] } } : State).noSlot
    (.t 31) (.segment (some 17) true) = true := by decide +kernel
theorem wit_Canary_die : (up []).live (.f 15) = true := by decide +kernel
theorem wit_Canary_late :
    let s := { up [(0x500006, 3000)] with tick := { (up []).tick with now := 1 } }
    s.live (.t 0) = true ∧ s.physState 0 0 < 16 ∧ memN (canKey 0 0) s.can.lateTold = false ∧
      canaryBound (s.lowest 0 0) < (s.tickNo - s.tPass 0 0) * s.periodNs + s.tick.now := by decide +kernel
theorem wit_DefectListAppend :
    let s := { up [] with num := { (up []).num with append := [1], counter := 1023 } }
    s.serves = true ∧ s.num.append ≠ [] ∧ s.num.counter < 1024 ∧ s.list.entries.length + s.num.append.length ≤ 4088 := by decide +kernel

/-- Every Fixer die is fenced, so that no group table is looked at. -/
def noFixers (s : State) : State := { s with num := { s.num with fenced := allFixer } }
theorem wit_Job_start : WritesLater (noFixers (up [])) (box 0 0 []) 0x7002 1 [1] := later_of (by decide +kernel)
theorem wit_Job_end : WritesLater (jobS 0 0 []) (box 0 0 []) 0x7002 1 [0] := later_of (by decide +kernel)
theorem wit_Job_replay : WritesNow (jobS 0 0 []) (box 0 0 []) 0x3100 0x0D [1] := now_of (by decide +kernel)
theorem wit_Job_held_step : WritesNow (up []) (box 0 0 []) 0x3150 5 (leBytes 8 (0xFFF00000001#64).toNat) := now_of (by decide +kernel)

/-- Group 0 of F0 is enabled (bit 665 of its entry). -/
def groupS (regs : List (Nat × Nat)) : State := { up regs with dom := [(dkey (okey 0xC840 1) 83, 2#8)] }
theorem wit_ProbeStep : WritesNow (up []) (box 0 0 []) 0x6020 2 (leBytes 4 (0xFFFFFFFF#32).toNat) := now_of (by decide +kernel)
theorem wit_FenceDie : WritesNow (up [(0x810005, 1)]) (box 0 0 []) 0x7110 1 (leBytes 2 (dieArg (.f 15) + 1)) := now_of (by decide +kernel)
theorem wit_ReadmitDie : WritesNow (up [(0x810005, 1)]) (box 0 0 []) 0x7110 1 (leBytes 2 (dieArg (.t 0))) := now_of (by decide +kernel)

/-! ### Witnesses: the dictionary, continued -/

/-- A request over Iltur from one client, its CRC in order. -/
def far (svc : Nat) (i sub : Nat) (b : Bytes) : Msg :=
  let m : Msg := { box i sub b with path := .iltur 1 9000 }
  { m with crc := BitVec.ofNat 32 (crc32c (msgBody m svc false)) }

theorem wit_Read_far : Heard (up []) 1 false (far 1 0x1000 1 []) := heard_of (by decide +kernel)
/-- A kept response for the far client's request 7. -/
def keptS (m : Msg) : State :=
  { up [] with dict := { (up []).dict with kept := [(.iltur 1 9000, [⟨7, 2, false, m, ⟨abOk, 0, false, false, []⟩, none⟩])] } }
theorem wit_Kept_same : ownRow (far 2 0x1300 2 [1]) = false ∧ (keptS (far 2 0x1300 2 [1])).serves = true ∧
    viaIltur (far 2 0x1300 2 [1]) = true ∧ msgDropped (far 2 0x1300 2 [1]) 2 false = false ∧
    (keptS (far 2 0x1300 2 [1])).keptFor (far 2 0x1300 2 [1]).path (far 2 0x1300 2 [1]).requestId =
      some ⟨7, 2, false, far 2 0x1300 2 [1], ⟨abOk, 0, false, false, []⟩, none⟩ ∧
    far 2 0x1300 2 [1] = msgContent (far 2 0x1300 2 [1]) := by decide +kernel
theorem wit_Kept_other : ¬ ((2#8 = 2#8) ∧ (false = false) ∧ far 2 0x1300 2 [0] = far 2 0x1300 2 [1]) := by decide +kernel
theorem wit_BlockRead : ∃ o, Heard (up []) 3 false (box 0x9000 1 []) ∧
    (atService (up []) 3 false (box 0x9000 1 [])).find 0x9000 1 = .ok o ∧ o.ty = .domain ∧ o.acc ≠ .wo ∧ okey 0x9000 1 ≠ 0x810001 ∧
    ((up []).dict.staged.any fun x => decide (x.key = okey 0x9000 1 ∧ x.path ≠ .mailbox)) = false ∧
    ((up []).dict.snaps.filter fun x => !decide (x.path = Path.mailbox ∧ x.key = okey 0x9000 1)).length < 4 ∧
    ((atService (up []) 3 false (box 0x9000 1 [])).content .mailbox o (okey 0x9000 1)).length ≤ 33554432 :=
  ⟨_, heard_of (by decide +kernel), rfl, by decide +kernel, by decide +kernel, by decide +kernel, by decide +kernel, by decide +kernel,
    by decide +kernel⟩
theorem wit_BlockRead_sample : ∃ o, Heard (up []) 3 false (aimAt (box 0 0 []) (0xA000 + 0x100 * (31 : Fin 32).val + 0x82) 2) ∧
    (atService (up []) 3 false (aimAt (box 0 0 []) (0xA000 + 0x100 * (31 : Fin 32).val + 0x82) 2)).find 0xBF82 2 = .ok o ∧ o.ty = .domain ∧
    o.acc ≠ .wo :=
  ⟨_, heard_of (by decide +kernel), rfl, by decide +kernel, by decide +kernel⟩
theorem wit_BlockWrite : ∃ o, Heard (up []) 4 false { box 0x9000 1 [0] with last := false } ∧
    (atService (up []) 4 false { box 0x9000 1 [0] with last := false }).find 0x9000 1 = .ok o ∧ o.ty = .domain ∧
    1 ≤ domRoom o (okey 0x9000 1) :=
  ⟨_, heard_of (by decide +kernel), rfl, by decide +kernel, by decide +kernel⟩
theorem wit_Subscribe : Heard (up []) 5 false { box 0 0 [0, 0x50, 6, 0] with offset := 1 } ∧
    (atService (up []) 5 false { box 0 0 [0, 0x50, 6, 0] with offset := 1 }).subKeys 1 [0, 0x50, 6, 0] = .ok [0x500006] ∧
    (atService (up []) 5 false { box 0 0 [0, 0x50, 6, 0] with offset := 1 }).subBytes [0x500006] ≤ 3824 :=
  ⟨heard_of (by decide +kernel), rfl, by decide +kernel⟩
/-- A subscription over Iltur at the longest period. -/
def farSub : Msg :=
  let m : Msg := { box 0 0 [0, 0x50, 6, 0] with path := .iltur 1 9000, offset := 65535 }
  { m with crc := BitVec.ofNat 32 (crc32c (msgBody m 5 false)) }
theorem wit_Subscribe_far : Heard (up []) 5 false farSub ∧
    (atService (up []) 5 false farSub).subKeys 1 farSub.payload = .ok [0x500006] ∧
    (atService (up []) 5 false farSub).subBytes [0x500006] ≤ 1024 ∧
    (atService (up []) 5 false farSub).busOk ([] ++ [⟨farSub.path, 65535, [0x500006]⟩]) = true :=
  ⟨heard_of (by decide +kernel), rfl, by decide +kernel, by decide +kernel⟩
theorem wit_Subscribe_empty : Heard (up []) 5 false (box 0 0 []) ∧ (atService (up []) 5 false (box 0 0 [])).subKeys 0 [] = .ok [] :=
  ⟨heard_of (by decide +kernel), rfl⟩
theorem wit_OneSecondLapses :
    let s := { up [] with dict := { (up []).dict with staged := [⟨.mailbox, 0x900001, []⟩] } }
    ∃ x ∈ s.dict.staged, x.key = okey (0x9000#16).toNat (1#8).toNat := ⟨⟨.mailbox, 0x900001, []⟩, by decide, by decide⟩
/-- A staged write of the layer table was given up. -/
def lapsedS : State := { up [] with dict := { (up []).dict with abandoned := [(.mailbox, okey 0x9000 1)] } }
def lateChunk : Msg := { box 0x9000 1 [0] with offset := 1 }
theorem wit_OneSecondLapses_later : ∃ o, Heard lapsedS 4 false lateChunk ∧ lateChunk.offset ≠ 0 ∧
    (atService lapsedS 4 false lateChunk).find 0x9000 1 = .ok o ∧ o.ty = .domain ∧ (∀ y ∈ lapsedS.dict.staged, y.key ≠ okey 0x9000 1) ∧
    lateChunk.offset.toNat + lateChunk.payload.length ≤ domRoom o (okey 0x9000 1) ∧ (lateChunk.path, okey 0x9000 1) ∈ lapsedS.dict.abandoned :=
  ⟨_, heard_of (by decide +kernel), by decide, rfl, by decide +kernel, by decide +kernel, by decide +kernel, by decide +kernel⟩
theorem wit_Mailbox_response :
    let s := { up [] with dict := { (up []).dict with mbServed := some (⟨abOk, 0, false, false, []⟩, []), mbBusy := true } }
    s.dict.mbServed = some (⟨abOk, 0, false, false, []⟩, []) ∧ s.dict.mbBusy = true := ⟨rfl, rfl⟩
theorem wit_Handover : (up []).serves = true ∧ (up []).boot.pithead = some false ∧ (up []).fenced (.d 8) = false := by decide +kernel
theorem wit_Freeze : WritesNow (groupS []) (box 0 0 []) 0x6000 2 (leBytes 4 (0x10000#32).toNat) := now_of (by decide +kernel)
theorem wit_Freeze_in_job : WritesNow (groupS [(0x700201, 1)]) (box 0 0 []) 0x6000 2 (leBytes 4 (0x10000#32).toNat) ∧
    (atService (groupS [(0x700201, 1)]) 2 false (aim (box 0 0 []) 0x6000 2 (leBytes 4 (0x10000#32).toNat))).jobRuns = true :=
  ⟨now_of (by decide +kernel), by decide +kernel⟩

/-! ### Witnesses: the Fixer dies -/

/-- The bytes of a table from an offset that are not zero, by key. -/
def domAt (k off : Nat) (b : Bytes) : List (Nat × Byte) :=
  ((List.range b.length).zip b).filterMap fun (x : Nat × Byte) => if x.2 = 0 then none else some (dkey k (off + x.1), x.2)

/-- Queue 0 on F0 with an admitted command; group 0 of F0 as given; lines with their plates (format, address). -/
def fixS (d : BitVec 1024) (passes : Nat) (group : Nat) (lines : List (Nat × Nat)) : State :=
  let s := jobS 1 1 []
  let s := { s with regs := s.regs.map fun (p : Nat × Nat) => if p.1 = 0x408003 then (0x408003, 0x6000) else p
                    cmds := [{ cmdR d with passes := passes }]
                    dom := domAt (okey 0xC840 1) 0 (leBytes 128 group) }
  lines.foldl (fun (s : State) (l : Nat × Nat) => match s.physLine l.2 with
    | some p => s.putPlate p (Plate.finish l.1 0 l.2 ⟨0, 0, 0, 0, 0⟩)
    | none => s) s

/-- An UPDATE of group 0 with a gradient of F32 at 32,768. -/
def updD : BitVec 1024 := BitVec.ofNat 1024 (fields [(0, 0x40), (96, 1), (128, 2), (512 + 448, 32768)])
/-- One row of 64 weights: high halves at 8,192, the moments' region at 16,384, the other side 8,192 bytes on. -/
def oneRow (rule touched : Nat) : Nat := fields [(972, 8192), (868, 16384), (828, 16384), (796, 1), (764, 64), (676, rule), (678, touched), (665, 1)]
def updLines : List (Nat × Nat) := [(4, 8192), (4, 16384), (0x10, 16512), (2, 32768), (2, 32896)]
/-- The admitted UPDATE of a kind. -/
def updC (d : BitVec 1024) (passes : Nat) : Cmd := { cmdR d with passes := passes }
theorem wit_Update_touch : let s := fixS updD 1 (oneRow 0 0) updLines
    s.running (0 : Fin 128).val (0#32).toNat opUpdate = some (updC updD 1) ∧
    ∃ gp, s.readFix (s.gradT (updC updD 1) (s.group 0 0)) (tensorLines (s.gradT (updC updD 1) (s.group 0 0))) = .ok gp :=
  ⟨by decide +kernel, ok_of (by decide +kernel)⟩
theorem wit_Update_dense : let s := fixS updD 3 (oneRow 0 0) updLines
    let c := updC updD 3
    let e := s.group (s.fixOf c) (oGroup c.desc)
    let all (t : Tensor) := s.readFix t (tensorLines t)
    s.running (0 : Fin 128).val (0#32).toNat opUpdate = some c ∧ c.passes ≠ 1 ∧ gTouched e = false ∧ gRule e = 0 ∧ SMap.get 0 c.expo 0 = 0 ∧
    (∃ u, s.updDenseRun c = .ok u) ∧ (∃ gp, all (s.gradT c e) = .ok gp) ∧ (∃ hp, all (s.hiT e (gSide e)) = .ok hp) ∧
    (∃ lp, all (s.loT e (gSide e)) = .ok lp) ∧ (∃ mp, all (s.mT e (gSide e)) = .ok mp) ∧
    s.fixWritable [s.hiT e (1 - gSide e), s.loT e (1 - gSide e), s.mT e (1 - gSide e)] = .ok () :=
  ⟨by decide +kernel, by decide, by decide +kernel, by decide +kernel, by decide, ok_of (by decide +kernel), ok_of (by decide +kernel),
    ok_of (by decide +kernel), ok_of (by decide +kernel), ok_of (by decide +kernel), unit_of (by decide +kernel)⟩
/-- An UPDATE of the row that its list at 36,864 names. -/
def rowD : BitVec 1024 := BitVec.ofNat 1024 (fields [(0, 0x40), (96, 1), (128, 2), (512 + 448, 32768), (512 + 396, 36864), (512 + 364, 1)])
set_option maxRecDepth 100000 in
theorem wit_Update_rows : let s := fixS rowD 3 (oneRow 2 1) ((2, 36864) :: (2, 16640) :: updLines)
    let c := updC rowD 3
    s.running (0 : Fin 128).val (0#32).toNat opUpdate = some c ∧ c.passes ≠ 1 ∧ gTouched (s.group (s.fixOf c) (oGroup c.desc)) = true ∧
    (∃ u, s.updRowsRun c = .ok u) ∧ ∃ rows, s.rowList c.desc = .ok rows :=
  ⟨by decide +kernel, by decide, by decide +kernel, ok_of (by decide +kernel), ok_of (by decide +kernel)⟩
theorem error_of {α β : Type} {e : Except α β} (h : okB e = false) : ∃ x, e = .error x := by
  cases e with
  | error x => exact ⟨x, rfl⟩
  | ok _ => cases h
theorem wit_Update_memory : let s := fixS updD 1 (oneRow 0 0) []
    s.running (0 : Fin 128).val (0#32).toNat opUpdate = some (updC updD 1) ∧ ∃ b, s.touchRun (updC updD 1) = .error b :=
  ⟨by decide +kernel, error_of (by decide +kernel)⟩

/-- A VERDICT of step 1 on F0. -/
def verD : BitVec 1024 := BitVec.ofNat 1024 (fields [(0, 0x41), (96, 1), (64, 1)])
/-- The die has applied group 0 in step 1; the SAVE in progress as given. -/
def verS (kind : Nat) (save : Option Save) (holds : List HeldRow) : State :=
  let s := fixS verD kind (oneRow 0 0) []
  s.setFixer 0 { FixSt.fresh with applied := [(0, 0, 1)], save := save, holds := holds }
theorem wit_Verdict_commit : let s := verS vPass none []
    let c := updC verD vPass
    let f := s.fixOf c
    s.running (0 : Fin 128).val (0#32).toNat opVerdict = some c ∧ c.passes = vPass ∧ s.verdictWaits f = false ∧ (s.fixer f).freezes = [] ∧
    (∀ x ∈ s.cmds, dOpcode x.desc = opUpdate → s.qDie x.q ≠ Die.ofIx (48 + f)) ∧
    ((s.fixer f).applied.filter fun a => decide (a.2.2 = dStep c.desc)) = [(0, 0, dStep c.desc)] ∧
    gTouched (s.group f 0) = false ∧ gFollow (s.group f 0) = false := by decide +kernel
theorem wit_Verdict_waits : let s := verS vPass (some ⟨0, 0, 0, 0, [(0, 0)]⟩) [⟨0, 0, [], [], 0⟩]
    s.running (0 : Fin 128).val (0#32).toNat opVerdict = some (updC verD vPass) ∧ s.verdictWaits (s.fixOf (updC verD vPass)) = true := by
  decide +kernel
theorem wit_Verdict_discard : let s := verS vReplay none []
    s.running (0 : Fin 128).val (0#32).toNat opVerdict = some (updC verD vReplay) ∧ (updC verD vReplay).passes ≠ vPass := by decide +kernel

/-! ### Witnesses: slots of another module -/

/-- The header of a complete slot of step 5 by F0 of module 1 (R327). -/
def headV : Nat := 0x43504B44 * 2 ^ 480 + 5 * 2 ^ 448 + 1 * 2 ^ 404 + 2 ^ 399
/-- The header's data with its check. -/
def headD : Nat := headV + crc32c ((leBytes 64 headV).drop 4)
theorem head_data : let b := (leBytes 128 headD).take 64
    let v := leNat b
    bits v 511 480 = 0x43504B44 ∧ bits v 31 0 = crc32c (b.drop 4) ∧ bit v 399 = true ∧ bits v 415 404 = 1 ∧ bits v 403 400 = 0 ∧
      bits v 479 448 = 5 := by decide +kernel

theorem leBytes_len (n v : Nat) : (leBytes n v).length = n := by
  induction n generalizing v with
  | zero => rfl
  | succ n ih => simp [leBytes, ih]

/-- Bytes are what their number's bytes are. -/
theorem leBytes_of (bs : Bytes) : leBytes bs.length (leNat bs) = bs := by
  induction bs with
  | nil => rfl
  | cons b t ih =>
    have h1 : BitVec.ofNat 8 (b.toNat + 256 * leNat t) = b := by
      apply BitVec.eq_of_toNat_eq
      have := b.isLt
      simp only [BitVec.toNat_ofNat]
      omega
    have h2 : (b.toNat + 256 * leNat t) / 256 = leNat t := by
      have := b.isLt
      omega
    simp only [List.length_cons, leBytes, leNat, h1, h2, ih]

theorem word_of (v : Nat) (h : v < 2 ^ 32) : leNat (leBytes 4 v) = v := by
  simp only [leBytes, leNat, BitVec.toNat_ofNat]
  omega

theorem crcBit_lt (c : Nat) (h : c < 2 ^ 32) : crcBit c < 2 ^ 32 := by
  have hs : c >>> 1 < 2 ^ 32 := by rw [Nat.shiftRight_eq_div_pow]; omega
  unfold crcBit
  split
  · exact Nat.xor_lt_two_pow hs (by decide)
  · exact hs
theorem crc_lt (bs : Bytes) : crc32c bs < 2 ^ 32 := by
  have step (c : Nat) (b : Byte) (h : c < 2 ^ 32) : crcByte c b < 2 ^ 32 := by
    unfold crcByte
    repeat apply crcBit_lt
    exact Nat.xor_lt_two_pow h (by have := b.isLt; omega)
  have key (l : Bytes) : ∀ c, c < 2 ^ 32 → l.foldl crcByte c < 2 ^ 32 := by
    induction l with
    | nil => exact fun c h => h
    | cons b t ih => exact fun c h => ih _ (step c b h)
  exact Nat.xor_lt_two_pow (key bs _ (by decide)) (by decide)

/-- The bytes of a plate with data as given, for a line. -/
def plateB (fmt data addr : Nat) : Bytes := (Plate.finish fmt 0 addr ⟨data, 0, 0, 0, 0⟩).bytes
theorem plateB_len (f d a : Nat) : (plateB f d a).length = 144 := by
  simp [plateB, Plate.finish, Plate.seal, Plate.bytes, Plate.body, leBytes_len]

/-- The tag of an unexposed plate without a nugget. -/
theorem tag_of (f a : Nat) (hf : f < 64) : let t := mkTag f false 0 a
    t < 2 ^ 32 ∧ bits t 31 26 = f ∧ bit t 25 = false ∧ bits t 19 0 = bits a 26 7 := by
  have hb : bits a 26 7 < 2 ^ 20 := Nat.mod_lt _ (by decide)
  have ht : mkTag f false 0 a = f * 2 ^ 26 + bits a 26 7 := by simp [mkTag, b2n]
  simp only [ht]
  generalize bits a 26 7 = x at hb ⊢
  refine ⟨by omega, ?_, ?_, ?_⟩
  · simp only [bits, Nat.shiftRight_eq_div_pow]; omega
  · rw [bit, Nat.testBit_eq_decide_div_mod_eq]
    simp only [decide_eq_false_iff_not]
    omega
  · simp only [bits, Nat.shiftRight_eq_div_pow]; omega

/-- What reads back from the bytes of a plate. -/
theorem read_back (f d a : Nat) (hf : f < 64) : let p := Plate.ofBytes (plateB f d a) 0
    p.tag = mkTag f false 0 a ∧ p.scale = 0 ∧ p.data = leNat (leBytes 128 d) ∧ p.crc = crc32c p.body := by
  have h1 : (leBytes 128 d).length = 128 := leBytes_len _ _
  have h2 : (leBytes 8 0).length = 8 := leBytes_len _ _
  have h3 : (leBytes 4 (mkTag f false 0 a)).length = 4 := leBytes_len _ _
  have hd : leBytes 128 (leNat (leBytes 128 d)) = leBytes 128 d := by
    have := leBytes_of (leBytes 128 d)
    rwa [h1] at this
  have ht := word_of _ (tag_of f a hf).1
  have hc := word_of _ (crc_lt (leBytes 128 d ++ leBytes 8 0 ++ leBytes 4 (mkTag f false 0 a)))
  have hs : plateB f d a = leBytes 128 d ++ (leBytes 8 0 ++ (leBytes 4 (mkTag f false 0 a) ++
      leBytes 4 (crc32c (leBytes 128 d ++ leBytes 8 0 ++ leBytes 4 (mkTag f false 0 a))))) := by
    simp [plateB, Plate.finish, Plate.seal, Plate.bytes, Plate.body]
  have e1 : (plateB f d a).take 128 = leBytes 128 d := by rw [hs, List.take_left' h1]
  have e2 : (plateB f d a).drop 128 = leBytes 8 0 ++ (leBytes 4 (mkTag f false 0 a) ++
      leBytes 4 (crc32c (leBytes 128 d ++ leBytes 8 0 ++ leBytes 4 (mkTag f false 0 a)))) := by rw [hs, List.drop_left' h1]
  have e3 : (plateB f d a).drop 136 = leBytes 4 (mkTag f false 0 a) ++
      leBytes 4 (crc32c (leBytes 128 d ++ leBytes 8 0 ++ leBytes 4 (mkTag f false 0 a))) := by
    rw [show 136 = 128 + 8 by rfl, ← List.drop_drop, e2, List.drop_left' h2]
  have e4 : (plateB f d a).drop 140 =
      leBytes 4 (crc32c (leBytes 128 d ++ leBytes 8 0 ++ leBytes 4 (mkTag f false 0 a))) := by
    rw [show 140 = 136 + 4 by rfl, ← List.drop_drop, e3, List.drop_left' h3]
  have f2 : ((plateB f d a).drop 128).take 8 = leBytes 8 0 := by rw [e2, List.take_left' h2]
  have f3 : ((plateB f d a).drop 136).take 4 = leBytes 4 (mkTag f false 0 a) := by rw [e3, List.take_left' h3]
  have f4 : ((plateB f d a).drop 140).take 4 =
      leBytes 4 (crc32c (leBytes 128 d ++ leBytes 8 0 ++ leBytes 4 (mkTag f false 0 a))) := by
    rw [e4, List.take_of_length_le (Nat.le_of_eq (leBytes_len _ _))]
  have z : leNat (leBytes 8 0) = 0 := by decide
  simp only [Plate.ofBytes, Plate.body, e1, f2, f3, f4, ht, hc, hd, z, and_self]

/-- A plate so written passes its check for its line. -/
theorem plate_ok (f d a : Nat) (hf : f < 64) :
    plateCheck f (some a) 0 (Plate.ofBytes (plateB f d a) 0) = 0 := by
  obtain ⟨h1, h2, _, h4⟩ := read_back f d a hf
  obtain ⟨_, t2, t3, t4⟩ := tag_of f a hf
  unfold plateCheck
  simp only [Plate.fmt, Plate.seq, Plate.nugget, ← h4, h1, h2, t2, t3, t4]
  simp

def headB (fmt : Nat) : Bytes := plateB fmt headD 0

theorem readN_other (bs : Bytes) (m : List Host.Cell) (a j n : Nat) (h : j + n ≤ a ∨ a + bs.length ≤ j) :
    Mem.readN (Mem.writeN m a bs) j n = Mem.readN m j n := by
  induction n generalizing j with
  | zero => rfl
  | succ n ih =>
    simp only [Mem.readN]
    rw [Mem.read_writeN_other _ _ _ _ (by omega), ih (j + 1) (by omega)]

/-- A plate laid into slot 0 as the other module shows it. -/
def putPeer (peer : List Host.Cell) (off : Nat) (b : Bytes) : List Host.Cell :=
  Mem.writeN (Mem.writeN peer off (b.take 128)) (2 ^ 54 + off / 8) (b.drop 128)

theorem peer_same (peer : List Host.Cell) (off : Nat) (b : Bytes) (hb : b.length = 144) (ho : off + 128 ≤ 2 ^ 54) :
    peerPlate (putPeer peer off b) 0 off = Plate.ofBytes b 0 := by
  have h1 : Mem.readN (putPeer peer off b) off 128 = b.take 128 := by
    unfold putPeer
    rw [readN_other _ _ _ _ _ (by left; omega)]
    have := Mem.readN_writeN (b.take 128) peer off
    rwa [List.length_take, hb] at this
  have h2 : Mem.readN (putPeer peer off b) (2 ^ 54 + off / 8) 16 = b.drop 128 := by
    have := Mem.readN_writeN (b.drop 128) (Mem.writeN peer off (b.take 128)) (2 ^ 54 + off / 8)
    rwa [List.length_drop, hb] at this
  unfold peerPlate
  simp only [Nat.zero_mul, Nat.zero_add, Nat.add_zero]
  rw [h1, h2, List.take_append_drop]

theorem peer_other (peer : List Host.Cell) (off j : Nat) (b : Bytes) (hb : b.length = 144) (ho : off + 128 ≤ 2 ^ 54) (hj : j + 128 ≤ 2 ^ 54)
    (h : j + 128 ≤ off ∨ off + 128 ≤ j) : peerPlate (putPeer peer off b) 0 j = peerPlate peer 0 j := by
  unfold peerPlate putPeer
  simp only [Nat.zero_mul, Nat.zero_add, Nat.add_zero]
  have l1 : (b.take 128).length = 128 := by simp [hb]
  have l2 : (b.drop 128).length = 16 := by simp [hb]
  rw [readN_other _ _ _ j 128 (by left; omega), readN_other _ _ _ j 128 (by omega),
    readN_other _ _ _ (2 ^ 54 + j / 8) 16 (by omega), readN_other _ _ _ (2 ^ 54 + j / 8) 16 (by right; omega)]

theorem head_of (peer : List Host.Cell) (h : peerPlate peer 0 0 = Plate.ofBytes (headB (Config.sectionFormat 0 % 64)) 0) :
    peerBase peer 0 = 0 ∧ peerHeader peer 0 1 0 = some 5 := by
  have hf : Config.sectionFormat 0 % 64 < 64 := Nat.mod_lt _ (by decide)
  have hb : peerBase peer 0 = 0 := by
    unfold peerBase
    rw [h, Plate.seq, headB, (read_back _ _ _ hf).1, (tag_of _ _ hf).2.2.2]
    decide
  have hc : plateCheck (Config.sectionFormat 0 % 64) (some (0 + 0)) 0 (peerPlate peer 0 0) = 0 := by rw [h]; exact plate_ok _ _ _ hf
  have hd : leBytes 128 (peerPlate peer 0 0).data = leBytes 128 headD := by
    rw [h, headB, (read_back _ _ _ hf).2.2.1]
    have := leBytes_of (leBytes 128 headD)
    rwa [leBytes_len] at this
  refine ⟨hb, ?_⟩
  obtain ⟨h1, h2, h3, h4, h5, h6⟩ := head_data
  unfold peerHeader peerLines
  simp only [List.foldlM, bind, Except.bind, hb, hc, pure, Except.pure, List.nil_append, List.map_cons, List.map_nil, List.headD_cons, hd]
  rw [if_pos ⟨h1, h2, h3, h4, h5⟩, h6]

theorem foldlM_ok {α β ε : Type} (f : List β → α → Except ε (List β)) (g : α → β) (l : List α) (acc : List β)
    (h : ∀ x ∈ l, ∀ acc, f acc x = .ok (acc ++ [g x])) : l.foldlM f acc = .ok (acc ++ l.map g) := by
  induction l generalizing acc with
  | nil => simp [pure, Except.pure]
  | cons o l ih =>
    simp only [List.foldlM, bind, Except.bind, h o (by simp)]
    rw [ih _ fun x hx => h x (by simp [hx])]
    simp
theorem peerLines_ok (peer : List Host.Cell) (k fmt : Nat) (l : List Nat)
    (h : ∀ o ∈ l, plateCheck fmt (some (peerBase peer k + o)) 0 (peerPlate peer k o) = 0) :
    peerLines peer k fmt l = .ok (l.map fun o => (o, peerPlate peer k o)) := by
  unfold peerLines
  rw [← List.nil_append (l.map fun o => (o, peerPlate peer k o))]
  exact foldlM_ok _ _ _ _ fun o ho acc => by simp only [h o ho]

def secF (k : Nat) : Nat := Config.sectionFormat k % 64
/-- A slot with its header alone. -/
def peerHead : List Host.Cell := putPeer [] 0 (headB (secF 0))
theorem headB_len (f : Nat) : (headB f).length = 144 := plateB_len _ _ _
theorem secF_lt (k : Nat) : secF k < 64 := Nat.mod_lt _ (by decide)
theorem head_ok : peerHeader peerHead 0 1 0 = some 5 := (head_of _ (peer_same _ _ _ (headB_len _) (by decide))).2

/-- The slot with `n` plates of an empty module section. -/
def peerSec : Nat → List Host.Cell
  | 0 => peerHead
  | n + 1 => putPeer (peerSec n) (0x90000 + 128 * n) (plateB (secF 2) 0 (0x90000 + 128 * n))
theorem peerSec_reads (n : Nat) (hn : n ≤ 3584) : peerPlate (peerSec n) 0 0 = Plate.ofBytes (headB (secF 0)) 0 ∧
    ∀ j, j < n → peerPlate (peerSec n) 0 (0x90000 + 128 * j) = Plate.ofBytes (plateB (secF 2) 0 (0x90000 + 128 * j)) 0 := by
  induction n with
  | zero => exact ⟨peer_same _ _ _ (headB_len _) (by decide), fun j hj => by omega⟩
  | succ n ih =>
    obtain ⟨h1, h2⟩ := ih (by omega)
    refine ⟨?_, fun j hj => ?_⟩
    · rw [peerSec, peer_other _ _ _ _ (plateB_len _ _ _) (by omega) (by omega) (by left; omega), h1]
    · by_cases he : j = n
      · subst he; exact peer_same _ _ _ (plateB_len _ _ _) (by omega)
      · rw [peerSec, peer_other _ _ _ _ (plateB_len _ _ _) (by omega) (by omega) (by left; omega)]
        exact h2 j (by omega)
theorem section_ok : ∃ sec, peerSection (peerSec 3584) 0 = .ok sec := by
  unfold peerSection
  rw [peerLines_ok]
  · exact ⟨_, rfl⟩
  · intro o ho
    obtain ⟨j, hj, rfl⟩ := List.mem_map.mp ho
    obtain ⟨h0, h⟩ := peerSec_reads 3584 (Nat.le_refl _)
    rw [(head_of _ h0).1, h j (List.mem_range.mp hj), Nat.zero_add]
    exact plate_ok _ _ _ (secF_lt 2)

/-- The commands of chapter 11: a SAVE, a RESTORE_GROUP of no rows, a RESTORE_MODULE, a CONTACT_SHEET of group 0. -/
def ckD (f : Nat) : BitVec 1024 := BitVec.ofNat 1024 (fields [(0, 0x48), (96, 1), (64, 5), (512 + 504, f), (512 + 502, 1), (512 + 490, 1)])
def sheetD : BitVec 1024 := BitVec.ofNat 1024 (fields [(0, 0x49), (96, 1), (512 + 504, 1), (512 + 414, 1)])

theorem peerSlot_one (peer : List Host.Cell) (f : Nat) (h : peerHeader peer 0 1 0 = some 5) (hf : f < 4) : peerSlot peer (ckD f) = some 0 := by
  have e : ∀ f < 4, oSlotSel (ckD f) = 1 ∧ oSrcModule (ckD f) = 1 ∧ oSrcFixer (ckD f) = 0 := by decide +kernel
  obtain ⟨e1, e2, e3⟩ := e f hf
  simp [peerSlot, e1, e2, e3, h]

theorem wit_RestoreModule : let s := fixS (ckD 3) 0 (2 ^ 665) []
    s.running (0 : Fin 128).val (0#32).toNat opCheckpoint = some (updC (ckD 3) 0) ∧ oCkFunc (ckD 3) = 3 ∧ s.step.worked = false ∧
    peerSlot (peerSec 3584) (ckD 3) = some 0 ∧ ∃ sec, peerSection (peerSec 3584) 0 = .ok sec :=
  ⟨by decide +kernel, by decide +kernel, by decide, peerSlot_one _ _ (head_of _ (peerSec_reads 3584 (Nat.le_refl _)).1).2 (by decide), section_ok⟩

/-- A slot with its header and entry 0 of its group table. -/
def peerTab (e : Nat) : List Host.Cell := putPeer peerHead 0x1000 (plateB (secF 1) e 0x1000)
theorem peerTab_head (e : Nat) : peerBase (peerTab e) 0 = 0 ∧ peerHeader (peerTab e) 0 1 0 = some 5 :=
  head_of _ ((peer_other _ _ _ _ (plateB_len _ _ _) (by decide) (by decide) (by left; decide)).trans (peer_same _ _ _ (headB_len _) (by decide)))
theorem table_read (e : Nat) (he : leNat (leBytes 128 e) = e) : ∃ tab, peerTable (peerTab e) 0 0 = .ok tab ∧ tab 0 = e := by
  have hp : peerPlate (peerTab e) 0 (0x1000 + 128 * 0) = Plate.ofBytes (plateB (secF 1) e 0x1000) 0 :=
    peer_same _ _ _ (plateB_len _ _ _) (by decide)
  unfold peerTable
  rw [peerLines_ok]
  · refine ⟨_, rfl, ?_⟩
    show (SMap.get Plate.empty [(0x1000 + 128 * 0, peerPlate (peerTab e) 0 (0x1000 + 128 * 0))] (0x1000 + 128 * 0)).data = e
    rw [hp]
    exact (read_back _ _ _ (secF_lt 1)).2.2.1.trans he
  · intro o ho
    obtain ⟨j, hj, rfl⟩ := List.mem_map.mp ho
    have : j = 0 := by simpa using hj
    subst this
    rw [hp, (peerTab_head e).1]
    exact plate_ok _ _ _ (secF_lt 1)

/-- The group table entry that is enabled and nothing else. -/
def onE : Nat := 2 ^ 665
theorem onE_facts : gRule onE = 0 ∧ gTouched onE = false ∧ gSide onE = 0 ∧ gRows onE = 0 ∧ gFollow onE = false ∧ gCopyFmt onE = 0 := by
  decide +kernel
theorem restore_rows (tab : Nat → Nat) : ∃ u, (fixS (ckD 2) 0 onE []).restoreRows (updC (ckD 2) 0) (peerTab onE) 0 tab = .ok u := by
  have e1 : oRows48 (ckD 2) = 0 := by decide +kernel
  have e2 : (fixS (ckD 2) 0 onE []).group ((fixS (ckD 2) 0 onE []).fixOf (updC (ckD 2) 0)) (oDstGroup (ckD 2)) = onE := by decide +kernel
  have hc : (updC (ckD 2) 0).desc = ckD 2 := rfl
  obtain ⟨h1, h2, h3, h4, h5, h6⟩ := onE_facts
  generalize hs : fixS (ckD 2) 0 onE [] = s at *
  have hr (f base cols : Nat) : tensorLines (s.fixTensor f base 0 cols) = [] := by
    unfold tensorLines State.fixTensor
    by_cases hf : isSquare f = true <;> simp [hf, problemSpan, ceilDiv]
  unfold State.restoreRows
  simp only [hc, e2, e1]
  generalize peerTab onE = p at *
  generalize onE = E at *
  have e3 (s : State) : s.copyFmt E = 0 := by simp [State.copyFmt, h5, h6]
  unfold State.groupParts State.groupWords State.restorePart State.reformRows
  simp [h1, h2, h3, h4, e3, rowPairs, peerLines, State.fixWritable, State.writeFault, pure, Except.pure, bind, Except.bind, State.readFix, State.readLines, State.hiT, State.loT, State.mT, hr]
theorem wit_RestoreGroup : let s := fixS (ckD 2) 0 onE []
    let c := updC (ckD 2) 0
    s.running (0 : Fin 128).val (0#32).toNat opCheckpoint = some c ∧ oCkFunc c.desc = 2 ∧ s.step.worked = false ∧
    ∃ tab u, peerSlot (peerTab onE) c.desc = some 0 ∧ peerTable (peerTab onE) 0 (oSrcGroup c.desc) = .ok tab ∧
      restoreFits c.desc (tab (oSrcGroup c.desc)) (s.group (s.fixOf c) (oDstGroup c.desc)) = true ∧
      s.restoreRows c (peerTab onE) 0 tab = .ok u := by
  obtain ⟨tab, ht, h0⟩ := table_read onE (by decide +kernel)
  obtain ⟨u, hu⟩ := restore_rows tab
  have hf : restoreFits (ckD 2) onE ((fixS (ckD 2) 0 onE []).group ((fixS (ckD 2) 0 onE []).fixOf (updC (ckD 2) 0)) (oDstGroup (ckD 2))) = true := by
    decide +kernel
  have hg : oSrcGroup (updC (ckD 2) 0).desc = 0 := by decide +kernel
  refine ⟨by decide +kernel, by decide +kernel, by decide, tab, u, peerSlot_one _ 2 (peerTab_head _).2 (by decide), ?_, ?_, hu⟩
  · rw [hg]; exact ht
  · rw [hg, h0]; exact hf
theorem wit_RestoreGroup_refused : let s := { fixS (ckD 2) 0 onE [] with step := { (fixS (ckD 2) 0 onE []).step with worked := true } }
    s.running (127 - 127 : Fin 128).val (0#32).toNat opCheckpoint = some (updC (ckD 2) 0) ∧ oCkFunc (ckD 2) = 2 ∧ s.step.worked = true := by
  decide +kernel

theorem wit_ContactSheet : let s := fixS sheetD 0 0 []
    let c := updC sheetD 0
    s.running (0 : Fin 128).val (0#32).toNat opSheet = some c ∧
    ∃ tab u, peerTable (peerTab 0) c.passes (oFirstGroup c.desc + oGroupCount c.desc - 1) = .ok tab ∧
      s.sheetRun c (peerTab 0) c.passes tab = .ok u := by
  obtain ⟨tab, ht, h0⟩ := table_read 0 (by decide +kernel)
  have e1 : oGroupCount (updC sheetD 0).desc = 1 := by decide +kernel
  have e2 : oFirstGroup (updC sheetD 0).desc = 0 := by decide +kernel
  have e3 : oForm (updC sheetD 0).desc = 1 := by decide +kernel
  refine ⟨by decide +kernel, tab, ?_⟩
  have hr (s : State) (f base cols : Nat) : tensorLines (s.fixTensor f base 0 cols) = [] := by
    unfold tensorLines State.fixTensor
    by_cases hf : isSquare f = true <;> simp [hf, problemSpan, ceilDiv]
  have hg : gRows 0 = 0 ∧ gCols 0 = 0 := by decide +kernel
  have hrun : ∃ u, (fixS sheetD 0 0 []).sheetRun (updC sheetD 0) (peerTab 0) 0 tab = .ok u := by
    generalize fixS sheetD 0 0 [] = s
    unfold State.sheetRun State.sheetGroup
    simp [e1, e2, e3, h0, hg, hr, peerLines, List.range_succ, pure, Except.pure, bind, Except.bind]
  obtain ⟨u, hu⟩ := hrun
  exact ⟨u, by rw [e1, e2]; exact ht, hu⟩

/-- A SAVE of step 5 in progress that bound no group; route of module 0 through port 0, which is up. -/
def saveS : State :=
  let s := fixS (ckD 1) 0 0 []
  let s := s.setFixer 0 { FixSt.fresh with save := some ⟨1, 5, 0, 0, []⟩, newImage := some ⟨7, 0, false, false, true, true, [(4, [1])]⟩ }
  { s with dom := [(dkey 0x511001 0, 1#8)], regs := SMap.put s.regs (portObj 0 0x41) 2 }
theorem wit_Save : saveS.running (0 : Fin 128).val (0#32).toNat opCheckpoint = some (updC (ckD 1) 0) ∧ oCkFunc (ckD 1) = 1 ∧
    (saveS.fixer (saveS.fixOf (updC (ckD 1) 0))).save = some ⟨1, 5, 0, 0, []⟩ ∧
    saveS.routeUsable (kModule (saveS.ckptEntry (saveS.fixOf (updC (ckD 1) 0)))) = true ∧ 5 < 2 ^ 32 := by decide +kernel
theorem wit_Save_unacked : saveS.running (0 : Fin 128).val (0#32).toNat opCheckpoint = some (updC (ckD 1) 0) ∧ (false = false) := by decide +kernel
theorem wit_Save_whole : (saveS.savedGroups (saveS.fixer 0) (saveS.group 0) 1 []).2.2 = none := rfl
/-- A SAVE whose one group's weights stand in no page. -/
theorem wit_Save_unread : ((fixS (ckD 1) 0 (oneRow 0 0) []).savedGroups FixSt.fresh (fun _ => oneRow 0 0) 1 [(0, 0)]).2.2 ≠ none := by
  decide +kernel
theorem wit_CkptTimeout : (saveS.fixer (0 : Fin 16).val).save = some ⟨1, 5, 0, 0, []⟩ ∧ saveS.cmd? 0 0 = some (updC (ckD 1) 0) := by decide +kernel
theorem wit_FixerImage : let im : ImageCopy := ⟨7, 0, false, false, true, true, [(4, [1])]⟩
    (saveS.fixer (0 : Fin 16).val).newImage = some im ∧ (im.parts.find? fun p => decide (p.1 = 4)) = some (4, [1]) := by decide +kernel

/-! ### Witnesses: Drift links, the host port and clocks -/

/-- Port 0 is in a state, its own fields as given; modules 0 and 1 are reached through port 0. -/
def netS (st : Nat) (x : PortSt) : State :=
  let s := jobS 0 0 []
  { s with regs := SMap.put s.regs (portKey 0) st, ports := [(0, x)], dom := [(dkey 0x511001 0, 1#8), (dkey 0x511001 8, 1#8)] }
/-- A frame that decodes, with its LINK_GEN and sequence number. -/
def frameOfGen (gen : BitVec 4) (seq : BitVec 16) : Frame := ⟨true, true, gen, seq, 0, false, 0, false, false, 5, 6, []⟩
theorem wit_Frames_down : (netS 0 PortSt.fresh).portUp (0 : Fin 64).val = false := by decide +kernel
theorem wit_Frames_stale : (frameOfGen 1 0).decoded = true ∧ (frameOfGen 1 0).checkOk = true ∧
    (frameOfGen 1 0).linkGen ≠ ((netS 2 PortSt.fresh).port (0 : Fin 64).val).linkGen := by decide +kernel
theorem wit_Frames_nak : (netS 2 PortSt.fresh).portUp (0 : Fin 64).val = true ∧
    ¬ ({ frameOfGen 0 0 with decoded := false }.decoded = true ∧ { frameOfGen 0 0 with decoded := false }.checkOk = true) := by decide +kernel
theorem wit_Frames_gap : (netS 3 PortSt.fresh).portUp (0 : Fin 64).val = true ∧
    (frameOfGen 0 1).linkGen = ((netS 3 PortSt.fresh).port (0 : Fin 64).val).linkGen ∧ (frameOfGen 0 1).idle = false ∧
    (frameOfGen 0 1).seq ≠ ((netS 3 PortSt.fresh).port (0 : Fin 64).val).rxNext := by decide +kernel
theorem wit_Frames_next :
    let s := netS 2 { PortSt.fresh with unacked := 2 }
    let f := { frameOfGen 0 0 with ackSeq := 2 }
    s.portUp (0 : Fin 64).val = true ∧ f.decoded = true ∧ f.checkOk = true ∧ f.linkGen = (s.port 0).linkGen ∧ f.seq = (s.port 0).rxNext ∧
      f.swapReq = false ∧ f.nak = false ∧ 0 < (f.ackSeq - (s.port 0).ackSeq).toNat ∧ (f.ackSeq - (s.port 0).ackSeq).toNat ≤ (s.port 0).unacked := by
  decide +kernel
/-- A message to a module. -/
def msgTo (dest kind : Nat) (addr : Nat) : DriftMsg := ⟨BitVec.ofNat 12 dest, 1, 1, 0, BitVec.ofNat 2 kind, BitVec.ofNat 52 addr, 0, 0, 0⟩
/-- A reply to the read of context 1 comes in on port 0 and fails its check. -/
def replyS : State :=
  { netS 2 { PortSt.fresh with opens := [(1, { msgTo 0 1 0 with requestId := BitVec.ofNat 32 (2 ^ 29 + 3 * 2 ^ 16) }, [])] } with
    ctxs := [(1, lineCtx 1 0)], cmds := [replyCmd], eng := (remoteS false).eng }
def badFrame : Frame := { frameOfGen 0 0 with slots := [⟨1, 0, List.replicate 144 0⟩] }
theorem wit_Frames_bad : replyS.portUp (0 : Fin 64).val = true ∧ badFrame.decoded = true ∧ badFrame.checkOk = true ∧
    badFrame.linkGen = (replyS.port 0).linkGen ∧ badFrame.idle = false ∧ badFrame.seq = (replyS.port 0).rxNext ∧
    replyS.frameFaults 0 badFrame ≠ [] ∧ frameOfRx (.aligned badFrame) = badFrame := by decide +kernel
theorem wit_Frames_good : (netS 2 { PortSt.fresh with unacked := 2 }).frameFaults 0 { frameOfGen 0 0 with ackSeq := 2 } = [] := by
  decide +kernel
theorem wit_Replay (n : Nat) (hn : n = 6 ∨ n = 7) : (netS 2 { PortSt.fresh with unacked := 1, replayRun := n }).portUp (0 : Fin 64).val = true ∧
    0 < ((netS 2 { PortSt.fresh with unacked := 1, replayRun := n }).port (0 : Fin 64).val).unacked ∧
    ((netS 2 { PortSt.fresh with unacked := 1, replayRun := n }).port (0 : Fin 64).val).replayRun = n := by
  rcases hn with rfl | rfl <;> decide +kernel
theorem wit_Replay_none : ((netS 2 PortSt.fresh).port (0 : Fin 64).val).unacked = 0 := by decide +kernel
theorem wit_Qualification : (netS 1 PortSt.fresh).portState (0 : Fin 64).val = 1 ∧ (netS 1 PortSt.fresh).fenced (portDie (0 : Fin 64).val) = false := by
  decide +kernel
theorem wit_LaneSwap : WritesNow (netS 2 PortSt.fresh) (box 0 0 []) 0x5130 2 (leBytes 2 (7#16).toNat) ∧
    let u := atService (netS 2 PortSt.fresh) 2 false (aim (box 0 0 []) 0x5130 2 (leBytes 2 (7#16).toNat))
    u.portState (bits (7#16).toNat 8 3) = 2 ∧ (u.port (bits (7#16).toNat 8 3)).spareBad = false := ⟨now_of (by decide +kernel), by decide +kernel⟩
theorem wit_LaneSwap_again : (netS 3 PortSt.fresh).portState (bits (7#16).toNat 8 3) = 3 := by decide +kernel
theorem wit_LaneSwap_down : WritesNow (up []) (box 0 0 []) 0x5130 2 (leBytes 2 (0x1FF#16).toNat) ∧
    (up []).portUp (bits (0x1FF#16).toNat 8 3) = false := ⟨now_of (by decide +kernel), by decide +kernel⟩
theorem wit_Requalify : WritesNow (up []) (box 0 0 []) 0x5130 1 [63] := now_of (by decide +kernel)

theorem wit_ReadReq :
    let s := netS 2 PortSt.fresh
    let m := msgTo 0 0 128
    s.portUp (0 : Fin 64).val = true ∧ m.dest.toNat = s.moduleId ∧ s.routePort m.src.toNat m.requestId.toNat s.moduleId = some 0 ∧
      (∀ a ∈ msgLines m, s.access a false = .served) ∧ (msgLines m).find? s.lineBad = none := by decide +kernel
theorem wit_ReadReq_bad :
    let s := { netS 2 PortSt.fresh with page := { (netS 2 PortSt.fresh).page with ue := [128] } }
    (∀ a ∈ msgLines (msgTo 0 0 128), s.access a false = .served) ∧ (msgLines (msgTo 0 0 128)).find? s.lineBad = some 128 := by decide +kernel
theorem wit_ReadReq_absent : (netS 2 PortSt.fresh).access (msgTo 0 0 0x200000).address.toNat false = .noBacking := by decide +kernel
theorem wit_Forward :
    let s := netS 2 PortSt.fresh
    (msgTo 1 2 0).dest.toNat ≠ s.moduleId ∧ (msgTo 1 2 0).kind = 2 ∧
      s.routePort (msgTo 1 2 0).dest.toNat (msgTo 1 2 0).requestId.toNat (msgTo 1 2 0).src.toNat = some 0 := by decide +kernel
/-- The bytes of an X8 plate of zeros for line 0, with its epoch. -/
def x8B (epoch : Nat) : Bytes := (Plate.finish 0x16 epoch 0 ⟨0, 0, 0, 0, 0⟩).bytes
theorem wit_Data_stored :
    let s := netS 2 PortSt.fresh
    let m := msgTo 0 0 0
    m.kind = 0 ∧ m.countM1 = 0 ∧ 0 < m.label.toNat ∧ m.label.toNat < 2047 ∧ s.stale (Plate.ofBytes (x8B 0) 0) = false ∧
      s.access m.address.toNat true = .served ∧ s.physLine m.address.toNat = some ⟨0, frameMargin 0 0 0, frameNugget 0 0 0⟩ := by decide +kernel
theorem wit_Data_unowned (a : Nat) : (netS 2 PortSt.fresh).reduceAt a = none := by
  have hb (d k i : Nat) (hd : d < 16) : (netS 2 PortSt.fresh).domByte (okey (0xC000 + 0x80 * d + 0x40) 1) (32 * k + i) = 0 := by
    have : (netS 2 PortSt.fresh).dom = [(dkey 0x511001 0, 1#8), (dkey 0x511001 8, 1#8)] := rfl
    unfold State.domByte domDefault
    rw [this]
    have h1 : dkey (okey (0xC000 + 0x80 * d + 0x40) 1) (32 * k + i) ≠ dkey 0x511001 0 := by simp only [dkey, okey]; omega
    have h2 : dkey (okey (0xC000 + 0x80 * d + 0x40) 1) (32 * k + i) ≠ dkey 0x511001 8 := by simp only [dkey, okey]; omega
    have h3 : okey (0xC000 + 0x80 * d + 0x40) 1 ≠ 0x315001 ∧ okey (0xC000 + 0x80 * d + 0x40) 1 ≠ 0x601001 := by simp only [okey]; omega
    simp [SMap.get?, h1, h2, h3]
  have he (d k : Nat) (hd : d < 16) : (netS 2 PortSt.fresh).redEntry d k = 0 := by
    unfold State.redEntry State.domNat State.domBytes
    simp only [hb d k _ hd]
    decide
  unfold State.reduceAt
  rw [List.findSome?_eq_none_iff]
  intro d hd
  rw [List.findSome?_eq_none_iff]
  intro k _
  rw [he d k (List.mem_range.mp hd)]
  have : rEnabled 0 = false := by decide
  simp [this]
theorem wit_Data_checked (e : Nat) (he : e = 0 ∨ e = 31) : (netS 2 PortSt.fresh).arrivalFault (msgTo 0 0 0) 0 (x8B e) = none := by
  have h : plateCheck (Plate.ofBytes (x8B e) 0).fmt none 0 (Plate.ofBytes (x8B e) 0) = 0 := by rcases he with rfl | rfl <;> decide +kernel
  have hd : (msgTo 0 0 0).dest.toNat = (netS 2 PortSt.fresh).moduleId := by decide +kernel
  unfold State.arrivalFault
  simp only [wit_Data_unowned, h, hd]
  rfl
/-- Entry 0 of D0 is enabled over line 0. -/
def redS : State :=
  let table := domAt (okey 0xC040 1) 0 (leBytes 32 (fields [(188, 1), (150, 1)]))
  { netS 2 PortSt.fresh with dom := (dkey 0x511001 0, 1#8) :: (dkey 0x511001 8, 1#8) :: table }
theorem wit_Data_reduced : redS.stale (Plate.ofBytes (x8B 0) 0) = false ∧ redS.reduceAt (msgTo 0 0 0).address.toNat = some (0, 0) ∧
    redS.arrivalFault (msgTo 0 0 0) 0 (x8B 0) = none ∧ redS.fenced (Die.ofIx (32 + 0)) = false ∧ redS.failedUnits (Die.ofIx (32 + 0)) 5 = [] ∧
    plateCheck (if rGrad (redS.redEntry 0 0) then 0x17 else 0x16) (some (msgTo 0 0 0).address.toNat) 0 (Plate.ofBytes (x8B 0) 0) = 0 := by
  decide +kernel
theorem wit_Data_stale : (netS 2 PortSt.fresh).stale (Plate.ofBytes (x8B 31) 0) = true ∧ (netS 2 PortSt.fresh).stale (Plate.ofBytes (x8B 24) 0) = true := by
  decide +kernel
theorem wit_Rider : (msgTo 0 2 0).dest.toNat = (netS 2 PortSt.fresh).moduleId ∧ (msgTo 0 2 0).kind = 2 := by decide +kernel

/-- A message about tag 0 of T0's shaft 0, with a reuse count. -/
def ctxMsg (reuse kind : Nat) : DriftMsg := { msgTo 0 kind 0 with requestId := BitVec.ofNat 32 (2 ^ 29 + reuse * 2 ^ 16) }
theorem wit_Ack_other : (ctxMsg 1 0).dest.toNat = (remoteS true).moduleId ∧ bits (ctxMsg 1 0).requestId.toNat 31 29 = 1 ∧
    (remoteS true).tagOf (ctxMsg 1 0).requestId.toNat = none := by decide +kernel
theorem wit_Ack (write : Bool) : bits (ctxMsg 3 0).requestId.toNat 31 29 = 1 ∧
    (remoteS write).tagOf (ctxMsg 3 0).requestId.toNat = some (streamKey 1, 0, ⟨1, 8192, write, true, none⟩) ∧
    (remoteS write).userOf 1 = some replyCmd ∧ replyCmd.phase ≠ .done := by cases write <;> decide +kernel
/-- A REFUSE that names F0's SAVE. -/
def saveMsg : DriftMsg := { msgTo 0 0 0 with requestId := BitVec.ofNat 32 (3 * 2 ^ 29) }
theorem wit_Refuse_save : saveMsg.dest.toNat = saveS.moduleId ∧ bits saveMsg.requestId.toNat 31 29 = 3 ∧
    (saveS.fixer (bits saveMsg.requestId.toNat 28 24 % 16)).save = some ⟨1, 5, 0, 0, []⟩ := by decide +kernel

/-- Muster 0 in a job: its table entry and its round. -/
def musS (e : Nat) (x : Muster) : State := { jobS 0 0 [] with dom := domAt 0x401001 0 (leBytes 8 e), mus := [(0, x)] }
/-- An entry: root, immediate. -/
def musE (root imm : Nat) : Nat := fields [(52, 2), (40, root), (35, imm), (34, 1), (16, 1)]
theorem wit_MusterPart :
    let s := musS (musE 0 0) Muster.fresh
    let m := msgTo 0 0 0
    m.dest.toNat = s.moduleId ∧ mEnabled (s.mEntry m.muster.toNat) = true ∧ mRoot (s.mEntry m.muster.toNat) = s.moduleId ∧
      (s.mst m.muster.toNat).round = m.round.toNat ∧ (s.mst m.muster.toNat).complete = none ∧ s.jobRuns = true ∧
      mImmediate (s.mEntry m.muster.toNat) = false ∧ memN m.src.toNat (s.mst m.muster.toNat).parts = false := by decide +kernel
theorem wit_MusterRelease (imm : Nat) (hi : imm = 0 ∨ imm = 1) :
    let s := musS (musE 1 imm) { Muster.fresh with partDone := true }
    let m := msgTo 0 0 0
    m.dest.toNat = s.moduleId ∧ mEnabled (s.mEntry m.muster.toNat) = true ∧ mRoot (s.mEntry m.muster.toNat) ≠ s.moduleId ∧
      (s.mst m.muster.toNat).round = m.round.toNat ∧ (s.mst m.muster.toNat).partDone = true ∧ s.jobRuns = true ∧
      mImmediate (s.mEntry m.muster.toNat) = decide (imm = 1) ∧ s.isStep m.muster.toNat = false ∧ (s.mst m.muster.toNat).held = [] ∧
      0 < mExpected (s.mEntry m.muster.toNat) := by rcases hi with rfl | rfl <;> decide +kernel
theorem wit_Muster_round : ((musS (musE 0 0) Muster.fresh).mst (msgTo 0 0 0).muster.toNat).round ≠ ({ msgTo 0 0 0 with round := 1 } : DriftMsg).round.toNat ∧
    mRoot ((musS (musE 0 0) Muster.fresh).mEntry 0) = (musS (musE 0 0) Muster.fresh).moduleId := by decide +kernel

theorem wit_HostProtocols : (up []).hostUp = true ∧ (up []).serves = true := by decide +kernel
theorem wit_ClockSelect : ∃ o, Writes (up [(0x580001, 0)]) { (up [(0x580001, 0)]).plainEnv with steady := true } (aim (box 0 0 []) 0x5800 3 [1]) o ∧ o.acc ≠ .rwt := by
  have h : let s := up [(0x580001, 0)]
      let m := aim (box 0 0 []) 0x5800 3 [1]
      heardB s 2 false m = true ∧ (match (atService s 2 false m).find m.index.toNat m.sub.toNat with
        | .ok o => decide (o.ty ≠ .domain) && decide (o.acc ≠ .rwt) &&
          decide ((atService s 2 false m).checkScalar true m o (okey m.index.toNat m.sub.toNat) m.payload = abOk)
        | .error _ => false) = true := by decide +kernel
  obtain ⟨h1, h2⟩ := h
  split at h2
  · rename_i o ho
    simp only [Bool.and_eq_true, decide_eq_true_eq] at h2
    exact ⟨o, ⟨heard_of h1, ho, h2.1.1, h2.2⟩, h2.1.2⟩
  · cases h2
theorem wit_EdgeMissed : (up []).serves = true := by decide +kernel

/-! ### Witnesses: boundaries, power and stops -/

/-- A tick in which nothing is silent and nothing fails. -/
def env0 : TickEnv := ⟨[], 0, 0, [], [], [], [], 0, none, [], [], (0, 0), 0, [], [], [], []⟩
/-- One write waits for the boundary. -/
def waitS (k : Nat) (v : Bytes) : State := { up [] with dict := { (up []).dict with rwt := [⟨k, v, false⟩] } }
theorem wit_Boundaries_before : State.reset.serves = false := by decide
theorem wit_Boundaries_tick : (up []).serves = true ∧ ∀ w ∈ (up []).dict.rwt, w.key ≠ okey 0x5000 6 := by decide +kernel
theorem wit_Boundaries_publish : let x : Sub := ⟨.iltur 1 9000, 1, [0x500006]⟩
    x.path ≠ .mailbox ∧ 0 < x.period ∧ (∀ n, n % x.period = 0) ∧ ∀ y ∈ [x], y.path = x.path → y = x :=
  ⟨by decide, by decide, fun n => Nat.mod_one n, by decide⟩
theorem wit_Boundaries_job (b : Byte) : (waitS (okey 0x7002 1) [b]).serves = true ∧
    (waitS (okey 0x7002 1) [b]).dict.rwt = [⟨okey 0x7002 1, [b], false⟩] := ⟨by rfl, rfl⟩
theorem wit_Boundaries_written : (waitS (okey 0x9110 4) [0xFF]).serves = true ∧ okey 0x9110 4 ∈ [okey 0x3110 1, okey 0x9110 4] ∧
    (waitS (okey 0x9110 4) [0xFF]).dict.rwt = [⟨okey 0x9110 4, [0xFF], false⟩] := by decide +kernel
theorem wit_Boundaries_fence : let s := { up [] with num := { (up []).num with fences := [(.f 15, true)] } }
    s.serves = true ∧ env0.oscFail = none ∧ s.dict.rwt = [] ∧ s.num.readmits = [] ∧ 8 ≤ s.boot.step := by decide +kernel
theorem wit_Boundaries_lost : let s := { up [] with tick := { (up []).tick with missing := [(Die.ix (.d 8), 1)] } }
    s.serves = true ∧ Die.d 8 ∈ ({ env0 with silent := [.d 8] } : TickEnv).silent ∧ s.live (.d 8) = true ∧
      s.managersHalted (.d 8) = false ∧ SMap.get 0 s.tick.missing (Die.ix (.d 8)) = 1 := by decide +kernel

theorem wit_Voltage_under : 44999 ≤ 60000 ∧ (up []).serves = true ∧ 44999 < 45000 ∧ (up []).halved = false := by decide +kernel
theorem wit_Voltage_clear : ((up []).setCap 1 true).halved = true ∧ ((up []).setCap 1 true).pwr.uvCleared = false := by decide +kernel
theorem wit_Voltage_over : (up []).serves = true ∧ 57000 < 57001 ∧ (up []).overvoltage = false ∧ (up []).boot.estop = false := by decide +kernel
theorem wit_Voltage_over_clear : ((up []).setCap 2 true).overvoltage = true ∧ ((up []).setCap 2 true).serves = true := by decide +kernel

theorem wit_Gating : (up []).live (.t 31) = true ∧
    (let s := { up [(0x201002, 1)] with pwr := { (up []).pwr with idleFor := [(31, 4)], junction := [31] } }
     memN 31 s.pwr.junction = true ∧ s.ob 0x2010 2 = 1 ∧ 4 ≤ SMap.get 0 s.pwr.idleFor 31 ∧
       (15499 % 16000 < 500 * 31 ∨ 500 * 31 + 500 ≤ 15499 % 16000)) := by decide +kernel
theorem wit_Gating_die : (Die.t 0).kind = 1 ∧ (Die.f 15).kind ≠ 1 := by decide
theorem wit_Sensors_aside : let s := up [(dkeyOf (.t 0) 0x26 1, 0x1F)]
    (Die.t 0).kind = 1 ∧ s.live (.t 0) = true ∧ 4 < s.asideTemps (.t 0) := by decide +kernel

/-- A cause that holds, its voltage beyond the limit where it is one of voltage. -/
theorem wit_Stops : let idle (s : State) : Prop := s.boot.aux = true ∧ s.boot.resetHeld = false
    idle (up []) ∧ (2 : Fin 7).val ≠ 0 ∧ ((2 : Fin 7).val = 2 → 41999 < 42000) ∧ ((3 : Fin 7).val = 3 → 58500 < 58501) ∧ 58501 ≤ 60000 ∧
      (up []).boot.estop = false ∧ (up []).boot.stopped = false ∧ (up []).boot.tamperHold = false := by decide
theorem wit_Stops_further : ({ up [] with boot := { (up []).boot with estop := true } } : State).boot.estop = true ∧
    ({ up [] with boot := { (up []).boot with estop := true } } : State).boot.aux = true := by decide
theorem wit_Stops_none : ((2 : Fin 7).val = 2 ∧ 42000 ≤ 42000) ∧ ((3 : Fin 7).val = 3 ∧ 58500 ≤ 58500) ∧
    State.reset.boot.aux = false := by decide
theorem wit_Stops_request : WritesNow (up [(0x810005, 1)]) (box 0 0 []) 0x2010 5 [1] ∧ (up [(0x810005, 1)]).boot.step = 11 :=
  ⟨now_of (by decide +kernel), rfl⟩
theorem wit_Stops_restart : WritesNow { up [(0x810005, 1)] with boot := { (up []).boot with estop := true } } (box 0 0 []) 0x2010 3 [1] :=
  now_of (by decide +kernel)
theorem wit_Tamper : (4 : Fin 5).val ≠ 0 ∧ (up []).boot.aux = true ∧ (up []).boot.resetHeld = false ∧
    (up []).boot.tamperHold = false := by decide
theorem wit_Tamper_early : ({ up [] with boot := { (up []).boot with step := 3 } } : State).boot.step ≠ 11 := by decide
theorem wit_Tamper_none : (0 : Fin 5).val = 0 ∧ State.reset.boot.aux = false := by decide
theorem wit_Reset_held : ¬ (State.reset.boot.aux = true ∧ State.reset.boot.resetHeld = false) := by decide

/-! ### Witnesses: bring-up, security and observation -/

/-- Bring-up runs the step; its four copies are not read yet. -/
def bootS (n waves : Nat) : State := { up [] with boot := { (up []).boot with step := n, waves := waves } }
/-- An image copy that verifies. -/
def imgOk (v : BitVec 32) : ImageCopy := ⟨v, 0, false, false, true, true, [(4, [1])]⟩
theorem wit_Image_latch : let s := { up [] with boot := { (up []).boot with resetHeld := true, latched := false } }
    s.boot.aux = true ∧ s.boot.resetHeld = true ∧ s.boot.latched = false := by decide
theorem wit_Image_release (b : Bool) : let s := { up [] with boot := { (up []).boot with resetHeld := true, latched := true, sb2 := b } }
    s.boot.aux = true ∧ s.boot.resetHeld = true ∧ s.boot.latched = true ∧ s.boot.sb2 = b ∧ s.boot.estop = false ∧
      s.boot.stopped = false ∧ s.boot.tamperHold = false := by cases b <;> decide
theorem wit_Image_rom (ms : Nat) (h : ms = 500 ∨ ms = 501) : (bootS 2 0).inStep 2 = true ∧ (bootS 2 0).lcState ≠ 4 ∧
    (if ms = 500 then (bootS 2 0).domNat 0x120003 4 4 + ms ≤ 500
      else 500 < (bootS 2 0).domNat 0x120003 4 4 + ms ∧ (bootS 2 0).domNat 0x120003 4 4 + ms < 2 ^ 32) := by
  rcases h with rfl | rfl <;> decide +kernel
theorem wit_Image_select : let s := { bootS 3 0 with regs := SMap.put (bootS 3 0).regs 0x800001 2 }
    let l := s.foundCopies [imgOk 1, imgOk 2, imgOk 2, { imgOk 3 with sigOk := false }]
    let good (im : ImageCopy) : Bool := im.sigOk && decide (s.ob 0x8300 1 ≤ im.secVersion) && s.lcBoots im && im.digestOk
    s.inStep 3 = true ∧ l.length ≤ 4 ∧ imgOk 2 ∈ l ∧ good (imgOk 2) = true ∧ s.domNat 0x120003 8 4 + 3000 ≤ 3000 := by decide +kernel
theorem wit_Image_none : let s := { bootS 3 0 with regs := SMap.put (bootS 3 0).regs 0x830001 1 }
    let l := s.foundCopies [imgOk 1, imgOk 2, imgOk 2, imgOk 3]
    let good (im : ImageCopy) : Bool := im.sigOk && decide (s.ob 0x8300 1 ≤ im.secVersion) && s.lcBoots im && im.digestOk
    (s.inStep 3 = true ∧ ∀ x ∈ l, good x = false) ∧ (∃ x ∈ l, x.sigOk = true) ∧
      ∀ x ∈ l, x.sigOk = true → x.secVersion < s.ob 0x8300 1 := by decide +kernel
theorem wit_Image_timeout (n : Nat) (h : n = 2 ∨ n = 9) : 2 ≤ n ∧ n ≤ 9 ∧ (bootS n 0).inStep n = true ∧ (bootS n 0).timerStands = false := by
  rcases h with rfl | rfl <;> decide +kernel
theorem wit_Image_no_timeout : ∀ n, 2 ≤ n → n ≤ 9 → (bootS 10 0).inStep n = false := by
  intro n _ h9
  have : (bootS 10 0).boot.step = 10 := rfl
  unfold State.inStep
  rw [this]
  have : ¬ 10 = n := by omega
  simp [this]
theorem wit_Image_restart : WritesNow { up [(0x810005, 1), (0x120001, 0x88)] with boot := { (bootS 7 0).boot with stopped := true } } (box 0 0 []) 0x1200 0x0A [1] :=
  now_of (by decide +kernel)

theorem wit_Waves (w : Nat) (h : w = 0 ∨ w = 1 ∨ w = 5) : (bootS 4 w).inStep 4 = true ∧ (bootS 4 w).boot.waves ≤ 5 ∧
    (bootS 4 w).domNat 0x120003 12 4 + 6000 ≤ 6000 := by rcases h with rfl | rfl | rfl <;> decide +kernel
theorem wit_Waves_core : Die.f 15 ∈ waveDies 1 ∨ Die.f 15 ∈ waveDies 0 := by decide +kernel
theorem wit_Waves_shaft : 2 ≤ (bootS 4 5).boot.waves ∧ (63 : Fin 64).val / 16 = (bootS 4 5).boot.waves - 2 := by decide
theorem wit_Firmware : (bootS 5 0).inStep 5 = true ∧ (bootS 5 0).domNat 0x120003 16 4 + 400 ≤ 400 ∧ (bootS 5 0).fenced (.t 0) = false ∧
    Die.t 0 ∈ (bootS 5 0).boot.powered ∧ Die.t 0 ∈ ([(Die.t 0, true)] : List (Die × Bool)).map Prod.fst := by decide +kernel
theorem wit_StartupTest : (bootS 6 0).inStep 6 = true ∧ (bootS 6 0).domNat 0x120003 20 4 + 12000 ≤ 12000 ∧ (bootS 6 0).tickNo < 2 ^ 64 ∧
    31 < 32 ∧ 17 < 18 ∧ (bootS 6 0).live (Die.ofIx 31) = true := by decide +kernel
theorem wit_Union_none : (bootS 7 0).inStep 7 = true ∧
    ({ bootS 7 0 with num := { (bootS 7 0).num with counter := 5 } } : State).chooseList = none := by decide +kernel
/-- The lists as manufacture left them. -/
def listS : State := { bootS 7 0 with num := { (bootS 7 0).num with copies :=
  ({ ListCopy.fresh with digestOk := false }, ListCopy.fresh) } }
theorem wit_Union : listS.inStep 7 = true ∧ ∃ u, listS.chooseList = some u := ⟨by decide +kernel, _, rfl⟩
theorem wit_Clock : (bootS 8 0).inStep 8 = true ∧ (bootS 8 0).domNat 0x120003 28 4 + 50 ≤ 50 ∧ (bootS 8 0).boot.tamperHold = false := by
  decide +kernel
theorem wit_Ports : (bootS 9 0).inStep 9 = true ∧ (bootS 9 0).boot.training = [] ∧ (bootS 9 0).domNat 0x120003 32 4 + 35000 ≤ 35000 := by
  decide +kernel
theorem wit_HostLink : (bootS 10 0).inStep 10 = true ∧ (bootS 10 0).fenced (.d 0) = false := by decide +kernel
theorem wit_SB2_before : ({ up [] with boot := { (up []).boot with latched := false } } : State).boot.latched = false := by decide
theorem wit_SB2_after : (up []).boot.latched = true ∧ (up []).boot.aux = true ∧ (up []).boot.resetHeld = false ∧ (up []).boot.step = 11 ∧
    (up []).boot.estop = false ∧ (up []).boot.stopped = false ∧ (up []).boot.tamperHold = false := by decide
theorem wit_SB_other : InPin.sb0 ≠ .sb2 := by decide

theorem wit_Security_lc : WritesNow { up [(0x810005, 1), (0x800001, 1)] with sec := { (up []).sec with identity := some ([1], [2]) } } (box 0 0 []) 0x8000 2 [2] := now_of (by decide +kernel)
theorem wit_Security_identity : WritesNow (up [(0x810005, 1), (0x800001, 1)]) (box 0 0 []) 0x8000 3 [1] := now_of (by decide +kernel)
/-- An image runs and an update is open. -/
def secS : State := { up [(0x810005, 1)] with sec := { (up []).sec with running := some { imgOk 1 with secVersion := 1 }, stage := some (1, [])
                                                                        identity := some ([1], [2]), unwrapped := true } }
theorem wit_Security_floor : WritesNow secS (box 0 0 []) 0x8300 2 [1] ∧ secS.sec.running = some { imgOk 1 with secVersion := 1 } := ⟨now_of (by decide +kernel), rfl⟩
theorem wit_Security_open : WritesNow (up [(0x810005, 1)]) (box 0 0 []) 0x8200 1 [1] := now_of (by decide +kernel)
theorem wit_Security_abandon : WritesNow secS (box 0 0 []) 0x8200 1 [3] := now_of (by decide +kernel)
theorem wit_Security_commit : WritesNow secS (box 0 0 []) 0x8200 1 [2] ∧ secS.sec.stage = some (1, []) := ⟨now_of (by decide +kernel), rfl⟩
theorem wit_Security_chunk : (∃ o, WritesTable secS (aimAt (box 0 0 (List.replicate 16 0)) 0x8200 2) o) ∧ secS.sec.stage = some (1, []) :=
  ⟨table_of (by decide +kernel), rfl⟩
theorem wit_Security_attest : (∃ o, WritesTable secS (aimAt (box 0 0 (List.replicate 32 0)) 0x8400 3) o) ∧ secS.signKey = some [2] :=
  ⟨table_of (by decide +kernel), rfl⟩
theorem wit_Security_challenge : Heard (up []) 3 false (aimAt (box 0 0 []) 0x8100 1) ∧
    (∃ o, (atService (up []) 3 false (aimAt (box 0 0 []) 0x8100 1)).find 0x8100 1 = .ok o) ∧ (box 0 0 []).offset = 0 ∧
    (up []).dict.snaps = [] ∧ (up []).dict.staged = [] := ⟨heard_of (by decide +kernel), ⟨_, rfl⟩, rfl, rfl, rfl⟩
theorem wit_Security_session : ∃ o, WritesTable (up []) (aimAt (box 0 0 (List.replicate 520 0)) 0x8100 2) o := table_of (by decide +kernel)
theorem wit_Security_close : WritesNow (up [(0x810005, 1)]) (box 0 0 []) 0x8100 6 [0] := now_of (by decide +kernel)

theorem wit_Trace_arm : WritesNow (up [(0x810005, 1)]) (box 0 0 []) 0x9110 6 [1] := now_of (by decide +kernel)
theorem wit_Trace_stop : WritesNow (up [(0x810005, 1)]) (box 0 0 []) 0x9110 6 [0] := now_of (by decide +kernel)
theorem wit_Trace_now : WritesNow (up [(0x810005, 1), (0x911008, 1)]) (box 0 0 []) 0x9110 7 [1] ∧ (up [(0x911008, 1)]).ob 0x9110 8 = 1 :=
  ⟨now_of (by decide +kernel), by decide +kernel⟩
theorem wit_Trace_freeze : let s := { up [(0x911008, 2), (0x500006, 1000)] with obs := { (up []).obs with trigTick := some 0 } }
    s.obs.trigTick = some 0 ∧ s.ob 0x9110 8 = 2 ∧ 0 + 1000 ≤ s.tickNo := by decide +kernel
theorem wit_Exposure : WritesNow (up [(0x810005, 1)]) (box 0 0 []) 0x9200 1 [1] := now_of (by decide +kernel)
/-- Entry 7 of T31 is set for every core, with its scope. -/
def breakS (scope : Nat) : State := { up [(0x810005, 1)] with
  dom := domAt (okey (0xA000 + 0x100 * 31 + 0x84) 1) 112 (leBytes 8 (fields [(48, 0xFFFF), (44, 5), (42, scope)])) }
theorem wit_Break (scope : Nat) (h : scope = 0 ∨ scope = 1 ∨ scope = 2) :
    let s := breakS scope
    let e := s.breakEntry (31 : Fin 32).val (7 : Fin 8).val
    s.live (.t 31) = true ∧ 1 ≤ bits e 47 44 ∧ bits e 47 44 ≤ 5 ∧ ((31 : Fin 32).val, (75 : Fin 76).val) ∉ s.obs.halted ∧
      bits e 63 48 = 0xFFFF ∧ bits e 43 42 = scope ∧ 72 ≤ (75 : Fin 76).val ∧ s.physState 31 (71 / 4) = 0 := by
  rcases h with rfl | rfl | rfl <;> decide +kernel
theorem wit_Break_out : ({ up [] with num := { (up []).num with fenced := [.t 31] } } : State).live (.t 31) = false := by decide +kernel
theorem wit_Break_resume : WritesNow (breakS 0) (box 0 0 []) (0xA000 + 0x100 * (31 : Fin 32).val + 0x84) 3 [1] := now_of (by decide +kernel)
theorem wit_Break_step : WritesNow (breakS 0) (box 0 0 []) (0xA000 + 0x100 * (0 : Fin 32).val + 0x84) 3 [2] := now_of (by decide +kernel)
theorem wit_Locate : WritesNow (up []) (box 0 0 []) 0x1300 2 [1] := now_of (by decide +kernel)

/-! ### WellFormed refuses an ill-formed term of each check -/

/-- A message that names no object. -/
def noObj : Msg := box 0 0 []
/-- A message whose trailer lacks its MAC. -/
def noMac : Msg := { box 0 0 [] with trailer := some ⟨0, []⟩ }
/-- A plate of no bytes. -/
def shortFrame : Frame := ⟨true, true, 0, 0, 0, false, 0, false, false, 5, 6, [⟨0, 0, []⟩]⟩

theorem test_wf_trailer : ([
    .read noMac, .describe noMac, .write noMac, .readBlock noMac, .writeBlock noMac, .subscribe noMac, .badService 6 noMac,
    .mbDoorbell 1 noMac, .imageChunk { noMac with index := 0x8200, sub := 2 }] : List Instr).all (fun i => !i.wf) = true := by decide +kernel
theorem test_wf_service : ([
    .badService 1 noObj, .badService 5 noObj, .mbDoorbell 1 { noObj with path := .iltur 1 9000 }] : List Instr).all (fun i => !i.wf) = true := by decide +kernel
theorem test_wf_queue : ([
    .queueEnable noObj 0, .queueDisable noObj 127, .queueHaltRequest (box 0x4080 6 [1]) 0,
    .tailWrite (box 0x4080 7 [1, 0, 0, 0]) none 0 2] : List Instr).all (fun i => !i.wf) = true := by decide +kernel
theorem test_wf_memory : ([
    .plateReadReply 0 0 .clean (some ⟨0, 0, []⟩), .resume noObj 0, .mapBatch noObj [], .lookupAddr noObj 0,
    .hostApertureRead 0 0, .hostApertureRead 0 4097, .hostApertureWrite 0 [], .hostApertureWrite 0 (List.replicate 513 0)] : List Instr).all (fun i => !i.wf) = true := by decide +kernel
theorem test_wf_job : ([
    .startJob (box 0x7002 1 [0]), .endJob (box 0x7002 1 [1]), .injectReplay noObj, .heldStepWrite noObj 0, .freeze noObj 0,
    .probeStep noObj 0, .fenceDie (box 0x7110 1 [0, 0]) (.t 0), .readmitDie (box 0x7110 1 [1, 0]) (.t 0)] : List Instr).all (fun i => !i.wf) = true := by decide +kernel
theorem test_wf_links : ([
    .frameReceive 0 (.aligned shortFrame), .data 0 (msgTo 0 0 0) [(0, [])] none, .laneSwap noObj 0, .requalify noObj 0,
    .clockSelectRecovered (box 0x5800 3 [0]) true] : List Instr).all (fun i => !i.wf) = true := by decide +kernel
theorem test_wf_stops : ([
    .emergencyStop 0 0, .estopRequest noObj 0, .estopRestart noObj, .tamperTrip 0 (.t 0) [], .bootRestart noObj,
    .imageSelect [] 0] : List Instr).all (fun i => !i.wf) = true := by decide +kernel
theorem test_wf_security : ([
    .lcRequest noObj 0, .identityGenerate noObj 1, .floorAdvance noObj 1, .updateOpen noObj, .imageChunk noObj,
    .updateCommit noObj (imgOk 1), .updateAbandon noObj, .attestNonce noObj, .challengeRead noObj, .sessionOpen noObj,
    .sessionClose noObj 0] : List Instr).all (fun i => !i.wf) = true := by decide +kernel
theorem test_wf_observe : ([
    .sampleRead noObj 0, .traceArm noObj, .traceStop noObj, .triggerNow noObj, .fullExposureArm noObj 0,
    .breakResume noObj 0, .singleStep (box 0xA084 3 [1]) 0, .locate noObj 0] : List Instr).all (fun i => !i.wf) = true := by decide +kernel
/-- What is well formed is taken. -/
theorem test_wf_taken : ([
    .read noObj, .badService 6 noObj, .queueEnable (box 0x4080 6 [1]) 0, .tailWrite (box 0x40FF 7 [8, 0, 0, 0]) none 127 8,
    .fenceDie (box 0x7110 1 [1, 0x2F]) (.t 15), .hostApertureRead 0 4096, .emergencyStop 6 0,
    .singleStep (box 0xBF84 3 [2]) 31] : List Instr).all (fun i => i.wf) = true := by decide +kernel

/-! ### The manual's worked examples -/

/-- Chapter 09's line: stack H37, frame 9,000, page offset 0x1C7F80. -/
theorem test_line_places : (0x1C7F80 >>> 7 = 14591) ∧ framePlace (0, 37, 9000) 14591 =
    ⟨hbmAt 37 0x4651C7F80, hbmAt 37 0x80CA38FF0, hbmAt 37 0x8B651C7F8⟩ := by decide +kernel
/-- Chapter 05's block: the scale codes of 5.3125 in B8 and in B8G. -/
theorem test_block_codes : blockCode 448 ⟨85, -4⟩ = (121, false) ∧ blockCode 57344 ⟨85, -4⟩ = (114, false) := by decide +kernel
/-- Its elements: 340, the tie −0.65625, 1.25 × 2^-9 and 2^-12 in E4M3. -/
theorem test_e4m3 : [(false, 340, 0), (true, 21, -5), (false, 5, -11), (false, 1, -12)].map
    (fun (x : Bool × Nat × Int) => (convElt .e4m3 none (.fin x.1 x.2.1 x.2.2)).code) = [0x7B, 0xB3, 0x01, 0x00] := by decide +kernel
/-- Its stochastic rounding of 43,520 into E5M2 by two draws, and the edge of the draw. -/
theorem test_draws : [0x9A3F, 0xC1D0, 0xAFFF, 0xB000].map (fun d => (convElt .e5m2 (some d) (.fin false 43520 0)).code) =
    [0x79, 0x7A, 0x79, 0x7A] := by decide +kernel
/-- Its tag: line 0x01234580, format 0x10. -/
theorem test_tag : leBytes 4 (mkTag 0x10 false 0 0x01234580) = [0x8B, 0x46, 0x02, 0x40] := by decide +kernel
/-- Chapter 07's four products, each as a significand over 2^8 and a power of two. -/
theorem test_log_products : [(7, false, 5, -2), (4, true, 7, -1), (6, true, 3, -2), (9, false, 6, 0)].map
    (fun (x : Nat × Bool × Nat × Int) => (logProd false (some 125) x.1 ⟨.fin x.2.1 x.2.2.1 x.2.2.2, some 123, none⟩).map Fx.toDy) =
    [some ⟨159, -11⟩, some ⟨-159, -11⟩, some ⟨-17, -9⟩, some ⟨-3, -6⟩] := by decide +kernel
/-- Chapter 06's slot: code 0x70 for 0.8125, then 0x72 for 3.25, each with a headroom of one. -/
theorem test_expo_codes : expoCode true 0x3F500000 1 = some (112, false) ∧ expoCode true 0x40500000 1 = some (114, false) := by
  decide +kernel
/-- Chapter 14's release at 101.2 µs: T10 lies in its slot, T9 does not; T9's and T0's turns. -/
theorem test_slots : [(10, 101200), (9, 101200), (9, 116500), (0, 112000), (31, 111500)].map (fun x => inSlot x.1 x.2) =
    [true, false, true, true, true] := by decide
/-- Chapter 04's ragged shape: 24 × 48 and 80 × 96 tile passes. -/
theorem test_passes : [0, 1].map (fun p => passCount (BitVec.ofNat 1024 (fields [(0, 0x10), (20, p), (512 + 480, 300), (512 + 448, 6144),
    (512 + 416, 1000), (512 + 400, 1)]))) = [1152, 7680] := by decide +kernel

/-! ### One step of each family, its result by hand from the rules -/

/-- What holds of the state after one command. -/
def after (c : Instr) (s : State) (p : State → Bool) : Bool := match step { s with pending := [c] } with
  | .next t => t.pending.isEmpty && p t
  | _ => false
/-- The last response in the mailbox. -/
def reply (t : State) : Option (Nat × Bytes) := t.dict.mbServed.map fun r => (r.1.abort, r.1.payload)
/-- R283: HBM_FRAMES reads 15,360. -/
theorem test_read : after (.read (box 0x4400 1 [])) (up []) (fun t => (reply t).map (fun r => (r.1, leNat r.2)) == some (abOk, 15360)) = true := by
  decide +kernel
theorem test_read_absent : after (.read (box 0x4400 0x7F [])) (up []) (fun t => (reply t).map Prod.fst == some abNoSub) = true := by
  decide +kernel
theorem test_write_reserved : after (.write { box 0x1300 2 [1] with reservedB := 1 }) (up []) (fun t =>
    (reply t).map Prod.fst == some abReserved && t.ob 0x1300 2 == 0) = true := by decide +kernel
theorem test_locate : after (.locate (box 0x1300 2 [1]) 1) (up []) (fun t => t.ob 0x1300 2 == 1) = true := by decide +kernel
theorem test_badService : after (.badService 9 (box 0x1300 2 [1])) (up []) (fun t => t.ob 0x1300 2 == 0) = true := by decide +kernel
theorem test_queueEnable : after (.queueEnable (box 0x4080 6 [1]) 0) (up []) (fun t => t.qState 0 == 1) = true := by decide +kernel
theorem test_tailWrite_beyond : after (.tailWrite (box 0x4080 7 [9, 0, 0, 0]) none 0 9) (jobS 0 0 []) (fun t =>
    t.qTail 0 == 0 && (reply t).map Prod.fst == some abInconsistent) = true := by decide +kernel
theorem test_fetch : after (.descriptorFetch 0) (fetchS nopD) (fun t => t.qHead 0 == 1 && t.cmds == [cmd0 nopD]) = true := by decide +kernel
theorem test_fetch_bad : after (.descriptorFetch 0) (fetchS badD) (fun t => t.cmds.isEmpty && t.qState 0 == 2) = true := by decide +kernel
theorem test_nop : after (.nop 0 0) (runS false nopD) (fun t => t.cmds.map Cmd.worked == [true]) = true := by decide +kernel
theorem test_array_absent : after (.arrayProduct 0 0 0 none) (runS false nopD) (fun t => t.cmds == (runS false nopD).cmds) = true := by decide +kernel
theorem test_requalify : after (.requalify (box 0x5130 1 [5]) 5) (up []) (fun t => (reply t).map Prod.fst == some abOk) = true := by decide +kernel
theorem test_frame_gap : after (.frameReceive 0 (.aligned (frameOfGen 0 1))) (netS 2 PortSt.fresh) (fun t => (t.port 0).rxNext == 0) = true := by decide +kernel
theorem test_muster_timeout : after (.musterTimeout ⟨4095, false⟩) (up []) (fun t => t.mus.isEmpty) = true := by decide +kernel
theorem test_undervoltage : after (.undervoltageHalving 44999) (up []) (fun t => t.halved && t.cap == (up []).cap / 2) = true ∧
    after (.undervoltageHalving 45000) (up []) (fun t => !t.halved) = true := by decide +kernel
theorem test_beyond_ratings : after (.undervoltageHalving 60001) (up []) (fun _ => true) = false := by decide +kernel
theorem test_stop : after (.emergencyStop 2 41999) (up []) (fun t => t.ob 0x2010 4 == 2 && t.boot.estop && t.boot.powered.isEmpty) = true := by
  decide +kernel
theorem test_stop_not : after (.emergencyStop 2 42000) (up []) (fun t => !t.boot.estop) = true := by decide +kernel
theorem test_thermalStep : after (.thermalStepUp (.t 31) 1000 0) (up []) (fun t => t.reg (dkeyOf (.t 31) 0x20 7) == 2) = true ∧
    after (.thermalStepUp (.t 31) 999 0) (up []) (fun t => t.reg (dkeyOf (.t 31) 0x20 7) == 1) = true := by decide +kernel
theorem test_coolant : after (.coolantInlet 451) (up []) (fun t => t.alert) = true ∧
    after (.coolantInlet 450) (up []) (fun t => !t.alert) = true := by decide +kernel
theorem test_junction : after (.junctionLimit (.t 0) 1050) (up []) (fun t => t.pwr.junction == [0] && t.alert) = true ∧
    after (.junctionLimit (.t 0) 1049) (up []) (fun t => t.pwr.junction == []) = true := by
  decide +kernel
theorem test_aux : after (.auxPowerGood 3) State.reset (fun t => t.boot.step == 1 && t.boot.resetHeld) = true := by decide +kernel
theorem test_straps : after (.strapLatch 254) { State.reset with boot := { State.reset.boot with aux := true } } (fun t =>
    t.ob 0x5100 1 == 254 && t.ob 0x1100 1 == 1 && t.boot.sb2) = true := by decide +kernel
theorem test_rom_none : after (.romSelfCheck false false 1) (bootS 2 0) (fun t => t.boot.stopped && t.ob 0x1200 1 == 0x82 &&
    t.ob 0x1200 2 == 0x02820000) = true := by decide +kernel
theorem test_inrush : after .inrush (bootS 4 2) (fun t => t.ob 0x1200 2 == 0x04860003) = true := by decide +kernel
theorem test_hostLink : after (.hostLinkTraining (some (6, 16, true)) 1001) (bootS 10 0) (fun t => t.boot.step == 11 && t.ob 0x1200 4 == 1000 &&
    t.ob 0x5140 2 == 0x6101) = true := by decide +kernel
theorem test_updateOpen : after (.updateOpen (box 0x8200 1 [1])) (up [(0x810005, 1)]) (fun t => t.sec.stage == some (1, [])) = true := by decide +kernel
theorem test_updateOpen_denied : after (.updateOpen (box 0x8200 1 [1])) (up []) (fun t => t.sec.stage == none) = true := by decide +kernel
theorem test_traceArm : after (.traceArm (box 0x9110 6 [1])) (up []) (fun t => t.ob 0x9110 8 == 1) = true := by decide +kernel
theorem test_powerRemoved : after .powerRemoved (up []) (fun t => t.boot.step == 0 && !t.boot.aux) = true := by decide +kernel
end Sys2Proof.Tests
end

section
/-! SUPPORT. What every command keeps, whatever it does: the fused limits and the queue of waiting commands. -/

namespace Sys2Proof.Machine

open Sys2Proof

/-- `done` is `doneMem` of a state that has memory as it was. -/
theorem done_eq_doneMem (s b : State) : done s b = doneMem s { b with mem := s.mem } := rfl

theorem doneMem_next_keeps {s b t : State} (h : doneMem s b = .next t) : t.fuse = s.fuse ∧ t.pending = s.pending := by
  cases h
  exact ⟨rfl, rfl⟩

theorem done_next_keeps {s b t : State} (h : done s b = .next t) : t.fuse = s.fuse ∧ t.pending = s.pending :=
  doneMem_next_keeps (done_eq_doneMem s b ▸ h)

/-- Within the ratings every cause of a stop answers a next state (R382). -/
theorem execEmergencyStop_within (cause : Fin 7) (mv : Nat) (s : State) (h : ¬ beyond mv) :
    ∃ b, execEmergencyStop cause mv s = doneMem s b := by
  unfold execEmergencyStop
  rw [if_neg h]
  split <;> exact ⟨_, rfl⟩

/-- All that a command can answer: a next state by `doneMem` if it can store, by `done` if not; or the refusal of a voltage
beyond the ratings (R381, R466; log entry 18). -/
theorem exec_cases (c : Instr) (s : State) :
    (∃ b, exec c s = bif c.stores then doneMem s b else done s b) ∨
      ∃ mv, c.shownMv = some mv ∧ beyond mv ∧ exec c s = .refused .beyondRatings := by
  cases c with
  | emergencyStop cause mv =>
    by_cases h : beyond mv
    · exact .inr ⟨mv, rfl, h, if_pos h⟩
    · exact .inl (execEmergencyStop_within cause mv s h)
  | undervoltageHalving mv | undervoltageClear mv | overvoltageAlert mv | overvoltageClear mv | estopRequest _ mv =>
    by_cases h : beyond mv
    · exact .inr ⟨mv, rfl, h, if_pos h⟩
    · exact .inl ⟨_, if_neg h⟩
  | _ => exact .inl ⟨_, rfl⟩

/-- No command touches the fused limits or the commands that wait. -/
theorem exec_next_keeps {c : Instr} {s t : State} (h : exec c s = .next t) : t.fuse = s.fuse ∧ t.pending = s.pending := by
  obtain ⟨b, hb⟩ | ⟨_, _, _, hr⟩ := exec_cases c s
  · cases hc : c.stores <;> rw [hb, hc] at h
    · exact done_next_keeps h
    · exact doneMem_next_keeps h
  · rw [hr] at h
    cases h

theorem step_of_pending_nil {s : State} (h : s.pending = []) : step s = .next s := by
  simp only [step, h]

theorem step_of_pending_cons {s : State} {c : Instr} {rest : List Instr} (h : s.pending = c :: rest) :
    step s = exec c { s with pending := rest } := by
  simp only [step, h]

/-- Settles O5: an idle step changes nothing, and a command runs on the state with the queue's rest and keeps both (R3). -/
theorem stepKeepsFuses : Obligations.StepKeepsFuses := by
  intro s t h
  cases hq : s.pending with
  | nil =>
    rw [step_of_pending_nil hq] at h
    cases h
    exact ⟨rfl, hq⟩
  | cons c rest =>
    rw [step_of_pending_cons hq] at h
    exact exec_next_keeps h

end Sys2Proof.Machine
end

section
/-! SUPPORT. A little-endian value stored in a DOMAIN table, and the newest events of the ring (R64): an event stays there while
few others follow it. -/

namespace Sys2Proof.Machine

open Sys2Proof

/-! ### Values in a table -/

theorem leBytes_length (n v : Nat) : (leBytes n v).length = n := by
  induction n generalizing v with
  | zero => rfl
  | succ n ih => simp [leBytes, ih]

theorem leNat_leBytes (n v : Nat) (h : v < 256 ^ n) : leNat (leBytes n v) = v := by
  induction n generalizing v with
  | zero =>
    simp only [leBytes, leNat]
    omega
  | succ n ih =>
    have hv : v / 256 < 256 ^ n := Nat.div_lt_of_lt_mul (by rwa [Nat.pow_succ, Nat.mul_comm] at h)
    simp only [leBytes, leNat, ih _ hv, BitVec.toNat_ofNat]
    omega

/-- A value that fits its field reads back. -/
theorem State.domNat_setDomNat_self (s : State) (k off n v : Nat) (h : v < 256 ^ n) :
    (s.setDomNat k off n v).domNat k off n = v := by
  have hb := State.domBytes_setDom_self s k off (leBytes n v)
  rw [leBytes_length] at hb
  rw [State.domNat, State.setDomNat, hb, leNat_leBytes n v h]

/-- A field of the same table that does not overlap reads as before. -/
theorem State.domNat_setDomNat_other (s : State) (k off off' n n' v : Nat) (h : off' + n' ≤ off ∨ off + n ≤ off') :
    (s.setDomNat k off n v).domNat k off' n' = s.domNat k off' n' := by
  rw [State.domNat, State.setDomNat, State.domBytes_setDom_other s k off off' n' _ (by rwa [leBytes_length]), State.domNat]

/-! ### The newest events -/

/-- The event stands in the ring, and at most `k` others were raised after it. -/
def State.Recent (s : State) (e : Event) (k : Nat) : Prop := ∃ old new, s.events = old ++ e :: new ∧ new.length ≤ k

theorem State.Recent.mem {s : State} {e : Event} {k : Nat} (h : s.Recent e k) : e ∈ s.events := by
  obtain ⟨old, new, he, _⟩ := h
  simp [he]

theorem State.Recent.mono {s : State} {e : Event} {k j : Nat} (h : s.Recent e k) (hkj : k ≤ j) : s.Recent e j := by
  obtain ⟨old, new, he, hn⟩ := h
  exact ⟨old, new, he, Nat.le_trans hn hkj⟩

theorem State.Recent.of_events_eq {s t : State} {e : Event} {k : Nat} (h : s.Recent e k) (ht : t.events = s.events) :
    t.Recent e k := by
  rwa [State.Recent, ht]

/-- An event goes to the end of the ring; a full ring loses its oldest. -/
theorem State.appendEvent_events (s : State) (code sev : Nat) (unit : BitVec 32) (op layer a0 a1 : Nat) :
    ∃ e : Event, (s.appendEvent code sev unit op layer a0 a1).events =
        (if 4096 ≤ s.events.length then s.events.drop 1 else s.events) ++ [e] ∧
      e.code = code ∧ e.unit = unit ∧ e.arg0 = BitVec.ofNat 32 a0 := by
  have hcounted : (if 4096 ≤ (s.bump 0x111001 1).events.length then (s.bump 0x111001 1).bump 0x111003 1
      else s.bump 0x111001 1).events = s.events := by
    split <;> rfl
  unfold State.appendEvent
  rw [State.msix_events]
  simp only [hcounted]
  exact ⟨_, rfl, rfl, rfl, rfl⟩

theorem State.Recent.appendEvent {s : State} {e : Event} {k : Nat} (h : s.Recent e k) (hk : k < 4095) (code sev : Nat)
    (unit : BitVec 32) (op layer a0 a1 : Nat) : (s.appendEvent code sev unit op layer a0 a1).Recent e (k + 1) := by
  obtain ⟨old, new, he, hn⟩ := h
  obtain ⟨x, hx, -⟩ := s.appendEvent_events code sev unit op layer a0 a1
  rw [he] at hx
  split at hx
  next hfull =>
    cases old with
    | nil =>
      simp only [List.nil_append, List.length_cons] at hfull
      omega
    | cons y old => exact ⟨old, new ++ [x], by simp [hx], by simp [hn]⟩
  next => exact ⟨old, new ++ [x], by simp [hx], by simp [hn]⟩

/-- The trigger of a trace raises one event of its own (R450). -/
theorem State.Recent.triggered {s : State} {e : Event} {k : Nat} (h : s.Recent e k) (hk : k < 4095) (n q : Nat) :
    (s.triggered n q).Recent e (k + 1) := by
  have hset : ((s.triggerAll.setReg (okey (0xA000 + 0x100 * n + 0x90) 4) q).setReg (okey 0x9110 8) 2).Recent e k :=
    h.of_events_eq (by simp [State.triggerAll_events])
  have happ := hset.appendEvent hk 0x9001 0 0 0 0 n q
  unfold State.triggered
  refine happ.of_events_eq ?_
  rw [State.showFrozen_events]
  split
  · exact State.writeTrace_events _ _ _
  · rfl

theorem State.Recent.trace {s : State} {e : Event} {k : Nat} (h : s.Recent e k) (hk : k < 4095) (d : Die)
    (kind source unit op layer a0 a1 : Nat) : (s.trace d kind source unit op layer a0 a1).Recent e (k + 1) := by
  have hmore := h.mono (Nat.le_succ k)
  simp only [State.trace, State.traceWith, Bool.false_eq_true, if_false, false_and, or_false]
  split
  · exact hmore
  split
  · exact hmore.of_events_eq rfl
  split
  · exact (h.of_events_eq (State.writeTrace_events ..)).triggered hk _ _
  · exact hmore.of_events_eq (by rw [State.showFrozen_events, State.writeTrace_events])

/-- An event that is raised leaves those before it in the ring; its own record may fire the trace trigger. -/
theorem State.Recent.raiseAt {s : State} {e : Event} {k : Nat} (h : s.Recent e k) (hk : k < 4094) (code sev : Nat)
    (unit : BitVec 32) (op layer a0 a1 : Nat) : (s.raiseAt code sev unit op layer a0 a1).Recent e (k + 2) :=
  (h.appendEvent (by omega) ..).trace (by omega) ..

/-- The event that is raised is among the newest two. -/
theorem State.raiseAt_recent (s : State) (code sev : Nat) (unit : BitVec 32) (op layer a0 a1 : Nat) :
    ∃ e : Event, e.code = code ∧ e.unit = unit ∧ e.arg0 = BitVec.ofNat 32 a0 ∧
      (s.raiseAt code sev unit op layer a0 a1).Recent e 1 := by
  obtain ⟨e, he, hcode, hunit, harg⟩ := s.appendEvent_events code sev unit op layer a0 a1
  have hlast : (s.appendEvent code sev unit op layer a0 a1).Recent e 0 := ⟨_, [], he, Nat.le_refl 0⟩
  exact ⟨e, hcode, hunit, harg, hlast.trace (by omega) ..⟩

end Sys2Proof.Machine
end

section
/-! SUPPORT. The canary, the scrub, the background test and the field defect list (chapter 11, R25–R29): what each changes. -/

namespace Sys2Proof

open Sys2Proof.Machine

/-- A command that answers by `done` with a state that has the queue, the fuses and memory as before ends in that state. -/
theorem Ends.of_done {c : Instr} {s b : State} {P : State → Prop} (hc : exec c s = done s b)
    (hb : b.pending = s.pending ∧ b.fuse = s.fuse ∧ b.mem = s.mem) (hP : P b) : Ends c s P := by
  obtain ⟨hq, hf, hm⟩ := hb
  exact ⟨b, by rw [hc, done, ← hq, ← hf, ← hm], hP⟩

/-- Events leave the queue, the fuses and memory alone. -/
theorem Told.kept {s t : State} (h : Told s t) : t.pending = s.pending ∧ t.fuse = s.fuse ∧ t.mem = s.mem := by
  have hq := congrArg State.pending h.rest
  have hf := congrArg State.fuse h.rest
  have hm := congrArg State.mem h.rest
  exact ⟨hq, hf, hm⟩

/-- Events leave the step in progress as it was set before them. -/
theorem Told.withStep {s t : State} (h : Told s t) (st : StepSt) : Told { s with step := st } { t with step := st } :=
  ⟨congrArg (fun x : State => { x with step := st }) h.rest, h.objs⟩

theorem Told.num_eq {s t : State} (h : Told s t) : t.num = s.num := by
  have hnum := congrArg State.num h.rest
  exact hnum

theorem Told.can_eq {s t : State} (h : Told s t) : t.can = s.can := by
  have hcan := congrArg State.can h.rest
  exact hcan

namespace Machine

/-- A unit that wakes leaves the list of retained ones. -/
theorem mem_wake_retained (s : State) (die unit : Nat) (r : Nat × Nat) :
    r ∈ (s.wake die unit).page.retained ↔ r ∈ s.page.retained ∧ r ≠ (die, unit) := by
  simp [State.wake]

/-! ### A slot of the canary -/

/-- A die out of service, or without a slot, runs no canary. -/
theorem execCanarySegment_idle {s : State} {die : Die} {work : CanaryWork} (h : s.live die = false ∨ s.noSlot die work = true) :
    execCanarySegment die work s = done s s := by
  have hidle : (!s.live die) = true ∨ s.noSlot die work = true := h.imp_left fun hl => by rw [hl]; rfl
  exact congrArg (done s) (if_pos hidle)

/-- A die in service that has a slot is not idle. -/
theorem not_idle_of_live {s : State} {die : Die} {work : CanaryWork} (hl : s.live die = true) (hs : s.noSlot die work = false) :
    ¬ ((!s.live die) = true ∨ s.noSlot die work = true) := by
  simp [hl, hs]

/-! ### A pass that ends -/

theorem passEnded_of_good {s : State} {t p : Nat} (h : s.physState t p < 16) :
    s.passEnded t p =
      { (s.setDomNat 0x710006 (8 * canKey t p) 8 s.tickNo).bump (okey 0x7100 2) 1 with
        can := ⟨SMap.del s.can.lowClock (canKey t p), s.can.lateTold.filter fun x => decide (x ≠ canKey t p)⟩ } :=
  if_neg (Nat.not_le.mpr h)

theorem passEnded_tPass_self {s : State} {t p : Nat} (h : s.physState t p < 16) (ht : s.tickNo < 2 ^ 64) :
    (s.passEnded t p).tPass t p = s.tickNo := by
  rw [passEnded_of_good h]
  exact State.domNat_setDomNat_self s _ _ 8 _ (by simpa using ht)

theorem passEnded_tPass_other {s : State} {t p x y : Nat} (h : s.physState t p < 16) (hp : p < 18) (hy : y < 18)
    (hne : ¬ (x = t ∧ y = p)) : (s.passEnded t p).tPass x y = s.tPass x y := by
  rw [passEnded_of_good h]
  exact State.domNat_setDomNat_other s _ _ _ 8 8 _ (by unfold canKey; omega)

/-! ### A failed vector -/

/-- What may stand committed is told of; beside the event only the step in progress changes (R323). -/
theorem suspectCommitted_told (s : State) (tPass : Nat) : ∃ st, Told { s with step := st } (s.suspectCommitted tPass) := by
  have hraise := s.raise_told 0x7103 3 (s.stepAtTick tPass) (tPass % 2 ^ 32)
  unfold State.suspectCommitted
  dsimp only
  split
  · exact ⟨s.step, Told.refl s⟩
  split
  · exact ⟨_, hraise.withStep _⟩
  · exact ⟨s.step, hraise⟩

theorem State.Recent.suspectCommitted {s : State} {e : Event} {k : Nat} (h : s.Recent e k) (hk : k < 4094) (tPass : Nat) :
    (s.suspectCommitted tPass).Recent e (k + 2) := by
  have hraise : (s.raise 0x7103 3 (s.stepAtTick tPass) (tPass % 2 ^ 32)).Recent e (k + 2) := h.raiseAt hk ..
  unfold State.suspectCommitted
  dsimp only
  split
  · exact h.mono (by omega)
  split
  · exact hraise
  · exact hraise

/-- A shaft's failure is noted: it is to be retired, and an entry waits for the list (R28, R33). -/
def State.shaftNoted (s : State) (t p source cause : Nat) : State :=
  { s with num := { s.num with fails := s.num.fails ++ [(t, p)] } }.noteEntry source cause (unitId (Die.ofIx t) 1 p)

theorem failShaft_eq (s : State) (t p source cause : Nat) :
    s.failShaft t p source cause =
      if (s.num.fails.any fun f => decide (f = (t, p))) ∨ 16 ≤ s.physState t p then s
      else
        let noted := s.shaftNoted t p source cause
        if noted.physState t p = 1 ∨ !noted.jobRuns then noted else (noted.postCause 4).suspectCommitted (noted.tPass t p) := rfl

theorem mem_shaftNoted_fails (s : State) (t p source cause : Nat) : (t, p) ∈ (s.shaftNoted t p source cause).num.fails := by
  simp [State.shaftNoted, State.noteEntry]

/-- A good shaft that is reported failed is to be retired; beside events only the step and what waits to be numbered change
(R33, R322). -/
theorem failShaft_told (s : State) {t p : Nat} (source cause : Nat) (h : s.physState t p < 16) :
    ∃ st num, (t, p) ∈ num.fails ∧ Told { s with step := st, num := num } (s.failShaft t p source cause) := by
  have hnoted := mem_shaftNoted_fails s t p source cause
  have hframe : { s with num := (s.shaftNoted t p source cause).num } = s.shaftNoted t p source cause := rfl
  rw [failShaft_eq]
  split
  next hknown =>
    have hfails : (t, p) ∈ s.num.fails := by simpa [Nat.not_le.mpr h] using hknown
    exact ⟨s.step, s.num, hfails, Told.refl s⟩
  generalize s.shaftNoted t p source cause = noted at hnoted hframe
  dsimp only
  split
  · exact ⟨s.step, noted.num, hnoted, hframe ▸ Told.refl _⟩
  · obtain ⟨st, hst⟩ := suspectCommitted_told (noted.postCause 4) (noted.tPass t p)
    have hstep : { s with step := st, num := noted.num } = { noted with step := st } :=
      congrArg (fun x : State => { x with step := st }) hframe
    exact ⟨st, noted.num, hnoted, hstep ▸ hst⟩

theorem State.Recent.failShaft {s : State} {e : Event} {k : Nat} (h : s.Recent e k) (hk : k < 4094) (t p source cause : Nat) :
    (s.failShaft t p source cause).Recent e (k + 2) := by
  have hnoted : (s.shaftNoted t p source cause).Recent e k := h.of_events_eq rfl
  rw [failShaft_eq]
  split
  · exact h.mono (by omega)
  generalize s.shaftNoted t p source cause = noted at hnoted
  dsimp only
  split
  · exact hnoted.mono (by omega)
  · exact (hnoted.of_events_eq (t := noted.postCause 4) rfl).suspectCommitted hk _

/-- The objects of the canary and the shape of a shaft are none of the records of events. -/
theorem not_eventKey_canary (sub : Nat) (h : sub < 256) : ¬ eventKey (okey 0x7100 sub) := by
  unfold eventKey okey
  omega

theorem not_eventKey_physState (t p : Nat) (h : p < 18) : ¬ eventKey (okey (0xA000 + 0x100 * t + 0x12) (p + 1)) := by
  unfold eventKey okey
  omega

/-- The event that tells of a shaft's failed vector. -/
def State.vectorTold (s : State) (n : Fin 32) (p group vectorId : Nat) : State :=
  (s.bump (okey 0x7100 3) 1).raiseAt 0x7101 2 (unitId (.t n) 1 p) 0 0 group (if noVector group then 0 else vectorId)

/-- A shaft that fails a vector is told of and reported failed (R319, R322). -/
theorem vectorFailed_shaft (s : State) (n : Fin 32) (p group vectorId : Nat) :
    s.vectorFailed (.t n) 1 p group vectorId = (s.vectorTold n p group vectorId).failShaft n.val p 2 group := by
  unfold State.vectorFailed
  exact if_pos ⟨rfl, rfl⟩

theorem vectorTold_physState (s : State) (n : Fin 32) (p group vectorId : Nat) (hp : p < 18) :
    (s.vectorTold n p group vectorId).physState n.val p = s.physState n.val p := by
  have hraised := (State.raiseAt_told (s.bump (okey 0x7100 3) 1) 0x7101 2 (unitId (.t n) 1 p) 0 0 group
    (if noVector group then 0 else vectorId)).objs _ (not_eventKey_physState n.val p hp)
  have hother : okey (0xA000 + 0x100 * n.val + 0x12) (p + 1) ≠ okey 0x7100 3 := by
    unfold okey
    omega
  exact hraised.trans (State.reg_bump_other s _ _ 1 hother)

/-- A good shaft that fails a vector is to be retired; the failure is counted and told (R319, R322). -/
theorem vectorFailed_good {s : State} {n : Fin 32} {p : Nat} (group vectorId : Nat) (hp : p < 18)
    (h : s.physState n.val p < 16) :
    let t := s.vectorFailed (.t n) 1 p group vectorId
    (t.pending = s.pending ∧ t.fuse = s.fuse ∧ t.mem = s.mem) ∧ (n.val, p) ∈ t.num.fails ∧
      t.reg (okey 0x7100 3) = (s.bump (okey 0x7100 3) 1).reg (okey 0x7100 3) ∧
      ∃ e ∈ t.events, e.code = 0x7101 ∧ e.unit = unitId (.t n) 1 p ∧ e.arg0 = BitVec.ofNat 32 group := by
  intro t
  have hkey := not_eventKey_canary 3 (by decide)
  have htold : Told (s.bump (okey 0x7100 3) 1) (s.vectorTold n p group vectorId) := State.raiseAt_told ..
  obtain ⟨e, hcode, hunit, harg, he⟩ := State.raiseAt_recent (s.bump (okey 0x7100 3) 1) 0x7101 2 (unitId (.t n) 1 p) 0 0 group
    (if noVector group then 0 else vectorId)
  obtain ⟨st, num, hnum, hfailed⟩ := failShaft_told (s.vectorTold n p group vectorId) 2 group
    (by rwa [vectorTold_physState s n p group vectorId hp])
  have hrecent : ((s.vectorTold n p group vectorId).failShaft n.val p 2 group).Recent e 3 :=
    State.Recent.failShaft he (by omega) ..
  rw [← vectorFailed_shaft] at hfailed hrecent
  obtain ⟨hq, hf, hm⟩ := hfailed.kept
  obtain ⟨hq', hf', hm'⟩ := htold.kept
  refine ⟨⟨hq.trans hq', hf.trans hf', hm.trans hm'⟩, ?_, (hfailed.objs _ hkey).trans (htold.objs _ hkey), e, hrecent.mem, hcode,
    hunit, harg⟩
  rw [hfailed.num_eq]
  exact hnum

/-! ### The scrub and the background test -/

/-- What a counter shows after it has counted rests on what it showed. -/
theorem reg_bump_congr {s t : State} (k n : Nat) (hr : t.reg k = s.reg k) (hf : t.fuse = s.fuse) :
    (t.bump k n).reg k = (s.bump k n).reg k := by
  simp [State.bump, hr, hf]

/-- A scrub that meets no uncorrectable error only counts (R273). -/
theorem scrubbed_clean (s : State) (lpddr full : Bool) (unit corrected : Nat) :
    s.scrubbed (b2n lpddr) unit corrected [] full =
      let counted := s.bump (okey 0x4430 (if lpddr then 3 else 1)) corrected
      if full then counted.bump (okey 0x4430 6) 1 else counted := by
  cases lpddr <;> rfl

/-- A slot of a die in Ready is free for work that runs on no shaft. -/
theorem noSlot_of_ready {s : State} {die : Die} {work : CanaryWork} (hr : s.isReady = true) (hw : shaftOf work = none) :
    s.noSlot die work = false := by
  simp [State.noSlot, hr, hw]

/-- A background-test region that passes counts as tested, wakes its unit and is asked for no more (R277, R280, R282). -/
theorem bgTested_passed (s : State) (t : Nat) (shaft : Option Nat) (region : Nat) :
    let b := s.bgTested t shaft region false
    { b with page := { b.page with retained := s.page.retained, retest := s.page.retest } } = s.bump (okey 0x4440 2) 1 ∧
      b.page.retained = ((s.bump (okey 0x4440 2) 1).wake t (shaft.getD 18)).page.retained ∧
      ∀ r, r ∈ b.page.retest ↔ r ∈ s.page.retest ∧ ∀ p, shaft = some p → r ≠ (t, p, region) := by
  cases shaft with
  | none => exact ⟨rfl, rfl, fun r => by simp [State.bgTested, State.wake]⟩
  | some p => exact ⟨rfl, rfl, fun r => by simp [State.bgTested, State.wake]⟩

/-! ### The field defect list -/

theorem le_die_base (d : Die) : 0xA000 ≤ d.base := by
  cases d <;> simp only [Die.base] <;> omega

/-- Setting an object for each member of a list leaves every other object as it was. -/
theorem foldl_setReg_other {α : Type} (key : α → Nat) (val : State → α → Nat) (l : List α) (s : State) (k : Nat)
    (h : ∀ a ∈ l, k ≠ key a) : (l.foldl (fun s a => s.setReg (key a) (val s a)) s).reg k = s.reg k := by
  induction l generalizing s with
  | nil => rfl
  | cons a l ih =>
    rw [List.foldl_cons, ih _ fun b hb => h b (List.mem_cons_of_mem _ hb)]
    exact State.reg_setReg_other _ _ _ _ (h a (List.mem_cons_self ..))

theorem foldl_keeps {α β : Type} (part : State → β) (f : State → α → State) (l : List α) (s : State)
    (h : ∀ s a, part (f s a) = part s) : part (l.foldl f s) = part s := by
  induction l generalizing s with
  | nil => rfl
  | cons a l ih => exact (ih _).trans (h s a)

theorem showList_num (s : State) : s.showList.num = s.num := foldl_keeps State.num _ _ _ fun _ _ => rfl

theorem showList_kept (s : State) :
    s.showList.pending = s.pending ∧ s.showList.fuse = s.fuse ∧ s.showList.mem = s.mem :=
  ⟨foldl_keeps State.pending _ _ _ fun _ _ => rfl, foldl_keeps State.fuse _ _ _ fun _ _ => rfl,
    foldl_keeps State.mem _ _ _ fun _ _ => rfl⟩

/-- The objects of the list are none of those that show what it lists of a die (R37). -/
theorem showList_keeps (s : State) (sub : Nat) (h : sub < 256) :
    s.showList.reg (okey 0x7003 sub) =
      (((s.setReg (okey 0x7003 1) (s.list.generation % 2 ^ 32)).setReg (okey 0x7003 2) s.list.entries.length).setReg
        (okey 0x7003 3) (1024 - s.num.counter)).reg (okey 0x7003 sub) := by
  refine foldl_setReg_other _ _ _ _ _ fun t _ hkey => ?_
  have hbase := le_die_base (Die.ofIx t)
  have hindex := (okey_inj _ _ _ _ h (by decide) hkey).1
  omega

/-- What the list objects show (R37). -/
theorem showList_reg (s : State) :
    s.showList.reg (okey 0x7003 1) = s.list.generation % 2 ^ 32 ∧ s.showList.reg (okey 0x7003 2) = s.list.entries.length ∧
      s.showList.reg (okey 0x7003 3) = 1024 - s.num.counter := by
  have hkeys : okey 0x7003 1 ≠ okey 0x7003 2 ∧ okey 0x7003 1 ≠ okey 0x7003 3 ∧ okey 0x7003 2 ≠ okey 0x7003 3 := by decide
  simp [showList_keeps, State.reg_setReg, hkeys]

/-- A list with room takes every entry that waits, in both copies, with its generation and the counter one on (R28). -/
theorem appendList_of_room {s : State} (hne : s.num.append ≠ []) (hc : s.num.counter < 1024)
    (hroom : s.list.entries.length + s.num.append.length ≤ 4088) :
    let l : ListCopy := { s.list with generation := s.list.generation + 1, entries := s.list.entries ++ s.num.append
                                      digestOk := true }
    s.appendList = { s with num := { s.num with append := [], copies := (l, l), counter := s.num.counter + 1 } }.showList := by
  have hall : s.num.append.length ≤ 4088 - s.list.entries.length := by omega
  unfold State.appendList
  simp only [hc, if_true, List.take_of_length_le hall, List.drop_of_length_le hall, List.isEmpty_iff, hne, if_false,
    List.foldl_nil]

/-! ### A pass that is late -/

/-- A shaft's late pass is noted and counted. -/
def State.lateNoted (s : State) (k : Nat) : State :=
  { s with can := { s.can with lateTold := k :: s.can.lateTold } }.bump (okey 0x7100 4) 1

theorem memN_lateNoted (s : State) (k : Nat) : memN k (s.lateNoted k).can.lateTold = true := by
  simp [State.lateNoted, memN, State.bump]

/-- CANARY_LATE is told of a shaft in service, once in a pass, when its bound has gone by. -/
theorem execCanaryLate_of_due {s : State} {die : Fin 32} {phys : Fin 18}
    (h : s.live (.t die) = true ∧ s.physState die.val phys.val < 16 ∧ memN (canKey die.val phys.val) s.can.lateTold = false ∧
      canaryBound (s.lowest die.val phys.val) < (s.tickNo - s.tPass die.val phys.val) * s.periodNs + s.tick.now) :
    execCanaryLate die phys s =
      done s ((s.lateNoted (canKey die.val phys.val)).raiseAt 0x7102 1 (unitId (.t die) 1 phys.val) 0 0
        (die.val * 32 + phys.val) (s.tickNo - s.tPass die.val phys.val)) := by
  obtain ⟨hlive, hgood, htold, hlate⟩ := h
  refine congrArg (done s) (if_neg ?_)
  simp only [hlive, htold, Bool.not_true, Bool.false_eq_true, false_or, not_or, Nat.not_le]
  exact ⟨hgood, hlate⟩

theorem execCanaryLate_of_not_due {s : State} {die : Fin 32} {phys : Fin 18}
    (h : ¬ (s.live (.t die) = true ∧ s.physState die.val phys.val < 16 ∧ memN (canKey die.val phys.val) s.can.lateTold = false ∧
      canaryBound (s.lowest die.val phys.val) < (s.tickNo - s.tPass die.val phys.val) * s.periodNs + s.tick.now)) :
    execCanaryLate die phys s = done s s := by
  refine congrArg (done s) (if_pos (Decidable.byContradiction fun hc => ?_))
  simp only [not_or, Nat.not_le, Bool.not_eq_true, Bool.not_eq_false'] at hc
  exact h hc

/-! ### The statement -/

/-- Settles O38, kind of work by kind of work: each row is what its operation changes, run on a die that is live and has a slot. -/
theorem canaryAndTheDefectList : Obligations.CanaryAndTheDefectList := by
  refine ⟨?idle, ?pass, ?vector, ?scrub, ?background, ?late, ?list⟩
  case idle =>
    intro s die work h
    exact Ends.of_done (execCanarySegment_idle h) ⟨rfl, rfl, rfl⟩ rfl
  case pass =>
    intro s n p hlive hgood htick hslot
    have hexec : exec (.canarySegment (.t n) (.segment (some p) true)) s = done s ((s.passEnded n.val p.val).wake n.val p.val) :=
      congrArg (done s) (if_neg (not_idle_of_live hlive hslot))
    refine Ends.of_done hexec (by rw [passEnded_of_good hgood]; exact ⟨rfl, rfl, rfl⟩)
      ⟨passEnded_tPass_self hgood htick, fun h => ((mem_wake_retained _ _ _ _).mp h).2 rfl,
        fun x y hne _ hy => passEnded_tPass_other hgood p.isLt hy hne, ?_⟩
    rw [passEnded_of_good hgood]
    exact ⟨rfl, rfl, SMap.get?_del_self _ _⟩
  case vector =>
    intro s n p group v hlive hgood hslot
    have hexec : exec (.canarySegment (.t n) (.vectorFail 1 p.val group v)) s =
        done s ((s.wake n.val p.val).vectorFailed (.t n) 1 p.val group v.toNat) :=
      congrArg (done s) (if_neg (not_idle_of_live hlive hslot))
    obtain ⟨hkept, hfailed⟩ := vectorFailed_good (s := s.wake n.val p.val) group v.toNat p.isLt hgood
    exact Ends.of_done hexec hkept hfailed
  case scrub =>
    intro s die lpddr full unit corrected hlive hready
    have hexec : exec (.canarySegment die (.scrub lpddr unit corrected [] full)) s =
        done s (s.scrubbed (b2n lpddr) unit corrected [] full) :=
      congrArg (done s) (if_neg (not_idle_of_live hlive (noSlot_of_ready hready rfl)))
    rw [scrubbed_clean] at hexec
    have hkeys : okey 0x4430 (if lpddr then 3 else 1) ≠ okey 0x4430 6 := by cases lpddr <;> decide
    cases full with
    | false => exact Ends.of_done hexec ⟨rfl, rfl, rfl⟩ ⟨rfl, rfl, State.reg_bump_other _ _ _ _ hkeys.symm⟩
    | true =>
      exact Ends.of_done hexec ⟨rfl, rfl, rfl⟩ ⟨rfl, State.reg_bump_other _ _ _ _ hkeys,
        reg_bump_congr _ _ (State.reg_bump_other _ _ _ _ hkeys.symm) rfl⟩
  case background =>
    intro s n shaft region hlive hslot
    have hexec : exec (.canarySegment (.t n) (.bgTest shaft region false)) s =
        done s (s.bgTested n.val (shaft.map Fin.val) region false) :=
      congrArg (done s) (if_neg (not_idle_of_live hlive hslot))
    obtain ⟨hrest, hwake, hretest⟩ := bgTested_passed s n.val (shaft.map Fin.val) region
    refine Ends.of_done hexec ?_ ⟨hrest, fun r => ?_, fun r => ?_⟩
    · cases shaft <;> exact ⟨rfl, rfl, rfl⟩
    · rw [hwake]
      exact mem_wake_retained _ _ _ r
    · rw [hretest]
      cases shaft <;> simp
  case late =>
    intro s die phys since
    by_cases hdue : s.live (.t die) = true ∧ s.physState die.val phys.val < 16 ∧
        memN (canKey die.val phys.val) s.can.lateTold = false ∧
        canaryBound (s.lowest die.val phys.val) < since * s.periodNs + s.tick.now
    · have htold := State.raiseAt_told (s.lateNoted (canKey die.val phys.val)) 0x7102 1 (unitId (.t die) 1 phys.val) 0 0
        (die.val * 32 + phys.val) since
      have hlate := memN_lateNoted s (canKey die.val phys.val)
      rw [← htold.can_eq] at hlate
      refine Ends.of_done (execCanaryLate_of_due hdue) htold.kept ?_
      rw [if_pos hdue]
      exact ⟨hlate, htold.num_eq, htold.objs _ (not_eventKey_canary 4 (by decide)), _, htold, State.raiseAt_raised ..⟩
    · refine Ends.of_done (execCanaryLate_of_not_due hdue) ⟨rfl, rfl, rfl⟩ ?_
      rw [if_neg hdue]
  case list =>
    intro s hserves hne hc hroom
    have hwaits : s.serves = true ∧ (!s.num.append.isEmpty) = true := by simp [hserves, hne]
    have hexec : exec .defectListAppend s = done s s.appendList := congrArg (done s) (if_pos hwaits)
    rw [appendList_of_room hne hc hroom] at hexec
    exact Ends.of_done hexec (showList_kept _) ⟨showList_num _, showList_reg _⟩

end Machine
end Sys2Proof
end

section
/-! SUPPORT. A FREEZE with no job where a change of its group still waits (R296). -/

namespace Sys2Proof.Machine

open Sys2Proof

/-- Ready, no job; group 0 of F0 is enabled (bit 665 of its entry), and a change of it written in the last job still waits. -/
def freezeLeft : State :=
  { State.reset with
    regs := [(okey 0x5140 2, 0x6101)]
    dom := [(dkey (okey 0xC840 1) 83, 2#8)]
    fix := [(0, { FixSt.fresh with freezes := [(0, true)] })]
    boot := { State.reset.boot with aux := true, resetHeld := false, latched := true, step := 11, pithead := some false
                                    powered := [.f 0], admitted := [.f 0] } }

/-- FREEZE of group 0 of F0 from the host, at the mailbox. -/
def freezeMsg : Msg where
  path := .mailbox
  magic := 0x49
  version := 1
  response := false
  reservedA := 0
  index := 0x6000
  sub := 2
  last := true
  pendingFlag := false
  session := false
  reservedB := 0
  requestId := 0
  offset := 0
  abort := 0
  tick := 0
  length := 4
  payload := leBytes 4 0x10000
  trailer := none
  crc := 0
  describe := false
  fault := false

theorem freezeMsg_writesNow : WritesNow freezeLeft freezeMsg 0x6000 2 (leBytes 4 (0x10000#32).toNat) := by
  refine ⟨_, ⟨?_, rfl, ?_, ?_⟩, ?_⟩
  · unfold Heard
    decide +kernel
  · decide +kernel
  · decide +kernel
  · decide +kernel

/-- Refutes O39: with no job a FREEZE also removes the change of its group that waits since the last job, so more than the group
table changes. -/
theorem not_jobFixerAndServiceWrites : ¬ Obligations.JobFixerAndServiceWrites := by
  intro ⟨_, _, _, hfreeze, _⟩
  obtain ⟨t, ht, -, v, hv, hsame⟩ := hfreeze freezeLeft freezeMsg 0x10000#32 freezeMsg_writesNow
  have hjob : (atService freezeLeft 2 false (aim freezeMsg 0x6000 2 (leBytes 4 (0x10000#32).toNat))).jobRuns = false := by
    decide +kernel
  simp only [hjob, Bool.false_eq_true, if_false] at hv
  have hanswer := congrArg State.fix hsame.rest
  have hwrite := congrArg State.fix hv.1
  have hwaits : t.fix = freezeLeft.fix := hanswer.trans hwrite
  have hgone : (t.fixer 0).freezes = [] := by
    cases ht
    decide +kernel
  have hkept : (t.fixer 0).freezes = [(0, true)] := by
    rw [State.fixer, hwaits]
    decide
  simp [hkept] at hgone

end Sys2Proof.Machine
end

section
/-! SUPPORT. A boundary at which a command of a queue that does not exist is cut off (R38, R472). -/

namespace Sys2Proof.Machine

open Sys2Proof

/-- A tick in which nothing is silent, nothing is measured and nothing fails. -/
def quietTick : TickEnv where
  silent := []
  inputPower := 0
  inputVolts := 0
  measured := []
  energy := []
  activity := []
  freq := []
  refPpm := 0
  oscFail := none
  hottest := []
  sensors := []
  coolant := (0, 0)
  silenceMs := 0
  wipeFail := []
  unsent := []
  upsets := []
  binUpsets := []

/-- A pithead serves and a job runs; END_JOB waits for the boundary, and a command stands admitted whose queue number, 3,968, no
queue of R77 has: the key of its STATE would be that of TICK. -/
def strayQueue : State :=
  { State.reset with
    regs := [(okey 0x7002 1, 1)]
    boot := { State.reset.boot with pithead := some false, resetHeld := false }
    dict := { State.reset.dict with rwt := [⟨okey 0x7002 1, [0], false⟩] }
    cmds := [{ Cmd.fetched 3968 0 0 0 with phase := .admitted }] }

/-- The end of the job cuts the command off, its record finds no page, and the halt of its queue (R472, R473) sets STATE to 2: the
tick's number. -/
theorem strayQueue_ends : Ends (.tickBoundary quietTick) strayQueue fun t => t.tickNo = 2 := ⟨_, rfl, by decide +kernel⟩

/-- Refutes O53: nothing in it bounds the queue number of a command in flight, and where a job's end halts queue 3,968 the tick
after tick 0 is numbered 2. -/
theorem not_boundariesTakeWhatWaits : ¬ Obligations.BoundariesTakeWhatWaits := by
  intro ⟨_, hserves⟩
  obtain ⟨t, ht, _, _, htick, _⟩ := hserves strayQueue quietTick rfl
  have hnext : t.tickNo = 1 := htick (by decide)
  obtain ⟨t', ht', htwo⟩ := strayQueue_ends
  cases ht.symm.trans ht'
  omega

end Sys2Proof.Machine
end

section
/-! SUPPORT. The answer to a request that is served changes nothing but the client's own records (R50, R58, R62), so that a
request ends as its service does. -/

namespace Sys2Proof

open Sys2Proof.Machine

/-- A command that answers by `doneMem` with a state that has the queue and the fuses as before ends in that state. -/
theorem Ends.of_doneMem {c : Instr} {s b : State} {P : State → Prop} (hc : exec c s = doneMem s b)
    (hb : b.pending = s.pending ∧ b.fuse = s.fuse) (hP : P b) : Ends c s P := by
  obtain ⟨hq, hf⟩ := hb
  exact ⟨b, by rw [hc, doneMem, ← hq, ← hf], hP⟩

theorem Heard.no_fault {s : State} {svc : Nat} {d : Bool} {m : Msg} (h : Heard s svc d m) : m.fault = false := by
  obtain ⟨-, -, -, hfault, -⟩ := h
  exact hfault

namespace Machine

/-- A search after a filter that keeps all that is searched for. -/
theorem find?_filter_of_imp {α : Type} {p q : α → Bool} (h : ∀ a, q a = true → p a = true) (l : List α) :
    (l.filter p).find? q = l.find? q := by
  have hboth : (fun a => decide (p a = true ∧ q a = true)) = q := by
    funext a
    cases hq : q a with
    | false => simp
    | true => simp [h a hq]
  rw [List.find?_filter, hboth]

/-! ### Kept responses -/

theorem State.keptFor_eq_bind (s : State) (p : Path) (i : BitVec 16) :
    s.keptFor p i = (s.dict.kept.find? fun x => decide (x.1 = p)).bind fun x => x.2.find? fun y => decide (y.id = i) := by
  unfold State.keptFor
  cases s.dict.kept.find? fun x => decide (x.1 = p) <;> rfl

/-- The kept clients but one, as another of them finds itself there. -/
theorem find?_others {β : Type} {p q : Path} (h : p ≠ q) (l : List (Path × β)) :
    (l.filter fun x => !decide (x.1 = q)).find? (fun x => decide (x.1 = p)) = l.find? fun x => decide (x.1 = p) := by
  refine find?_filter_of_imp (fun x hx => ?_) l
  have hp : x.1 = p := of_decide_eq_true hx
  simp [hp, h]

/-- A client that is heard moves to the front and keeps its responses, as every other does. -/
theorem State.keptFor_heard (s : State) (q p : Path) (i : BitVec 16) : (s.heard q).keptFor p i = s.keptFor p i := by
  unfold State.heard
  split
  next => rfl
  next x hx =>
    have hq : x.1 = q := by simpa using List.find?_some hx
    rw [State.keptFor_eq_bind, State.keptFor_eq_bind, List.find?_cons]
    by_cases h : p = q
    · rw [h, hx]
      simp [hq]
    · have hne : decide (x.1 = p) = false := by simpa [hq] using Ne.symm h
      simp only [hne]
      rw [find?_others h]

/-- A response that is kept leaves another client's, or displaces that client whole (R58). -/
theorem State.keptFor_keep_other (s : State) {q p : Path} (h : p ≠ q) (y : Kept) (i : BitVec 16) :
    (s.keep q y).keptFor p i = s.keptFor p i ∨ ∀ j, (s.keep q y).keptFor p j = none := by
  have hq : decide (q = p) = false := by simpa using Ne.symm h
  have hfind : ((s.keep q y).dict.kept.find? fun x => decide (x.1 = p)) =
      ((s.dict.kept.filter fun x => !decide (x.1 = q)).take 15).find? fun x => decide (x.1 = p) := by
    simp only [State.keep, List.take_succ_cons, List.find?_cons, hq]
  have hsplit := find?_others h s.dict.kept
  rw [← List.take_append_drop 15 (s.dict.kept.filter fun x => !decide (x.1 = q)), List.find?_append] at hsplit
  simp only [State.keptFor_eq_bind, hfind]
  cases hfound : ((s.dict.kept.filter fun x => !decide (x.1 = q)).take 15).find? fun x => decide (x.1 = p) with
  | none => exact .inr fun _ => rfl
  | some x =>
    rw [hfound, Option.some_or] at hsplit
    exact .inl (by rw [← hsplit])

/-! ### The answer -/

theorem State.signed_frame (t : State) (ses : Option Session) (m : Msg) (svc : Nat) (d : Bool) (r : Resp) :
    ∃ l, (t.signed ses m svc d r).1 = { t with sec := { t.sec with sessions := l } } ∧
      l.filter (fun x => decide (x.path ≠ m.path)) = t.sec.sessions.filter fun x => decide (x.path ≠ m.path) := by
  cases ses with
  | none => exact ⟨t.sec.sessions, rfl, rfl⟩
  | some x =>
    refine ⟨_, rfl, ?_⟩
    induction t.sec.sessions with
    | nil => rfl
    | cons y l ih =>
      rw [List.map_cons, List.filter_cons, List.filter_cons, ih]
      by_cases hy : y.path = m.path ∧ y.key = x.key
      · simp [hy]
      · rw [if_neg hy]

/-- A request that is answered changes nothing but what its client is answered. -/
theorem State.closed_sameButAnswer (t : State) (ses : Option Session) (svc : Nat) (d : Bool) (m : Msg) (r : Resp) :
    SameButAnswer m t (t.closed ses svc d m r) := by
  unfold State.closed
  split
  next =>
    obtain ⟨l, hl, hothers⟩ := t.signed_frame ses m svc d r
    generalize t.signed ses m svc d r = x at hl ⊢
    rw [hl]
    refine ⟨rfl, fun p i hp => ?_, hothers, ?_, ?_⟩
    · exact State.keptFor_keep_other { t with sec := { t.sec with sessions := l } } hp _ i
    · exact List.take_left' rfl
    · exact Nat.le_of_eq List.length_append
  next =>
    split
    · exact ⟨rfl, fun _ _ _ => .inl rfl, rfl, List.take_length .., Nat.le_succ _⟩
    · exact ⟨rfl, fun _ _ _ => .inl rfl, rfl, List.take_length .., Nat.le_succ _⟩

/-- The answer leaves the queue, the fuses and memory alone. -/
theorem State.closed_kept (t : State) (ses : Option Session) (svc : Nat) (d : Bool) (m : Msg) (r : Resp) :
    (t.closed ses svc d m r).pending = t.pending ∧ (t.closed ses svc d m r).fuse = t.fuse ∧
      (t.closed ses svc d m r).mem = t.mem := by
  obtain ⟨dict, sec, out, hclosed, -⟩ := t.closed_frame ses svc d m r
  rw [hclosed]
  exact ⟨rfl, rfl, rfl⟩

/-! ### Before the service -/

/-- What the service begins with of the dictionary's own records: only who was heard last and the mailbox's request differ. -/
theorem atService_dict (s : State) (svc : Nat) (d : Bool) (m : Msg) :
    (atService s svc d m).dict.staged = s.dict.staged ∧ (atService s svc d m).dict.snaps = s.dict.snaps ∧
      (atService s svc d m).dict.abandoned = s.dict.abandoned ∧ (atService s svc d m).dict.subs = s.dict.subs := by
  unfold atService
  split
  · unfold State.authTake State.heard
    split <;> split <;> split <;> exact ⟨rfl, rfl, rfl, rfl⟩
  · exact ⟨rfl, rfl, rfl, rfl⟩

theorem atService_kept (s : State) (svc : Nat) (d : Bool) (m : Msg) :
    (atService s svc d m).pending = s.pending ∧ (atService s svc d m).fuse = s.fuse ∧ (atService s svc d m).mem = s.mem := by
  obtain ⟨hframe, -⟩ := atService_frame s svc d m
  have hq := congrArg State.pending hframe
  have hf := congrArg State.fuse hframe
  have hm := congrArg State.mem hframe
  exact ⟨hq, hf, hm⟩

/-! ### A request that is served -/

/-- What a service leaves for its answer: nothing outside the objects and the dictionary's records has changed, and the
mailbox still holds the request. -/
structure Serviced (u v : State) : Prop where
  rest : { v with regs := u.regs, dict := u.dict } = u
  busy : v.dict.mbBusy = u.dict.mbBusy

theorem Serviced.refl (u : State) : Serviced u u := ⟨rfl, rfl⟩

/-! Without an internal fault a request's service is the one its code names (R50, R65). -/

section

variable (s : State) (x : WriteEnv) (d : Bool) {m : Msg} (h : m.fault = false)
include h

theorem State.service_describe (hd : d = true) : s.service x 1 d m = (s, s.describeObj m.path m.index.toNat m.sub.toNat) := by
  simp [State.service, h, hd]

theorem State.service_read (hd : d = false) (hm : m.describe = false) :
    s.service x 1 d m = (s, s.readObj m.index.toNat m.sub.toNat) := by
  simp [State.service, h, hd, hm]

theorem State.service_write : s.service x 2 d m = s.writeObj x m := by simp [State.service, h]

theorem State.service_readBlock : s.service x 3 d m = s.readBlock m := by simp [State.service, h]

theorem State.service_writeBlock : s.service x 4 d m = s.writeBlock x m := by simp [State.service, h]

theorem State.service_subscribe : s.service x 5 d m = s.subscribe m := by simp [State.service, h]

theorem State.service_unknown {svc : Nat} (hs : svc = 0 ∨ 6 ≤ svc) : s.service x svc d m = (s, s.resp abService) := by
  rw [State.service, if_neg (by simp [h])] <;> omega

end

/-- A command that is one request ends as its service does, with the answer beside it. -/
theorem Ends.of_service {c : Instr} {s v : State} {x : WriteEnv} {svc : Nat} {d : Bool} {m : Msg} {r : Resp} {P : State → Prop}
    (hc : exec c s = done s (s.request x svc d m) ∨ exec c s = doneMem s (s.request x svc d m)) (h : Heard s svc d m)
    (hr : (atService s svc d m).service x svc d m = (v, r)) (hv : Serviced (atService s svc d m) v)
    (hP : ∀ t, SameButAnswer m v t → Answered t svc m r → P t) : Ends c s P := by
  have hreq := State.request_heard s x svc d m h
  rw [hr] at hreq
  obtain ⟨hq, hf, hm⟩ := v.closed_kept ((atService s svc d m).sessionOf m) svc d m r
  obtain ⟨hq', hf', hm'⟩ := atService_kept s svc d m
  have hvq := congrArg State.pending hv.rest
  have hvf := congrArg State.fuse hv.rest
  have hvm := congrArg State.mem hv.rest
  have hanswer : viaIltur m = true ∨ v.dict.mbBusy = true := by
    cases hvia : viaIltur m with
    | true => exact .inl rfl
    | false => exact .inr (hv.busy.trans (atService_busy s svc d m hvia))
  have hend := hP _ (v.closed_sameButAnswer ((atService s svc d m).sessionOf m) svc d m r)
    (v.closed_answered ((atService s svc d m).sessionOf m) svc d m r hanswer)
  rw [hreq] at hc
  obtain hc | hc := hc
  · exact Ends.of_done hc ⟨hq.trans (hvq.trans hq'), hf.trans (hvf.trans hf'), hm.trans (hvm.trans hm')⟩ hend
  · exact Ends.of_doneMem hc ⟨hq.trans (hvq.trans hq'), hf.trans (hvf.trans hf')⟩ hend

end Machine
end Sys2Proof
end

section
/-! SUPPORT. READ, DESCRIBE and WRITE (R41–R45, R47): what each service answers and what it leaves. -/

namespace Sys2Proof.Machine

open Sys2Proof

/-! ### READ and DESCRIBE -/

/-- Settles O11: the response of READ, by what the object is; the service itself changes nothing. -/
theorem readAnswers : Obligations.ReadAnswers := by
  intro s m h hd u k
  refine Ends.of_service (.inl rfl) h (State.service_read u _ false h.no_fault rfl hd) (Serviced.refl u)
    fun t hsame hanswer => ⟨hsame, _, hanswer, ?_⟩
  unfold State.readObj
  cases u.find m.index.toNat m.sub.toNat with
  | error e => rfl
  | ok o =>
    dsimp only
    by_cases hdom : o.ty = .domain
    · simp [hdom, State.resp]
    by_cases hwo : o.acc = .wo
    · simp [hdom, hwo, State.resp]
    by_cases hvstr : o.ty = .vstr
    · simp [hwo, hvstr, State.resp, k]
    · simp [hdom, hwo, hvstr, State.resp, k]

/-- The present size of an object in bytes, as DESCRIBE gives it (R47). -/
def State.objSize (s : State) (p : Path) (o : Obj) (k : Nat) : Nat :=
  if o.ty = .vstr then (s.vstr k).length else if o.ty = .domain then (s.content p o k).length else tyBytes o.ty

theorem State.describeObj_of_found {s : State} {i sub : Nat} {o : Obj} (p : Path) (h : s.find i sub = .ok o) :
    s.describeObj p i sub =
      { s.resp abOk with
        payload := [BitVec.ofNat 8 (tyCode o.ty), BitVec.ofNat 8 (accCode o.acc), 0, 0] ++
          leBytes 4 (s.objSize p o (okey i sub)) ++ leBytes 8 (widen o.ty (s.dfltOf o (okey i sub))) ++
          leBytes 8 (widen o.ty o.lo) ++ leBytes 8 (widen o.ty o.hi)
        pending := (s.waits (okey i sub)).isSome } := by
  unfold State.describeObj
  rw [h]
  obtain ⟨_, ty, _⟩ := o
  cases ty <;> rfl

/-- The fields of 32 bytes laid one after the other as DESCRIBE lays them (R47). -/
theorem describe_fields (head size dflt lo hi : Bytes) (h1 : head.length = 4) (h2 : size.length = 4) (h3 : dflt.length = 8)
    (h4 : lo.length = 8) (h5 : hi.length = 8) :
    let b := head ++ size ++ dflt ++ lo ++ hi
    b.length = 32 ∧ b.take 4 = head ∧ (b.drop 4).take 4 = size ∧ (b.drop 8).take 8 = dflt ∧ (b.drop 16).take 8 = lo ∧
      b.drop 24 = hi := by
  simp [List.drop_append, List.drop_of_length_le, h1, h2, h3, h4, h5]

/-- The straps, and with them the defaults that rest on them, are as they were before the request. -/
theorem dfltOf_atService (s : State) (svc : Nat) (d : Bool) (m : Msg) (o : Obj) (k : Nat) :
    (atService s svc d m).dfltOf o k = s.dfltOf o k := by
  have hstraps : (atService s svc d m).ob 0x1200 5 = s.ob 0x1200 5 := (atService_frame s svc d m).2 _ (by decide)
  unfold State.dfltOf
  rw [hstraps]

/-- A service code that the table does not define is served under that code. -/
theorem execBadService_undefined {code : BitVec 8} (m : Msg) (s : State) (hcode : code.toNat = 0 ∨ 6 ≤ code.toNat) :
    exec (.badService code m) s = done s (s.request s.plainEnv code.toNat false m) :=
  congrArg (fun svc => done s (s.request s.plainEnv svc false m)) (if_pos hcode)

/-- Settles O12: DESCRIBE by its fields, whatever the object; an undefined code by the last case of the service. -/
theorem describeAndBadService : Obligations.DescribeAndBadService := by
  refine ⟨?describe, ?bad⟩
  case describe =>
    intro s m o h hfound u k
    refine Ends.of_service (.inl rfl) h (State.service_describe u _ true h.no_fault rfl) (Serviced.refl u)
      fun t hsame hanswer => ⟨hsame, _, hanswer, ?_⟩
    rw [State.describeObj_of_found m.path hfound, dfltOf_atService]
    exact ⟨rfl, rfl, describe_fields _ _ _ _ _ rfl (leBytes_length ..) (leBytes_length ..) (leBytes_length ..)
      (leBytes_length ..)⟩
  case bad =>
    intro s m code hcode h
    have hnat : code.toNat = 0 ∨ 6 ≤ code.toNat := hcode.imp_left fun h0 => by simp [h0]
    exact Ends.of_service (.inl (execBadService_undefined m s hnat)) h (State.service_unknown _ _ _ h.no_fault hnat)
      (Serviced.refl _) fun t hsame hanswer => ⟨hsame, _, hanswer, rfl⟩

/-! ### WRITE -/

/-- A write that no row of its own carries is its request. -/
theorem execWrite_plain {m : Msg} (s : State) (h : ownRow m = false) :
    exec (.write m) s = doneMem s (s.request s.plainEnv 2 false m) :=
  congrArg (doneMem s) (if_neg (by simp [h]))

/-- A doorbell submits the same request at the mailbox (R62). -/
theorem execMbDoorbell_plain {m : Msg} (s : State) (h : ownRow m = false) (hp : m.path = .mailbox) :
    exec (.mbDoorbell 2 m) s = doneMem s (s.request s.plainEnv 2 false m) := by
  have hm : { m with path := .mailbox } = m := by rw [← hp]
  have hexec : exec (.mbDoorbell 2 m) s = doneMem s (s.request s.plainEnv 2 false { m with path := .mailbox }) :=
    congrArg (doneMem s) (if_neg (by simp [h]))
  rw [hexec, hm]

/-- A write that passes its checks is accepted (R43). -/
theorem State.writeObj_of_passes {s : State} {x : WriteEnv} {m : Msg} {o : Obj}
    (hfound : s.find m.index.toNat m.sub.toNat = .ok o)
    (hpass : s.checkScalar x.steady m o (okey m.index.toNat m.sub.toNat) m.payload = abOk) :
    s.writeObj x m = s.accept x m.path o (okey m.index.toNat m.sub.toNat) m.payload := by
  simp [State.writeObj, hfound, hpass]

/-- One that fails a check is answered with the code of that check (R43). -/
theorem State.writeObj_of_fails {s : State} {x : WriteEnv} {m : Msg} {o : Obj}
    (hfound : s.find m.index.toNat m.sub.toNat = .ok o)
    (hfail : s.checkScalar x.steady m o (okey m.index.toNat m.sub.toNat) m.payload ≠ abOk) :
    s.writeObj x m = (s, s.resp (s.checkScalar x.steady m o (okey m.index.toNat m.sub.toNat) m.payload)) := by
  simp [State.writeObj, hfound, hfail]

theorem State.writeObj_of_absent {s : State} {x : WriteEnv} {m : Msg} {e : Nat}
    (habsent : s.find m.index.toNat m.sub.toNat = .error e) : s.writeObj x m = (s, s.resp e) := by
  simp [State.writeObj, habsent]

/-! The list of writes that wait (R45). -/

/-- The list with a write put at the place of its object's first, or at the end. -/
def putWrite (w : PendWrite) (l : List PendWrite) : List PendWrite :=
  if l.any (fun y => decide (y.key = w.key)) then l.map fun y => if y.key = w.key then w else y else l ++ [w]

theorem State.queueWrite_eq (s : State) (p : Path) (k : Nat) (b : Bytes) :
    s.queueWrite p k b =
      { s with dict := { s.dict with rwt := putWrite ⟨k, b, decide (p ≠ .mailbox)⟩ s.dict.rwt } } := rfl

/-- Putting a write leaves each write under its key. -/
theorem find?_map_write (w : PendWrite) (l : List PendWrite) (j : Nat) :
    (l.map fun y => if y.key = w.key then w else y).find? (fun y => decide (y.key = j)) =
      (l.find? fun y => decide (y.key = j)).map fun y => if y.key = w.key then w else y := by
  have hkey : ((fun y : PendWrite => decide (y.key = j)) ∘ fun y => if y.key = w.key then w else y) =
      fun y => decide (y.key = j) := by
    funext y
    by_cases hy : y.key = w.key <;> simp [hy]
  rw [List.find?_map, hkey]

/-- The write that was put is the one that waits for its object. -/
theorem find?_putWrite_self (w : PendWrite) (l : List PendWrite) :
    (putWrite w l).find? (fun y => decide (y.key = w.key)) = some w := by
  unfold putWrite
  cases hfound : l.find? fun y => decide (y.key = w.key) with
  | none =>
    have hnew : l.any (fun y => decide (y.key = w.key)) = false := by simpa using hfound
    simp [hnew, List.find?_append, hfound]
  | some y =>
    have hkey : y.key = w.key := by simpa using List.find?_some hfound
    have hold : l.any (fun y => decide (y.key = w.key)) = true :=
      List.any_eq_true.mpr ⟨y, List.mem_of_find?_eq_some hfound, decide_eq_true hkey⟩
    rw [if_pos hold, find?_map_write, hfound, Option.map_some, if_pos hkey]

/-- No write of another object is moved. -/
theorem find?_putWrite_other (w : PendWrite) (l : List PendWrite) {j : Nat} (hj : j ≠ w.key) :
    (putWrite w l).find? (fun y => decide (y.key = j)) = l.find? fun y => decide (y.key = j) := by
  unfold putWrite
  split
  · rw [find?_map_write]
    cases hfound : l.find? fun y => decide (y.key = j) with
    | none => rfl
    | some y =>
      have hkey : y.key = j := by simpa using List.find?_some hfound
      rw [Option.map_some, if_neg (hkey ▸ hj)]
  · simp [List.find?_append, Ne.symm hj]

theorem State.waits_queueWrite_self (s : State) (p : Path) (k : Nat) (b : Bytes) : (s.queueWrite p k b).waits k = some b := by
  have hfind := find?_putWrite_self ⟨k, b, decide (p ≠ .mailbox)⟩ s.dict.rwt
  rw [State.queueWrite_eq, State.waits, hfind, Option.map_some]

theorem State.waits_queueWrite_other (s : State) (p : Path) {k j : Nat} (b : Bytes) (h : j ≠ k) :
    (s.queueWrite p k b).waits j = s.waits j := by
  have hfind := find?_putWrite_other ⟨k, b, decide (p ≠ .mailbox)⟩ s.dict.rwt h
  rw [State.queueWrite_eq, State.waits, hfind, State.waits]

/-- A queue's object other than STATE takes its value, with no effect beside (R77). -/
theorem State.applyNow_queue (s : State) (x : WriteEnv) (p : Path) (v q sub : Nat) (hq : q < 128) (h0 : 1 ≤ sub)
    (h1 : sub ≤ 4) : s.applyNow x p (okey (0x4080 + q) sub) v = s.setReg (okey (0x4080 + q) sub) v := by
  have hqueue : queueOf (okey (0x4080 + q) sub) = some (q, sub) := by
    have hi : okey (0x4080 + q) sub / 256 = 0x4080 + q := by unfold okey; omega
    have hs : okey (0x4080 + q) sub % 256 = sub := by unfold okey; omega
    rw [queueOf, hi, hs, if_pos (by omega)]
    simp
  have hlow : 0x408000 ≤ okey (0x4080 + q) sub := by unfold okey; omega
  have hhigh : okey (0x4080 + q) sub < 0x410000 := by unfold okey; omega
  unfold State.applyNow
  split
  case h_21 =>
    rw [hqueue]
    split
    next heq =>
      simp only [Option.some.injEq, Prod.mk.injEq] at heq
      omega
    next => rfl
    next heq => cases heq
  all_goals omega

/-- Settles O13: the write is accepted; an RWT object's waits in the list, a queue's object is set. -/
theorem writeTakesEffect : Obligations.WriteTakesEffect := by
  intro s m o c hown hw hc u k
  have hexec : exec c s = doneMem s (s.request s.plainEnv 2 false m) := by
    obtain rfl | ⟨hp, rfl⟩ := hc
    · exact execWrite_plain s hown
    · exact execMbDoorbell_plain s hown hp
  have haccept : u.service s.plainEnv 2 false m = u.accept s.plainEnv m.path o k m.payload :=
    (State.service_write u _ false hw.heard.no_fault).trans (State.writeObj_of_passes hw.found hw.passes)
  constructor
  · intro hrwt
    have hlater := haccept.trans (State.accept_later u s.plainEnv m.path o k m.payload hrwt)
    exact Ends.of_service (.inr hexec) hw.heard hlater ⟨rfl, rfl⟩ fun t hsame hanswer =>
      ⟨⟨_, rfl, hanswer⟩, u.queueWrite m.path k m.payload, rfl, hsame, State.waits_queueWrite_self ..,
        fun j hj => State.waits_queueWrite_other _ _ _ hj⟩
  · intro hacc q hq h0 h1
    have hnow := haccept.trans (State.accept_now u s.plainEnv m.path o k m.payload hacc hw.scalar)
    have hset : u.applyNow s.plainEnv m.path k (leNat m.payload) = u.setReg k (leNat m.payload) := by
      have := State.applyNow_queue u s.plainEnv m.path (leNat m.payload) q.val m.sub.toNat q.isLt h0 h1
      rwa [← hq] at this
    rw [hset] at hnow
    exact Ends.of_service (.inr hexec) hw.heard hnow ⟨rfl, rfl⟩ fun t hsame hanswer =>
      ⟨⟨_, rfl, hanswer⟩, _, rfl, hsame⟩

/-- Settles O14: a write of an object that is not there, or that fails a check, leaves the state in which its service began. -/
theorem refusedWriteChangesNothing : Obligations.RefusedWriteChangesNothing := by
  intro s m hown h u
  have hwrite := State.service_write u s.plainEnv false h.no_fault
  refine ⟨fun e habsent => ?absent, fun o a hfound ha hne => ?fails⟩
  case absent =>
    exact Ends.of_service (.inr (execWrite_plain s hown)) h (hwrite.trans (State.writeObj_of_absent habsent))
      (Serviced.refl u) fun t hsame hanswer => ⟨hsame, _, hanswer, rfl⟩
  case fails =>
    subst ha
    exact Ends.of_service (.inr (execWrite_plain s hown)) h (hwrite.trans (State.writeObj_of_fails hfound hne))
      (Serviced.refl u) fun t hsame hanswer => ⟨hsame, _, hanswer, rfl⟩

end Sys2Proof.Machine
end

section
/-! SUPPORT. Block transfers, subscriptions and what a second of silence takes away (R51–R53, R58). -/

namespace Sys2Proof.Machine

open Sys2Proof

/-! ### READ_BLOCK -/

theorem State.snap?_eq_find? (s : State) (p : Path) (k : Nat) :
    s.snap? p k = s.dict.snaps.find? fun x => decide (x.path = p ∧ x.key = k) := rfl

/-- The snapshots but one, as every other is found there. -/
theorem find?_snaps_others {p q : Path} {j k : Nat} (h : ¬ (p = q ∧ j = k)) (l : List Snapshot) :
    (l.filter fun x => !decide (x.path = q ∧ x.key = k)).find? (fun x => decide (x.path = p ∧ x.key = j)) =
      l.find? fun x => decide (x.path = p ∧ x.key = j) := by
  refine find?_filter_of_imp (fun x hx => ?_) l
  obtain ⟨hp, hj⟩ := of_decide_eq_true hx
  have hne : ¬ (x.path = q ∧ x.key = k) := by rw [hp, hj]; exact h
  rw [decide_eq_false hne]
  rfl

theorem find?_snaps_gone (q : Path) (k : Nat) (l : List Snapshot) :
    (l.filter fun x => !decide (x.path = q ∧ x.key = k)).find? (fun x => decide (x.path = q ∧ x.key = k)) = none := by
  refine List.find?_eq_none.mpr fun x hx hown => ?_
  have hother := (List.mem_filter.mp hx).2
  rw [hown] at hother
  cases hother

/-- The snapshots with one taken in place of its client's own of the object. -/
def State.takeSnap (s : State) (p : Path) (k : Nat) (b : Bytes) : State :=
  { s with dict := { s.dict with snaps := (s.dict.snaps.filter fun x => !decide (x.path = p ∧ x.key = k)) ++ [⟨p, k, b⟩] } }

theorem State.snap?_takeSnap_self (s : State) (p : Path) (k : Nat) (b : Bytes) :
    (s.takeSnap p k b).snap? p k = some ⟨p, k, b⟩ := by
  rw [State.snap?_eq_find?, State.takeSnap, List.find?_append, find?_snaps_gone]
  simp

theorem State.snap?_takeSnap_other (s : State) {p q : Path} {j k : Nat} (b : Bytes) (h : ¬ (p = q ∧ j = k)) :
    (s.takeSnap q k b).snap? p j = s.snap? p j := by
  have hne : ¬ (q = p ∧ k = j) := fun he => h ⟨he.1.symm, he.2.symm⟩
  rw [State.snap?_eq_find?, State.takeSnap, List.find?_append, find?_snaps_others h, ← State.snap?_eq_find?]
  simp [hne]

/-- SAMPLE_READ is the block read of its object (R444). -/
theorem exec_blockRead {c : Instr} {m : Msg} (s : State)
    (hc : c = .readBlock m ∨ ∃ (m' : Msg) (d : Fin 32), c = .sampleRead m' d ∧
      m = aimAt m' (0xA000 + 0x100 * d.val + 0x82) 2) : exec c s = done s (s.request s.plainEnv 3 false m) := by
  obtain rfl | ⟨m', d, rfl, rfl⟩ := hc
  · rfl
  · rfl

/-- Settles O16: a first read that finds room takes its snapshot and answers its first chunk. -/
theorem blockReadTakesASnapshot : Obligations.BlockReadTakesASnapshot := by
  intro s c m o hc h hfound hdom hwo hkey hfree hoff u k b others hcount hroom
  obtain ⟨hstaged, hsnaps, -, -⟩ := atService_dict s 3 false m
  rw [← hstaged] at hfree
  have hothers : (u.dict.snaps.filter fun x => !decide (x.path = m.path ∧ x.key = k)) = others :=
    congrArg (List.filter _) hsnaps
  have hfits : ¬ (4 ≤ others.length ∨ 33554432 < (others.map fun x => x.content.length).sum + b.length) := by omega
  have hread : u.readBlock m = (u.takeSnap m.path k b, chunk (u.blockResp k) b 0) := by
    unfold State.readBlock
    rw [hfound]
    dsimp only
    rw [if_neg (not_not_intro hdom), if_neg hwo, if_neg (by simpa using hfree), if_pos hoff, if_neg hkey, hothers, if_neg hfits,
      ← hothers]
    rfl
  refine Ends.of_service (.inl (exec_blockRead s hc)) h ((State.service_readBlock u _ false h.no_fault).trans hread) ⟨rfl, rfl⟩
    fun t hsame hanswer => ⟨⟨_, hanswer, rfl, rfl, ?_⟩, u.takeSnap m.path k b, rfl, hsame, State.snap?_takeSnap_self ..,
      fun p j hne => State.snap?_takeSnap_other _ _ hne⟩
  simp [chunk]

/-! ### WRITE_BLOCK -/

/-- The staged writes with one client's of an object in place of every other of it, and what a silence discarded of it forgotten
(R52). -/
def State.stage (s : State) (p : Path) (k : Nat) (b : Bytes) : State :=
  { s with dict := { s.dict with
      staged := (s.dict.staged.filter fun y => !decide (y.key = k)) ++ [⟨p, k, b⟩]
      abandoned := s.dict.abandoned.filter fun y => !decide (y = (p, k)) } }

/-- A first chunk that is not the last is staged. -/
theorem State.writeBlock_first {s : State} (x : WriteEnv) {m : Msg} {o : Obj} (hfound : s.find m.index.toNat m.sub.toNat = .ok o)
    (hdom : o.ty = .domain)
    (hfree : s.dict.staged.any (fun y => decide (y.key = okey m.index.toNat m.sub.toNat ∧ y.path ≠ m.path)) = false)
    (hroom : m.payload.length ≤ domRoom o (okey m.index.toNat m.sub.toNat)) (hoff : m.offset = 0) (hlast : m.last = false) :
    s.writeBlock x m = (s.stage m.path (okey m.index.toNat m.sub.toNat) m.payload, s.resp abOk) := by
  have hzero : m.offset.toNat = 0 := by simp [hoff]
  simp only [State.writeBlock, hfound, hdom, hfree, hzero, hlast, Nat.zero_add, Nat.not_lt.mpr hroom, ne_eq, not_true_eq_false,
    false_and, if_false, if_true, Bool.false_eq_true, List.nil_append]
  rfl

/-- A later chunk of a block write that a silence discarded is refused with BLOCK_ABANDONED (R52, R65). -/
theorem State.writeBlock_abandoned {s : State} (x : WriteEnv) {m : Msg} {o : Obj}
    (hfound : s.find m.index.toNat m.sub.toNat = .ok o) (hdom : o.ty = .domain)
    (hnone : ∀ y ∈ s.dict.staged, y.key ≠ okey m.index.toNat m.sub.toNat)
    (hroom : m.offset.toNat + m.payload.length ≤ domRoom o (okey m.index.toNat m.sub.toNat)) (hoff : m.offset ≠ 0)
    (habandoned : (m.path, okey m.index.toNat m.sub.toNat) ∈ s.dict.abandoned) :
    s.writeBlock x m = (s, s.resp abAbandoned) := by
  have hlater : m.offset.toNat ≠ 0 := fun h0 => hoff (BitVec.eq_of_toNat_eq h0)
  have hfree : s.dict.staged.any (fun y => decide (y.key = okey m.index.toNat m.sub.toNat ∧ y.path ≠ m.path)) = false := by
    simpa using fun y hy hk => absurd hk (hnone y hy)
  have hmine : s.dict.staged.find? (fun y => decide (y.key = okey m.index.toNat m.sub.toNat)) = none := by simpa using hnone
  have hnoted : s.dict.abandoned.any (fun y => decide (y = (m.path, okey m.index.toNat m.sub.toNat))) = true := by
    simpa using habandoned
  simp only [State.writeBlock, hfound, hdom, hfree, hmine, hnoted, Nat.not_lt.mpr hroom, hlater, ne_eq, not_true_eq_false,
    not_false_eq_true, Option.isNone_none, true_and, if_false, if_true, Bool.false_eq_true]

/-- Settles O17: the chunk is staged, and only the lists of staged and of discarded writes differ. -/
theorem blockWriteStages : Obligations.BlockWriteStages := by
  intro s m o h u k hfound hdom hfree hroom hoff hlast
  obtain ⟨hstaged, -, -, -⟩ := atService_dict s 4 false m
  rw [← hstaged] at hfree
  have hwrite := State.writeBlock_first s.plainEnv hfound hdom hfree hroom hoff hlast
  refine Ends.of_service (.inl rfl) h ((State.service_writeBlock u _ false h.no_fault).trans hwrite) ⟨rfl, rfl⟩
    fun t hsame hanswer => ⟨⟨_, rfl, hanswer⟩, u.stage m.path k m.payload, hsame, rfl, ?_, ?_, rfl⟩
  · simp [State.stage]
  · simp [State.stage]

/-! ### SUBSCRIBE -/

/-- The subscriptions with a client's own put in place of what it had. -/
def State.resubscribe (s : State) (p : Path) (own : List Sub) : State :=
  { s with dict := { s.dict with subs := (s.dict.subs.filter fun x => !decide (x.path = p)) ++ own } }

/-- The list that a SUBSCRIBE leaves its client. -/
def newSubs (m : Msg) (keys : List Nat) : List Sub := if keys = [] then [] else [⟨m.path, m.offset.toNat, keys⟩]

theorem resubscribe_own (s : State) (m : Msg) (keys : List Nat) :
    (s.resubscribe m.path (newSubs m keys)).dict.subs.filter (fun x => decide (x.path = m.path)) = newSubs m keys := by
  unfold State.resubscribe newSubs
  split <;> simp

theorem resubscribe_others (s : State) (m : Msg) (keys : List Nat) :
    (s.resubscribe m.path (newSubs m keys)).dict.subs.filter (fun x => !decide (x.path = m.path)) =
      s.dict.subs.filter fun x => !decide (x.path = m.path) := by
  unfold State.resubscribe newSubs
  split <;> simp

/-- The Iltur subscriptions of the other clients (R54). -/
def State.otherIltur (s : State) (p : Path) : List Sub :=
  s.dict.subs.filter fun x => !decide (x.path = p) && decide (x.path ≠ .mailbox)

/-- A list that keeps the limits of its path (R53, R54, R63) takes its client's place. -/
theorem State.subscribe_within {s : State} {m : Msg} {keys : List Nat} (hlen : m.payload.length % 4 = 0)
    (hkeys : s.subKeys (m.payload.length / 4) m.payload = .ok keys)
    (hlimits : keys ≠ [] → 1 ≤ m.offset.toNat ∧ m.offset.toNat ≤ 65535 ∧
      if m.path = .mailbox then keys.length ≤ 256 ∧ s.subBytes keys ≤ 3824
      else (s.otherIltur m.path).length < 8 ∧ keys.length ≤ 64 ∧ s.subBytes keys ≤ 1024 ∧
        s.busOk (s.otherIltur m.path ++ [⟨m.path, m.offset.toNat, keys⟩]) = true) :
    s.subscribe m = (s.resubscribe m.path (newSubs m keys), s.resp abOk) := by
  have hothers : ((s.dict.subs.filter fun x => !decide (x.path = m.path)).filter fun x => decide (x.path ≠ .mailbox)) =
      s.otherIltur m.path := by
    rw [List.filter_filter]
    exact List.filter_congr fun x _ => Bool.and_comm ..
  unfold State.subscribe
  dsimp only
  rw [if_neg (not_not_intro hlen), hkeys, hothers]
  cases keys with
  | nil => simp [State.resubscribe, newSubs]
  | cons key keys =>
    obtain ⟨hlow, hhigh, hpath⟩ := hlimits (List.cons_ne_nil _ _)
    dsimp only
    rw [if_neg (by omega), if_neg (by omega)]
    by_cases hbox : m.path = .mailbox
    · rw [if_pos hbox] at hpath
      rw [if_pos hbox, if_neg (by omega)]
      rfl
    · rw [if_neg hbox] at hpath
      obtain ⟨hcount, hnames, hbytes, hload⟩ := hpath
      rw [if_neg hbox, if_neg (by omega), if_neg (by simp [hload])]
      rfl

/-- Settles O18: within the limits of its path the client's list is replaced, or removed. -/
theorem subscribeReplacesTheList : Obligations.SubscribeReplacesTheList := by
  intro s m keys h hlen u hkeys it hlimits
  obtain ⟨-, -, -, hsubs⟩ := atService_dict s 5 false m
  have hit : it = u.otherIltur m.path := congrArg (List.filter _) hsubs.symm
  rw [hit] at hlimits
  have hsub := State.subscribe_within hlen hkeys hlimits
  refine Ends.of_service (.inl rfl) h ((State.service_subscribe u _ false h.no_fault).trans hsub) ⟨rfl, rfl⟩
    fun t hsame hanswer => ⟨⟨_, rfl, hanswer⟩, u.resubscribe m.path (newSubs m keys), hsame, rfl, resubscribe_own .., ?_⟩
  rw [resubscribe_others, hsubs]

/-! ### A second of silence -/

/-- The kept responses of a client but one. -/
def dropKept (p : Path) (id : BitVec 16) (x : Path × List Kept) : Path × List Kept :=
  if x.1 = p then (x.1, x.2.filter fun y => !decide (y.id = id)) else x

theorem dropKept_path (p : Path) (id : BitVec 16) (x : Path × List Kept) : (dropKept p id x).1 = x.1 := by
  unfold dropKept
  split <;> rfl

/-- What the expiry of one response leaves under each key. -/
theorem keptFor_dropKept (s : State) (p q : Path) (id i : BitVec 16) :
    State.keptFor { s with dict := { s.dict with kept := s.dict.kept.map (dropKept p id) } } q i =
      if q = p ∧ i = id then none else s.keptFor q i := by
  have hpath : (fun x : Path × List Kept => decide (x.1 = q)) ∘ dropKept p id = fun x => decide (x.1 = q) := by
    funext x
    simp [dropKept_path]
  rw [State.keptFor_eq_bind, State.keptFor_eq_bind, List.find?_map, hpath]
  cases hfound : s.dict.kept.find? fun x => decide (x.1 = q) with
  | none => simp
  | some x =>
    have hx : x.1 = q := by simpa using List.find?_some hfound
    simp only [Option.map_some, Option.bind_some]
    by_cases hq : q = p
    · by_cases hi : i = id
      · simp [dropKept, hx, hq, hi]
      · have hkeep : ∀ y : Kept, decide (y.id = i) = true → (!decide (y.id = id)) = true := by
          intro y hy
          simpa [of_decide_eq_true hy] using hi
        rw [if_neg fun hboth => hi hboth.2, dropKept, if_pos (hx.trans hq)]
        exact find?_filter_of_imp hkeep x.2
    · rw [if_neg fun hboth => hq hboth.1, dropKept, if_neg (hx ▸ hq)]

/-- Settles O19: each lapse drops what it names from its list, and a discarded write's later chunk is refused. -/
theorem oneSecondLapses : Obligations.OneSecondLapses := by
  refine ⟨?snapshot, ?staged, ?kept, ?later⟩
  case snapshot =>
    intro s p i n
    refine Ends.of_done rfl ⟨rfl, rfl, rfl⟩ ⟨rfl, find?_snaps_gone p _ _, fun p' k hne => find?_snaps_others hne _⟩
  case staged =>
    intro s i n
    refine Ends.of_done rfl ⟨rfl, rfl, rfl⟩ ⟨rfl, fun x => by simp, fun y => ?_⟩
    simp only [List.mem_append, List.mem_map, List.mem_filter, decide_eq_true_eq]
    constructor
    · rintro (⟨x, ⟨hx, hk⟩, rfl⟩ | hy)
      · exact .inr ⟨x, hx, hk, rfl⟩
      · exact .inl hy
    · rintro (hy | ⟨x, hx, hk, rfl⟩)
      · exact .inr hy
      · exact .inl ⟨x, ⟨hx, hk⟩, rfl⟩
  case kept =>
    intro s p id
    refine Ends.of_done rfl ⟨rfl, rfl, rfl⟩ ⟨rfl, ?_, fun p' id' hne => ?_⟩
    · exact (keptFor_dropKept s p p id id).trans (if_pos ⟨rfl, rfl⟩)
    · exact (keptFor_dropKept s p p' id id').trans (if_neg hne)
  case later =>
    intro s m o h hoff u k hfound hdom hnone hroom habandoned
    obtain ⟨hstaged, -, hnoted, -⟩ := atService_dict s 4 false m
    rw [← hstaged] at hnone
    rw [← hnoted] at habandoned
    have hwrite := State.writeBlock_abandoned s.plainEnv hfound hdom hnone hroom hoff habandoned
    exact Ends.of_service (.inl rfl) h ((State.service_writeBlock u _ false h.no_fault).trans hwrite) (Serviced.refl u)
      fun t hsame hanswer => ⟨hsame, _, hanswer, rfl⟩

end Sys2Proof.Machine
end

section
/-! SUPPORT. Duplicates over Iltur (R58), the mailbox's response (R62) and the handover of the pithead's role (R60). -/

namespace Sys2Proof.Machine

open Sys2Proof

/-! ### Duplicates -/

/-- An Iltur request that is not dropped has passed its CRC and is no response, so it restarts the silence timer (R50, R59). -/
theorem restartsTimer_of_not_dropped {m : Msg} {svc : Nat} {d : Bool} (hvia : viaIltur m = true)
    (hdrop : msgDropped m svc d = false) : restartsTimer m svc d = true := by
  simp only [msgDropped, Bool.or_eq_false_iff, Bool.not_eq_false'] at hdrop
  obtain ⟨⟨⟨⟨hcrc, -⟩, hresponse⟩, -⟩, -⟩ := hdrop
  simp [restartsTimer, hvia, hcrc, hresponse]

/-- The state in which a duplicate is answered: the timer restarted, its client heard last (R58, R59). -/
def State.reheard (s : State) (p : Path) : State := (s.setReg (okey 0x1100 6) 0).heard p

theorem State.heard_frame (s : State) (p : Path) : ∃ l, s.heard p = { s with dict := { s.dict with kept := l } } := by
  unfold State.heard
  split
  · exact ⟨_, rfl⟩
  · exact ⟨_, rfl⟩

theorem State.reheard_frame (s : State) (p : Path) :
    ∃ l, s.reheard p = { s.setReg (okey 0x1100 6) 0 with dict := { s.dict with kept := l } } :=
  (s.setReg (okey 0x1100 6) 0).heard_frame p

theorem State.reheard_reg (s : State) (p : Path) {k : Nat} (h : k ≠ okey 0x1100 6) : (s.reheard p).reg k = s.reg k := by
  obtain ⟨l, hl⟩ := s.reheard_frame p
  rw [hl]
  exact State.reg_setReg_other s _ _ _ h

theorem State.keptFor_reheard (s : State) (q p : Path) (i : BitVec 16) : (s.reheard q).keptFor p i = s.keptFor p i :=
  State.keptFor_heard _ q p i

/-- A request whose key is kept is answered without its service: with the kept response where the content is the same, else with
REQUEST_ID_REUSED (R58). -/
theorem State.request_kept {s : State} (x : WriteEnv) {svc : Nat} {d : Bool} {m : Msg} {y : Kept} (hserves : s.serves = true)
    (hvia : viaIltur m = true) (hdrop : msgDropped m svc d = false) (hkept : s.keptFor m.path m.requestId = some y) :
    s.request x svc d m =
      if y.service = BitVec.ofNat 8 svc ∧ y.describe = d ∧ y.msg = msgContent m then
        ((s.reheard m.path).bump (okey 0x1100 5) 1).respond svc d m y.resp y.trailer
      else (s.reheard m.path).respond svc d m ((s.reheard m.path).resp abReused) none := by
  have hfound : ((s.setReg (okey 0x1100 6) 0).heard m.path).keptFor m.path m.requestId = some y :=
    (s.keptFor_reheard _ _ _).trans hkept
  unfold State.request State.ilturRequest
  simp only [hserves, hvia, restartsTimer_of_not_dropped hvia hdrop, hdrop, hfound, Bool.not_true, Bool.false_eq_true, if_false,
    if_true]
  rfl

/-- Settles O15: a duplicate is answered without its service, and its client is heard. -/
theorem keptResponseIsResent : Obligations.KeptResponseIsResent := by
  intro s m y hown hserves hvia hdrop hkept same still
  have hexec := execWrite_plain s hown
  rw [State.request_kept s.plainEnv hserves hvia hdrop hkept] at hexec
  obtain ⟨l, hl⟩ := s.reheard_frame m.path
  constructor
  · intro hsame
    rw [if_pos hsame] at hexec
    refine Ends.of_doneMem hexec (by rw [hl]; exact ⟨rfl, rfl⟩) ⟨⟨?_, fun p i => s.keptFor_reheard m.path p i⟩, ?_, ?_, ?_⟩
    · rw [hl]
      rfl
    · rw [hl]
      rfl
    · exact reg_bump_congr _ _ (s.reheard_reg m.path (by decide)) (by rw [hl]; rfl)
    · intro k h5 h6
      exact (State.reg_bump_other _ _ _ _ h5).trans (s.reheard_reg m.path h6)
  · intro hother
    rw [if_neg hother] at hexec
    refine Ends.of_doneMem hexec (by rw [hl]; exact ⟨rfl, rfl⟩) ⟨⟨?_, fun p i => s.keptFor_reheard m.path p i⟩,
      ⟨(s.reheard m.path).resp abReused, rfl, ?_⟩, fun k h6 => s.reheard_reg m.path h6⟩
    · rw [hl]
      rfl
    · rw [hl]
      rfl

/-! ### The mailbox's response and the handover -/

/-- What a vector's signal does: it is sent, or its pending bit is set where vectors are masked (R368, R370). -/
theorem State.msix_cases (s : State) (v : Nat) :
    (s.host.masked = true → s.msix v = { s with host := (s.msix v).host } ∧
      { (s.msix v).host with pendingBits := s.host.pendingBits } = s.host ∧
      ∀ w, w ∈ (s.msix v).host.pendingBits ↔ w = v ∨ w ∈ s.host.pendingBits) ∧
    (s.host.masked = false → s.msix v = s.send (.msix v)) := by
  unfold State.msix
  refine ⟨fun hmasked => ?_, fun hopen => if_neg (by simp [hopen])⟩
  rw [if_pos hmasked]
  refine ⟨rfl, rfl, fun w => ?_⟩
  dsimp only
  split
  next hset =>
    have hv : v ∈ s.host.pendingBits := by simpa [memN] using hset
    constructor
    · exact .inr
    · rintro (rfl | hw)
      · exact hv
      · exact hw
  next => exact List.mem_cons

/-- The mailbox shows the response of the request in progress (R61, R62). -/
def State.showResponse (s : State) (b : Bytes) : State :=
  { s with dict := { s.dict with mbBusy := false, mbDone := true, mbServed := none, mbArea := areaPut s.dict.mbArea b } }

theorem execMbResponse_of_served {s : State} {r : Resp} {b : Bytes} (hserved : s.dict.mbServed = some (r, b))
    (hbusy : s.dict.mbBusy = true) : exec .mbResponse s = done s ((s.showResponse b).msix 0) := by
  show execMbResponse s = _
  simp only [execMbResponse, hserved, hbusy, Bool.not_true, Bool.false_eq_true, if_false]
  rfl

/-- Settles O20: the response stands before its vector is signalled; a handover is possible as its hypotheses say, and moves the
role. -/
theorem mailboxResponseAndHandover : Obligations.MailboxResponseAndHandover := by
  refine ⟨?response, ?handover⟩
  case response =>
    intro s r b hserved hbusy
    have hexec := execMbResponse_of_served hserved hbusy
    obtain ⟨hmasked, hopen⟩ := (s.showResponse b).msix_cases 0
    cases hm : s.host.masked with
    | true =>
      obtain ⟨hframe, hhost, hbits⟩ := hmasked hm
      refine Ends.of_done hexec (by rw [hframe]; exact ⟨rfl, rfl, rfl⟩) ⟨by rw [hframe]; rfl, by rw [hframe]; rfl, ?_⟩
      rw [if_pos rfl]
      refine ⟨by rw [hframe]; rfl, (hbits 0).mpr (.inl rfl), fun v hv => ?_, hhost⟩
      exact (hbits v).trans (or_iff_right hv)
    | false =>
      rw [hopen hm] at hexec
      exact Ends.of_done hexec ⟨rfl, rfl, rfl⟩ ⟨rfl, rfl, by rw [if_neg Bool.false_ne_true]; exact ⟨rfl, rfl⟩⟩
  case handover =>
    intro s hserves hd0 hd8
    have hgo : ¬ ((!s.serves) = true ∨ s.boot.pithead ≠ some false ∨ s.fenced (.d 8) = true) := by simp [hserves, hd0, hd8]
    exact Ends.of_done (congrArg (done s) (if_neg hgo)) ⟨rfl, rfl, rfl⟩ ⟨rfl, rfl, rfl, rfl⟩

end Sys2Proof.Machine
end

section
/-! SUPPORT. The host port (R366–R370, R415), and the requests of the DOE mailbox and of the Iltur segment (R49, R369). -/

namespace Sys2Proof.Machine

open Sys2Proof

/-! ### Events and the host port: an event can set pending bits, and nothing else of the port (R368) -/

/-- The port but its pending bits. -/
def State.hostSans (s : State) : HostSt := { s.host with pendingBits := [] }

theorem State.msix_hostSans (s : State) (v : Nat) : (s.msix v).hostSans = s.hostSans := by
  unfold State.msix
  split <;> rfl

theorem State.writeTrace_host (s : State) (n : Nat) (r : TraceRec) : (s.writeTrace n r).host = s.host := by
  unfold State.writeTrace
  dsimp only
  split
  · rfl
  · split <;> rfl

theorem State.showFrozen_host (s : State) : s.showFrozen.host = s.host := by
  unfold State.showFrozen
  split <;> rfl

theorem State.triggerAll_host (s : State) : s.triggerAll.host = s.host := by
  unfold State.triggerAll
  exact foldl_keeps State.host _ _ _ fun _ _ => rfl

theorem State.appendEvent_hostSans (s : State) (code sev : Nat) (unit : BitVec 32) (op layer a0 a1 : Nat) :
    (s.appendEvent code sev unit op layer a0 a1).hostSans = s.hostSans := by
  unfold State.appendEvent
  rw [State.msix_hostSans]
  split <;> rfl

/-- Two states whose ports are the same have the same port but its pending bits. -/
theorem hostSans_congr {s t : State} (h : t.host = s.host) : t.hostSans = s.hostSans := by
  rw [State.hostSans, State.hostSans, h]

theorem State.triggered_hostSans (s : State) (n q : Nat) : (s.triggered n q).hostSans = s.hostSans := by
  have hset : ((s.triggerAll.setReg (okey (0xA000 + 0x100 * n + 0x90) 4) q).setReg (okey 0x9110 8) 2).hostSans = s.hostSans := by
    rw [hostSans_congr (State.setReg_host ..), hostSans_congr (State.setReg_host ..), hostSans_congr s.triggerAll_host]
  have hevent := (State.appendEvent_hostSans _ 0x9001 0 0 0 0 n q).trans hset
  unfold State.triggered
  rw [hostSans_congr (State.showFrozen_host _)]
  generalize State.appendEvent _ _ _ _ _ _ _ _ = x at hevent ⊢
  split
  · exact (hostSans_congr (State.writeTrace_host ..)).trans hevent
  · exact hevent

theorem State.trace_hostSans (s : State) (d : Die) (kind source unit op layer a0 a1 : Nat) :
    (s.trace d kind source unit op layer a0 a1).hostSans = s.hostSans := by
  simp only [State.trace, State.traceWith, Bool.false_eq_true, if_false, false_and, or_false]
  split
  · rfl
  split
  · rfl
  split
  · rw [State.triggered_hostSans, hostSans_congr (State.writeTrace_host ..)]
  · rw [hostSans_congr (State.showFrozen_host _), hostSans_congr (State.writeTrace_host ..)]

theorem State.raise_hostSans (s : State) (code sev a0 a1 : Nat) : (s.raise code sev a0 a1).hostSans = s.hostSans := by
  rw [State.raise, State.raiseAt, State.trace_hostSans, State.appendEvent_hostSans]

/-! ### A link that goes down -/

/-- The port at its reset values, and the link down counted (R370). -/
def State.hostCleared (s : State) : State := s.clearHostPort.bump (okey 0x5140 3) 1

theorem hostDown_of_up {s : State} (surprise : Bool) (h : s.hostUp = true) :
    s.hostDown surprise = s.hostCleared.raise 0x510A 2 (b2n surprise) 0 := if_pos h

/-- A port whose HOST_LINK reads 0 is down. -/
theorem hostUp_of_link_zero {s : State} (h : s.reg (okey 0x5140 2) = 0) : s.hostUp = false := by
  rw [State.hostUp, State.ob, h]
  decide

theorem not_eventKey_hostPort {sub : Nat} (h : sub < 256) : ¬ eventKey (okey 0x5140 sub) := by
  unfold eventKey okey
  omega

/-- What a link down leaves: the port and the mailbox at their reset values, the event told, and no memory or command touched. -/
theorem hostDown_leaves {s : State} (surprise : Bool) (h : s.hostUp = true) :
    let t := s.hostDown surprise
    t.hostUp = false ∧ t.dict.mbBusy = false ∧ t.dict.mbServed = none ∧ t.host.d3hot = false ∧ t.host.negotiated = false ∧
      t.host.bar2 = 8 ∧ t.mem = s.mem ∧ t.cmds = s.cmds ∧
      t.reg (okey 0x5140 3) = (s.bump (okey 0x5140 3) 1).reg (okey 0x5140 3) ∧ ∃ v, Tells v t 0x510A (b2n surprise) 0 := by
  have htold := s.hostCleared.raise_told 0x510A 2 (b2n surprise) 0
  have hraised := s.hostCleared.raiseAt_raised 0x510A 2 0 0 0 (b2n surprise) 0
  have hport := s.hostCleared.raise_hostSans 0x510A 2 (b2n surprise) 0
  have hlink : (s.hostCleared.raise 0x510A 2 (b2n surprise) 0).reg (okey 0x5140 2) = 0 := by
    rw [htold.objs _ (not_eventKey_hostPort (by decide)), State.hostCleared, State.reg_bump_other _ _ _ _ (by decide)]
    exact State.reg_setReg_self _ _ _
  have hcount : (s.hostCleared.raise 0x510A 2 (b2n surprise) 0).reg (okey 0x5140 3) =
      (s.bump (okey 0x5140 3) 1).reg (okey 0x5140 3) := by
    rw [htold.objs _ (not_eventKey_hostPort (by decide)), State.hostCleared]
    exact reg_bump_congr _ _ (State.reg_setReg_other _ _ _ _ (by decide)) rfl
  have hdict := congrArg State.dict htold.rest
  have hmem := congrArg State.mem htold.rest
  have hcmds := congrArg State.cmds htold.rest
  have hd3 := congrArg HostSt.d3hot hport
  have hnegotiated := congrArg HostSt.negotiated hport
  have hbar2 := congrArg HostSt.bar2 hport
  rw [hostDown_of_up surprise h]
  exact ⟨hostUp_of_link_zero hlink, congrArg DictSt.mbBusy hdict, congrArg DictSt.mbServed hdict, hd3, hnegotiated, hbar2, hmem,
    hcmds, hcount, _, htold, hraised⟩

/-! ### A link that trains -/

/-- Vectors signalled one after the other are sent, and nothing else changes. -/
theorem sendAll_eq (l : List Nat) (s : State) :
    l.foldl (fun s x => s.send (.msix x)) s = { s with out := s.out ++ l.map Out.msix } := by
  induction l generalizing s with
  | nil => simp
  | cons v l ih =>
    rw [List.foldl_cons, ih]
    simp [State.send]

/-- HOST_LINK's value for a rate, a width and the flit mode (R366). -/
def linkValue (rate width : Nat) (flit : Bool) : Nat := rate * 4096 + width * 16 + b2n flit

/-- The rate that a link's value shows is in its bits 15 to 12. -/
theorem bits_linkValue {rate width : Nat} (flit : Bool) (hr : rate < 7) (hw : width < 32) :
    bits (linkValue rate width flit) 15 12 = rate := by
  have hb : b2n flit ≤ 1 := by cases flit <;> decide
  simp only [bits, linkValue, Nat.shiftRight_eq_div_pow]
  omega

/-- The port as a link that has trained leaves it: vectors unmasked, the pending ones signalled (log entry 35). -/
def State.linkUp (s : State) (v : Nat) : State :=
  { s.setReg (okey 0x5140 2) v with host := { s.host with masked := false, pendingBits := [] }
                                    out := s.out ++ s.host.pendingBits.reverse.map Out.msix }

theorem linkTrained_eq (s : State) (rate width : Nat) (flit : Bool) :
    s.linkTrained rate width flit =
      if rate = 0 ∨ s.fenced (.d 0) = true ∨ s.host.lost = true then s else s.linkUp (linkValue rate width flit) := by
  unfold State.linkTrained
  rw [sendAll_eq]
  rfl

/-- A choice within a choice whose other cases are one. -/
theorem ite_unless {a b : State} (p q : Prop) [Decidable p] [Decidable q] :
    (if p then (if q then a else b) else a) = if p ∧ ¬ q then b else a := by
  by_cases hp : p
  · by_cases hq : q <;> simp [hp, hq]
  · simp [hp]

/-- The link trains where the host offers it to a port that is not lost (R17, R415), and only there. -/
theorem execHostLinkUp_eq (rate : Fin 7) (width : Fin 32) (flit : Bool) (s : State) :
    exec (.hostLinkUp rate width flit) s = done s
      (if s.boot.step = 11 ∧ s.serves = true ∧ s.hostUp = false ∧ rate.val ≠ 0 ∧ s.fenced (.d 0) = false ∧ s.host.lost = false
        then s.linkUp (linkValue rate.val width.val flit) else s) := by
  show execHostLinkUp rate width flit s = _
  have hwhen : (s.boot.step = 11 ∧ s.serves = true ∧ s.hostUp = false ∧ rate.val ≠ 0 ∧ s.fenced (.d 0) = false ∧
      s.host.lost = false) ↔ (s.boot.step = 11 ∧ s.serves = true ∧ (!s.hostUp) = true) ∧
        ¬ (rate.val = 0 ∨ s.fenced (.d 0) = true ∨ s.host.lost = true) := by
    simp [and_assoc]
  rw [execHostLinkUp, linkTrained_eq]
  exact congrArg (done s) ((ite_unless _ _).trans (ite_congr (propext hwhen.symm) (fun _ => rfl) fun _ => rfl))

/-! ### Requests of standard protocols -/

/-- A request of the DOE mailbox that reaches a pithead is answered once (R369). -/
theorem doe_of_up {s : State} (which : Nat) (request content : Bytes) (hup : s.hostUp = true) (hserves : s.serves = true) :
    s.doe which request content = s.send (.protocol which (Config.protocolAnswer which (request ++ content))) :=
  if_pos ⟨hup, hserves⟩

/-- The answers to the eight requests of the DOE mailbox while the link is up; the two that negotiate also set what the port keeps
of it (R369). -/
theorem doe_answers (s : State) (req : Bytes) (offset len : Nat) (pss hash : Bool) (hup : s.hostUp = true)
    (hserves : s.serves = true) :
    let put (n : Nat) (b : Bytes) : State := s.send (.protocol n (Config.protocolAnswer n (req ++ b)))
    let ok (b : Bytes) : Bytes := if s.host.negotiated then b else []
    exec (.doeDiscovery req) s = done s (put 2 []) ∧
    exec (.getVersion req) s = done s { put 3 [] with host := { s.host with negotiated := false } } ∧
    exec (.getCapabilities req) s = done s (put 4 []) ∧
    exec (.negotiateAlgorithms req pss hash) s =
      done s { put 5 [if pss && hash then 1 else 0] with host := { s.host with negotiated := pss && hash } } ∧
    exec (.getDigests req) s = done s (put 6 (ok (Config.sha512 s.certChain))) ∧
    exec (.getCertificate req offset len) s = done s (put 7 (ok ((s.certChain.drop offset).take len))) ∧
    exec (.challenge req) s = done s (put 8 (ok (Config.rsaSign (s.signKey.getD []) (Config.sha512 req)))) ∧
    exec (.getMeasurements req) s = done s (put 9 (ok (s.sec.log.flatMap logBytes))) := by
  intro put ok
  have hversion : exec (.getVersion req) s =
      done s (State.doe { s with host := { s.host with negotiated := false } } 3 req []) := by
    show execGetVersion req s = _
    simp only [execGetVersion, hup, if_true]
  have hnegotiate : exec (.negotiateAlgorithms req pss hash) s =
      done s (State.doe { s with host := { s.host with negotiated := pss && hash } } 5 req [if pss && hash then 1 else 0]) := by
    show execNegotiateAlgorithms req pss hash s = _
    simp only [execNegotiateAlgorithms, hup, if_true]
  refine ⟨congrArg (done s) (doe_of_up _ _ _ hup hserves), hversion.trans (congrArg (done s) (doe_of_up _ _ _ hup hserves)),
    congrArg (done s) (doe_of_up _ _ _ hup hserves), hnegotiate.trans (congrArg (done s) (doe_of_up _ _ _ hup hserves)),
    congrArg (done s) (doe_of_up _ _ _ hup hserves), congrArg (done s) (doe_of_up _ _ _ hup hserves),
    congrArg (done s) (doe_of_up _ _ _ hup hserves), congrArg (done s) (doe_of_up _ _ _ hup hserves)⟩

/-! ### The statement -/

/-- After a resize the aperture's base is a multiple of half the window until it is written (R367). -/
theorem apertureBase_of_resized {s : State} (h : s.host.resized = true) : s.apertureBase % (s.barSize / 2) = 0 := by
  rw [State.apertureBase, if_pos h]
  exact Nat.mul_mod_left _ _

/-- Settles O50, row by row: each is one change of the port where the link's state lets it, or one answer. -/
theorem hostPortAndItsProtocols : Obligations.HostPortAndItsProtocols := by
  refine ⟨?reset, ?power, ?resize, ?linkUp, ?doe, ?segment⟩
  case reset =>
    intro s surprise
    cases hup : s.hostUp with
    | false =>
      have hstay : s.hostDown surprise = s := if_neg (by simp [hup])
      exact Ends.of_done (congrArg (done s) hstay) ⟨rfl, rfl, rfl⟩ (by rw [if_pos rfl])
    | true =>
      have hkept : (s.hostDown surprise).pending = s.pending ∧ (s.hostDown surprise).fuse = s.fuse ∧
          (s.hostDown surprise).mem = s.mem := by
        rw [hostDown_of_up surprise hup]
        exact (s.hostCleared.raise_told 0x510A 2 (b2n surprise) 0).kept
      refine Ends.of_done rfl hkept ?_
      rw [if_neg (Bool.noConfusion)]
      exact hostDown_leaves surprise hup
  case power =>
    intro s d3
    exact Ends.of_done rfl (by split <;> exact ⟨rfl, rfl, rfl⟩) rfl
  case resize =>
    intro s n
    cases hup : s.hostUp with
    | false =>
      exact Ends.of_done (congrArg (done s) (if_neg (by simp [hup]))) ⟨rfl, rfl, rfl⟩ (by rw [if_neg Bool.false_ne_true])
    | true =>
      refine Ends.of_done (congrArg (done s) (if_pos hup)) ⟨rfl, rfl, rfl⟩ ?_
      rw [if_pos rfl]
      exact ⟨rfl, apertureBase_of_resized rfl, Nat.mul_comm _ _⟩
  case linkUp =>
    intro s rate width flit
    have hexec := execHostLinkUp_eq rate width flit s
    split at hexec
    next htrain =>
      have hlink : (s.linkUp (linkValue rate.val width.val flit)).reg (okey 0x5140 2) = linkValue rate.val width.val flit :=
        State.reg_setReg_self _ _ _
      refine Ends.of_done hexec ⟨rfl, rfl, rfl⟩ ?_
      rw [if_pos htrain]
      refine ⟨hlink, ?_, rfl, rfl, fun v hv => ?_, fun k hk => State.reg_setReg_other _ _ _ _ hk⟩
      · obtain ⟨-, -, -, hrate, -⟩ := htrain
        rw [State.hostUp, State.ob, hlink, bits_linkValue flit rate.isLt width.isLt]
        exact decide_eq_true hrate
      · exact List.mem_append_right _ (List.mem_map_of_mem (List.mem_reverse.mpr hv))
    next hstay =>
      exact Ends.of_done hexec ⟨rfl, rfl, rfl⟩ (by rw [if_neg hstay])
  case doe =>
    intro s req offset len pss hash hup hserves chain put ok
    obtain ⟨hdiscovery, hversion, hcaps, hnegotiate, hdigests, hcert, hchallenge, hmeasure⟩ :=
      doe_answers s req offset len pss hash hup hserves
    exact ⟨Ends.of_done hdiscovery ⟨rfl, rfl, rfl⟩ rfl, Ends.of_done hversion ⟨rfl, rfl, rfl⟩ rfl,
      Ends.of_done hcaps ⟨rfl, rfl, rfl⟩ rfl, Ends.of_done hnegotiate ⟨rfl, rfl, rfl⟩ ⟨rfl, rfl⟩,
      Ends.of_done hdigests ⟨rfl, rfl, rfl⟩ rfl, Ends.of_done hcert ⟨rfl, rfl, rfl⟩ rfl,
      Ends.of_done hchallenge ⟨rfl, rfl, rfl⟩ rfl, Ends.of_done hmeasure ⟨rfl, rfl, rfl⟩ rfl⟩
  case segment =>
    intro s target req
    exact ⟨Ends.of_done rfl (by split <;> exact ⟨rfl, rfl, rfl⟩) rfl,
      Ends.of_done rfl (by split <;> exact ⟨rfl, rfl, rfl⟩) rfl⟩

end Sys2Proof.Machine
end

section
/-! SUPPORT. The elements with infinities (R145, R146): a word is its sign, exponent and fraction, and each of the three
kinds of word that are no NaN is written as it was read. -/

namespace Sys2Proof

open Sys2Proof.Machine

/-- A word is its three fields (R145). -/
theorem FltFmt.word_of_fields {f : FltFmt} {v : Nat} (he : 0 < f.ebits) (hv : v < 2 ^ (1 + f.ebits + f.fbits)) :
    b2n (bit v (f.ebits + f.fbits)) * 2 ^ (f.ebits + f.fbits) +
      (bits v (f.ebits + f.fbits - 1) f.fbits * 2 ^ f.fbits + v % 2 ^ f.fbits) = v := by
  have hwidth : f.ebits + f.fbits - 1 + 1 - f.fbits = f.ebits := by omega
  have hsign : b2n (bit v (f.ebits + f.fbits)) = v / 2 ^ f.fbits / 2 ^ f.ebits := by
    have hlt : v / 2 ^ (f.ebits + f.fbits) < 2 :=
      Nat.div_lt_of_lt_mul (by rwa [Nat.mul_comm, ← Nat.pow_succ', Nat.succ_eq_one_add, ← Nat.add_assoc])
    rw [Nat.div_div_eq_div_mul, ← Nat.pow_add, Nat.add_comm f.fbits, bit, Nat.testBit_eq_decide_div_mod_eq,
      Nat.mod_eq_of_lt hlt]
    generalize v / 2 ^ (f.ebits + f.fbits) = q at hlt
    obtain rfl | rfl : q = 0 ∨ q = 1 := by omega
    · rfl
    · rfl
  calc b2n (bit v (f.ebits + f.fbits)) * 2 ^ (f.ebits + f.fbits) +
        (bits v (f.ebits + f.fbits - 1) f.fbits * 2 ^ f.fbits + v % 2 ^ f.fbits)
      = 2 ^ f.fbits * (2 ^ f.ebits * (v / 2 ^ f.fbits / 2 ^ f.ebits) + v / 2 ^ f.fbits % 2 ^ f.ebits) + v % 2 ^ f.fbits := by
        rw [hsign, bits, hwidth, Nat.shiftRight_eq_div_pow, Nat.pow_add]
        simp only [Nat.mul_add, Nat.add_assoc, Nat.mul_comm, Nat.mul_left_comm]
    _ = v := by rw [Nat.div_add_mod, Nat.div_add_mod]

/-- Zero and a subnormal: the count of least quanta is the fraction. -/
theorem FltFmt.encode_subnormal {f : FltFmt} (s : Bool) {m : Nat} (hm : m < 2 ^ f.fbits) :
    f.encode (.fin s m (f.emin - f.fbits)) = b2n s * 2 ^ (f.ebits + f.fbits) + m := by
  rw [FltFmt.encode]
  split
  next h0 => rw [h0, Nat.add_zero]
  next h0 =>
    have hlog : Nat.log2 m < f.fbits := (Nat.log2_lt h0).2 hm
    rw [if_pos (by omega), Int.sub_self]
    rfl

/-- A normal value: the hidden bit is dropped, and the exponent is biased. -/
theorem FltFmt.encode_normal {f : FltFmt} (s : Bool) {x r : Nat} (hx : 0 < x) (hr : r < 2 ^ f.fbits) :
    f.encode (.fin s (2 ^ f.fbits + r) ((x : Int) - f.bias - f.fbits)) =
      b2n s * 2 ^ (f.ebits + f.fbits) + (x * 2 ^ f.fbits + r) := by
  have hpos : 2 ^ f.fbits + r ≠ 0 := by have := Nat.two_pow_pos f.fbits; omega
  have hlog : Nat.log2 (2 ^ f.fbits + r) = f.fbits :=
    (Nat.log2_eq_iff hpos).2 ⟨Nat.le_add_right _ _, by rw [Nat.pow_succ]; omega⟩
  have hexp : (f.fbits : Int) + (x - f.bias - f.fbits) = x - f.bias := by omega
  have hnormal : ¬ (x : Int) - f.bias < f.emin := by rw [FltFmt.emin]; omega
  have hfrac : shl (2 ^ f.fbits + r) 0 % 2 ^ f.fbits = r := by
    rw [show shl (2 ^ f.fbits + r) 0 = 2 ^ f.fbits + r from rfl, Nat.add_mod_left, Nat.mod_eq_of_lt hr]
  rw [FltFmt.encode, if_neg hpos]
  simp only [hlog, hexp]
  rw [if_neg hnormal, Int.sub_self, hfrac, Int.sub_add_cancel, Int.toNat_natCast, Nat.add_assoc]

/-- In every format with an exponent field, whatever its widths and bias. -/
theorem FltFmt.encode_decode {f : FltFmt} {v : Nat} (he : 0 < f.ebits) (hv : v < 2 ^ (1 + f.ebits + f.fbits))
    (hnan : f.decode v ≠ .nan) : f.encode (f.decode v) = v := by
  have hword := f.word_of_fields he hv
  have hr : v % 2 ^ f.fbits < 2 ^ f.fbits := Nat.mod_lt _ (Nat.two_pow_pos _)
  rw [FltFmt.decode] at hnan ⊢
  generalize bit v (f.ebits + f.fbits) = s at *
  generalize bits v (f.ebits + f.fbits - 1) f.fbits = x at *
  by_cases htop : x = 2 ^ f.ebits - 1
  · by_cases hzero : v % 2 ^ f.fbits = 0
    · rw [if_pos htop, if_pos hzero]
      rwa [htop, hzero] at hword
    · exact absurd (by rw [if_pos htop, if_neg hzero]) hnan
  · rw [if_neg htop]
    by_cases hzero : x = 0
    · rw [if_pos hzero, FltFmt.encode_subnormal s hr]
      rwa [hzero, Nat.zero_mul, Nat.zero_add] at hword
    · rw [if_neg hzero, FltFmt.encode_normal s (Nat.pos_of_ne_zero hzero) hr, hword]

/-- Settles O9: each of the four formats has an exponent field. -/
theorem floatRoundTrip : Obligations.FloatRoundTrip := by
  intro f hf v hv hnan
  have he : ∀ g ∈ [f64, f32, f16, bf16], 0 < g.ebits := by decide
  exact FltFmt.encode_decode (he f hf) hv hnan

end Sys2Proof
end

section
/-! SUPPORT. The plate check (R158): dividing by the polynomial bit by bit, highest power first, is the model's reflected register
with its bits reversed. -/

namespace Sys2Proof.Machine

open Sys2Proof

/-! ### Remainders by the polynomial, over the field of two elements -/

/-- Taking away shifted copies of the CRC-32C polynomial makes `b` of `a`. -/
def CrcReduces (a b : Nat) : Prop := ∃ shifts : List Nat, shifts.foldl (fun a i => a ^^^ (0x11EDC6F41 <<< i)) a = b

theorem CrcReduces.refl (a : Nat) : CrcReduces a a := ⟨[], rfl⟩

theorem CrcReduces.trans {a b c : Nat} (h : CrcReduces a b) (h' : CrcReduces b c) : CrcReduces a c := by
  obtain ⟨p, rfl⟩ := h
  obtain ⟨q, rfl⟩ := h'
  exact ⟨p ++ q, List.foldl_append ..⟩

theorem CrcReduces.shiftLeft {a b : Nat} (h : CrcReduces a b) (n : Nat) : CrcReduces (a <<< n) (b <<< n) := by
  obtain ⟨p, rfl⟩ := h
  refine ⟨p.map (· + n), ?_⟩
  induction p generalizing a with
  | nil => rfl
  | cons i p ih => rw [List.map_cons, List.foldl_cons, List.foldl_cons, ← ih, Nat.shiftLeft_xor_distrib, Nat.shiftLeft_add]

theorem xor_swap_right (a b c : Nat) : a ^^^ b ^^^ c = a ^^^ c ^^^ b := by
  rw [Nat.xor_assoc, Nat.xor_comm b c, Nat.xor_assoc]

theorem CrcReduces.xor {a b : Nat} (h : CrcReduces a b) (c : Nat) : CrcReduces (a ^^^ c) (b ^^^ c) := by
  obtain ⟨p, rfl⟩ := h
  refine ⟨p, ?_⟩
  induction p generalizing a with
  | nil => rfl
  | cons i p ih => rw [List.foldl_cons, List.foldl_cons, ← ih, xor_swap_right]

/-! ### One bit -/

/-- A remainder times x, reduced again. -/
def crcTimesX (r : BitVec 32) : BitVec 32 := if r.msb then (r <<< 1) ^^^ 0x1EDC6F41#32 else r <<< 1

theorem crcReduces_timesX (r : BitVec 32) : CrcReduces (r.toNat <<< 1) (crcTimesX r).toNat := by
  unfold crcTimesX
  by_cases hr : r.msb = true
  · have htop : r.toNat <<< 1 / 2 ^ 32 = 1 := by
      rw [BitVec.msb_eq_decide, decide_eq_true_eq] at hr
      omega
    refine ⟨[0], ?_⟩
    calc r.toNat <<< 1 ^^^ 0x11EDC6F41
        = 2 ^ 32 * ((r.toNat <<< 1 ^^^ 0x11EDC6F41) / 2 ^ 32) + (r.toNat <<< 1 ^^^ 0x11EDC6F41) % 2 ^ 32 :=
          (Nat.div_add_mod ..).symm
      _ = (r.toNat <<< 1 % 2 ^ 32) ^^^ 0x1EDC6F41 := by
          rw [Nat.xor_div_two_pow, Nat.xor_mod_two_pow, htop]
          simp
      _ = (if r.msb = true then (r <<< 1) ^^^ 0x1EDC6F41#32 else r <<< 1).toNat := by
          rw [if_pos hr, BitVec.toNat_xor, BitVec.toNat_shiftLeft]
          rfl
  · have hlow : r.toNat <<< 1 < 2 ^ 32 := by
      rw [BitVec.msb_eq_decide, decide_eq_true_eq] at hr
      omega
    rw [if_neg hr, BitVec.toNat_shiftLeft, Nat.mod_eq_of_lt hlow]
    exact CrcReduces.refl _

theorem crcReduces_timesX_repeat (n : Nat) (r : BitVec 32) : CrcReduces (r.toNat <<< n) (Nat.repeat crcTimesX n r).toNat := by
  induction n with
  | zero => exact CrcReduces.refl _
  | succ n ih =>
    rw [Nat.shiftLeft_add]
    exact (ih.shiftLeft 1).trans (crcReduces_timesX _)

theorem reverse_xor {w : Nat} (x y : BitVec w) : (x ^^^ y).reverse = x.reverse ^^^ y.reverse := by
  ext i hi
  simp [BitVec.getElem_reverse]

theorem reverse_shiftLeft {w : Nat} (x : BitVec w) (n : Nat) : (x <<< n).reverse = x.reverse >>> n := by
  ext i hi
  simp [BitVec.getElem_reverse, BitVec.getLsbD_reverse, Nat.add_comm]

/-- The reflected register holds the remainder with its bits reversed. -/
def crcReflected (r : BitVec 32) : Nat := r.reverse.toNat

theorem crcReflected_xor (x y : BitVec 32) : crcReflected (x ^^^ y) = crcReflected x ^^^ crcReflected y := by
  rw [crcReflected, reverse_xor, BitVec.toNat_xor, crcReflected, crcReflected]

theorem crcReflected_timesTwo (x : BitVec 32) : crcReflected (x <<< 1) = crcReflected x >>> 1 := by
  rw [crcReflected, reverse_shiftLeft, BitVec.toNat_ushiftRight, crcReflected]

/-- The model's constant is the polynomial without its highest power, reflected. -/
theorem crcReflected_polynomial : crcReflected 0x1EDC6F41#32 = 0x82F63B78 := by decide +kernel

theorem crcBit_reflected (r : BitVec 32) : crcBit (crcReflected r) = crcReflected (crcTimesX r) := by
  have hlow : crcReflected r % 2 = 1 ↔ r.msb = true := by
    rw [crcReflected, BitVec.msb, ← BitVec.getLsbD_reverse, BitVec.getLsbD, Nat.testBit_zero, decide_eq_true_eq]
  rw [crcBit, crcTimesX]
  by_cases hr : r.msb = true
  · rw [if_pos (hlow.2 hr), if_pos hr, crcReflected_xor, crcReflected_timesTwo, crcReflected_polynomial]
  · rw [if_neg (mt hlow.1 hr), if_neg hr, crcReflected_timesTwo]

theorem repeat_crcBit_reflected (n : Nat) (r : BitVec 32) :
    Nat.repeat crcBit n (crcReflected r) = crcReflected (Nat.repeat crcTimesX n r) := by
  induction n with
  | zero => rfl
  | succ n ih => rw [Nat.repeat, ih, crcBit_reflected, Nat.repeat]

/-! ### One byte -/

/-- The next byte of the message, its first bit at the highest power. -/
def crcByteIn (b : Byte) : BitVec 32 := b.reverse.setWidth 32 <<< 24

theorem crcByteIn_toNat (b : Byte) : (crcByteIn b).toNat = b.reverse.toNat <<< 24 := by
  have hb := b.reverse.isLt
  rw [crcByteIn, BitVec.toNat_shiftLeft, BitVec.toNat_setWidth]
  omega

theorem crcByteIn_reflected (b : Byte) : crcReflected (crcByteIn b) = b.toNat := by
  have hb : (crcByteIn b).reverse = b.setWidth 32 := by
    ext i hi
    simp [crcByteIn, BitVec.getElem_reverse, BitVec.getMsbD_setWidth, BitVec.getMsbD_reverse]
  rw [crcReflected, hb, BitVec.toNat_setWidth, Nat.mod_eq_of_lt (Nat.lt_trans b.isLt (by decide))]

/-- The remainder after one more byte of the message. -/
def crcTakeByte (r : BitVec 32) (b : Byte) : BitVec 32 := Nat.repeat crcTimesX 8 (r ^^^ crcByteIn b)

theorem crcByte_reflected (r : BitVec 32) (b : Byte) : crcByte (crcReflected r) b = crcReflected (crcTakeByte r b) := by
  have hin : crcReflected r ^^^ b.toNat = crcReflected (r ^^^ crcByteIn b) := by
    rw [crcReflected_xor, crcByteIn_reflected]
  calc crcByte (crcReflected r) b = Nat.repeat crcBit 8 (crcReflected r ^^^ b.toNat) := rfl
    _ = crcReflected (crcTakeByte r b) := by rw [hin, crcTakeByte, repeat_crcBit_reflected]

theorem foldl_crcByte_reflected (bs : Bytes) (r : BitVec 32) :
    bs.foldl crcByte (crcReflected r) = crcReflected (bs.foldl crcTakeByte r) := by
  induction bs generalizing r with
  | nil => rfl
  | cons b bs ih => rw [List.foldl_cons, List.foldl_cons, crcByte_reflected, ih]

/-! ### The whole message -/

/-- The dividend of R158 for a reflected message of `len` bytes: the message times x^32, its first 32 bits inverted. -/
def crcDividend (message len : Nat) : Nat := (message <<< 32) ^^^ (0xFFFFFFFF <<< (8 * len))

theorem mul_add_eq_xor (a : Nat) {r : Nat} (hr : r < 2 ^ 8) : a * 256 + r = a <<< 8 ^^^ r := by
  have hdiv : (a <<< 8 ^^^ r) / 2 ^ 8 = a := by
    rw [Nat.xor_div_two_pow, Nat.div_eq_of_lt hr, Nat.xor_zero]
    omega
  have hmod : (a <<< 8 ^^^ r) % 2 ^ 8 = r := by
    rw [Nat.xor_mod_two_pow, Nat.mod_eq_of_lt hr, Nat.shiftLeft_eq, Nat.mul_mod_left, Nat.zero_xor]
  omega

theorem crcDividend_byte (message len : Nat) (b : Byte) :
    crcDividend (message * 256 + b.reverse.toNat) (len + 1) = (crcDividend message len ^^^ (crcByteIn b).toNat) <<< 8 := by
  simp only [crcDividend, crcByteIn_toNat, mul_add_eq_xor message b.reverse.isLt, Nat.mul_add, Nat.shiftLeft_xor_distrib,
    ← Nat.shiftLeft_add, Nat.reduceAdd, Nat.reduceMul]
  exact xor_swap_right ..

theorem crcDividend_reduces {message len : Nat} {r : BitVec 32} (bs : Bytes) (h : CrcReduces (crcDividend message len) r.toNat) :
    CrcReduces (crcDividend (bs.foldl (fun a (b : Byte) => a * 256 + b.reverse.toNat) message) (len + bs.length))
      (bs.foldl crcTakeByte r).toNat := by
  induction bs generalizing message len r with
  | nil => exact h
  | cons b bs ih =>
    have hbyte : CrcReduces (crcDividend (message * 256 + b.reverse.toNat) (len + 1)) (crcTakeByte r b).toNat := by
      rw [crcDividend_byte]
      refine ((h.xor _).shiftLeft 8).trans ?_
      rw [← BitVec.toNat_xor]
      exact crcReduces_timesX_repeat 8 _
    rw [List.foldl_cons, List.foldl_cons, List.length_cons, Nat.add_comm bs.length, ← Nat.add_assoc]
    exact ih hbyte

/-- Settles O40: the check value is computed, a plate's body has its length by its parts, and the register's reflection is the
remainder. -/
theorem plateCheckIsCrc32c : Obligations.PlateCheckIsCrc32c := by
  refine ⟨by decide +kernel, fun p => ⟨?length, rfl⟩, fun bs => ?_⟩
  case length => simp only [Plate.body, List.length_append, leBytes_length]
  have hstart : CrcReduces (crcDividend 0 0) (BitVec.allOnes 32).toNat := CrcReduces.refl _
  obtain ⟨quotient, hrem⟩ := crcDividend_reduces bs hstart
  rw [Nat.zero_add] at hrem
  refine ⟨quotient, _, hrem, ?_⟩
  have hones : (0xFFFFFFFF : Nat) = crcReflected (BitVec.allOnes 32) := by decide +kernel
  rw [crc32c, hones, foldl_crcByte_reflected]
  rfl

end Sys2Proof.Machine
end

section
/-! SUPPORT. A plate that a context asked for (R239–R251, R270–R277): what its records and its tag leave alone, and what a memory
error makes of its stream. -/

namespace Sys2Proof

open Sys2Proof.Machine

/-! ### Events and the records of a plate leave memory and its pages alone -/

theorem Machine.ctxDie_lt (k : Nat) : ctxDie k < 32 := Nat.mod_lt _ (by decide)

theorem Told.fullTrace (s : State) {t : Nat} (ht : t < 32) (g e kind op layer a0 a1 : Nat) :
    Told s (s.fullTrace t g e kind op layer a0 a1) := by
  unfold State.fullTrace
  split
  · exact (Told.bump s _ _ (eventKey_buffer t 3 ht (by decide))).trans (Told.writeTrace _ _ ht _)
  · exact Told.refl s

theorem Told.tagRecords (s : State) (c : Cmd) (k addr : Nat) (tag : Option Nat) : Told s (s.tagRecords c k addr tag) := by
  unfold State.tagRecords
  dsimp only
  split
  · exact (Told.fullTrace s (ctxDie_lt k) ..).trans (Told.fullTrace _ (ctxDie_lt k) ..)
  · exact Told.refl s

theorem Machine.plateAt_congr {s t : State} (p : Place) (hwild : t.page.wild = s.page.wild) (hmem : t.mem = s.mem) :
    t.plateAt p = s.plateAt p := by
  simp only [State.plateAt, State.wildAt, State.loadNat, State.load, hwild, hmem]

theorem Told.page_eq {s t : State} (h : Told s t) : t.page = s.page := by
  have hpage := congrArg State.page h.rest
  exact hpage

theorem Told.physLine {s t : State} (h : Told s t) (a : Nat) : t.physLine a = s.physLine a := by
  rw [State.physLine, State.physLine, State.entryAt, State.entryAt, h.page_eq]

theorem Told.lineErr {s t : State} (h : Told s t) (a : Nat) : t.lineErr a = s.lineErr a := by
  simp only [State.lineErr, h.page_eq]

theorem Told.plateAt {s t : State} (h : Told s t) (p : Place) : t.plateAt p = s.plateAt p := by
  obtain ⟨-, -, hmem⟩ := h.kept
  exact plateAt_congr p (by rw [h.page_eq]) hmem

namespace Machine

/-! ### What runs beside the streams -/

/-- The objects that hold the tick, the step with its epoch, and the module's own ID. -/
def isClockKey (k : Nat) : Bool := [0x3100, 0x5000, 0x5100].contains (k / 256)

/-- The commands, the contexts and the step in progress are as before, and so is the time. -/
structure Aside (s t : State) : Prop where
  cmds : t.cmds = s.cmds
  ctxs : t.ctxs = s.ctxs
  step : t.step = s.step
  objs : ∀ k, isClockKey k = true → t.reg k = s.reg k

theorem Aside.refl (s : State) : Aside s s := ⟨rfl, rfl, rfl, fun _ _ => rfl⟩

theorem Aside.trans {s t u : State} (h : Aside s t) (h' : Aside t u) : Aside s u :=
  ⟨h'.cmds.trans h.cmds, h'.ctxs.trans h.ctxs, h'.step.trans h.step, fun k hk => (h'.objs k hk).trans (h.objs k hk)⟩

theorem Aside.bump (s : State) {k : Nat} (n : Nat) (hk : isClockKey k = false) : Aside s (s.bump k n) :=
  ⟨rfl, rfl, rfl, fun j hj => s.reg_bump_other k j n fun h => by rw [h, hk] at hj; cases hj⟩

theorem not_eventKey_of_clock {k : Nat} (hk : isClockKey k = true) : ¬ eventKey k := by
  simp only [isClockKey, List.contains_iff_mem, List.mem_cons, List.not_mem_nil, or_false] at hk
  unfold eventKey
  omega

theorem Aside.of_told {s t : State} (h : Told s t) : Aside s t := by
  have hcmds := congrArg State.cmds h.rest
  have hctxs := congrArg State.ctxs h.rest
  have hstep := congrArg State.step h.rest
  exact ⟨hcmds, hctxs, hstep, fun k hk => h.objs k (not_eventKey_of_clock hk)⟩

theorem Aside.foldl {α : Type} (f : State → α → State) (l : List α) (s : State) (h : ∀ s a, Aside s (f s a)) :
    Aside s (l.foldl f s) := by
  induction l generalizing s with
  | nil => exact Aside.refl s
  | cons a l ih => exact (h s a).trans (ih _)

section
variable {s t : State} (h : Aside s t)
include h

theorem Aside.ctx (k : Nat) : t.ctx k = s.ctx k := by rw [State.ctx, State.ctx, h.ctxs, h.step]

theorem Aside.tickNo : t.tickNo = s.tickNo := h.objs _ (by decide)

theorem Aside.userOf (k : Nat) : t.userOf k = s.userOf k := by
  rw [State.userOf, State.userOf, State.users, State.users, h.cmds]

theorem Aside.remote (x : Tensor) : t.remote x = s.remote x := by
  rw [State.remote, State.remote, State.moduleId, State.moduleId, State.ob, State.ob, h.objs _ (by decide)]

theorem Aside.stale (p : Plate) : t.stale p = s.stale p := by
  rw [State.stale, State.stale, State.epoch, State.epoch, State.ob, State.ob, h.objs _ (by decide)]

end

/-! ### Tallies, tags and memory errors run beside the streams -/

theorem Aside.traceCmd (s : State) (c : Cmd) (kind a0 a1 : Nat) : Aside s (s.traceCmd c kind a0 a1) :=
  Aside.of_told (Told.trace ..)

theorem Aside.tally (s : State) (c : Cmd) (ev n : Nat) : Aside s (s.tally c ev n) := by
  unfold State.tally State.tallyCmd
  split
  · refine Aside.foldl _ _ _ fun u _ => ?_
    dsimp only
    split
    · exact ⟨rfl, rfl, rfl, fun _ _ => rfl⟩
    · exact Aside.refl u
  · exact Aside.refl s

theorem Aside.sendDrift (s : State) (type : Nat) (m : DriftMsg) (plates : List Bytes) (r : Option Rider) :
    Aside s (s.sendDrift type m plates r) := by
  unfold State.sendDrift
  split
  · exact Aside.refl s
  · exact ⟨rfl, rfl, rfl, fun _ _ => rfl⟩

theorem Aside.setEngine (s : State) (e : Nat) (x : EngineSt) : Aside s (s.setEngine e x) := ⟨rfl, rfl, rfl, fun _ _ => rfl⟩

theorem Aside.setRtag (s : State) (e n : Nat) (x : RTag) : Aside s (s.setRtag e n x) := ⟨rfl, rfl, rfl, fun _ _ => rfl⟩

theorem Aside.tagWait (s : State) : Aside s s.tagWait := Aside.bump s _ (by decide)

theorem Aside.sendPlate (s : State) (k addr : Nat) (b : Bytes) : Aside s (s.sendPlate k addr b) := by
  unfold State.sendPlate
  dsimp only
  split
  · exact (Aside.setEngine ..).trans (Aside.tagWait _)
  · exact (Aside.setRtag ..).trans (Aside.sendDrift ..)

theorem Aside.askPlate (s : State) (k addr : Nat) : Aside s (s.askPlate k addr) := by
  unfold State.askPlate
  dsimp only
  split
  · exact Aside.refl s
  · exact (Aside.setRtag ..).trans (Aside.sendDrift ..)

theorem Aside.askRemote (s : State) (k : Nat) : Aside s (s.askRemote k) := by
  unfold State.askRemote
  have hask := Aside.foldl (fun s a => s.askPlate k a) (s.toAsk k) s fun s a => Aside.askPlate s k a
  dsimp only
  split
  · exact hask
  · exact hask.trans (Aside.tagWait _)

/-- A tag that is free again is taken by another request, of no concern to the streams themselves (R241, R251). -/
theorem Aside.freeRtag (s : State) (e n : Nat) : Aside s (s.freeRtag e n) := by
  refine (Aside.setRtag s e n ⟨(s.rtag e n).reuse + 1, none⟩).trans ?_
  unfold State.freeRtag
  dsimp only
  split
  · exact (Aside.setEngine ..).trans (Aside.sendPlate ..)
  · exact Aside.foldl _ _ _ fun u p => Aside.askRemote u p.1

theorem Aside.setPage (s : State) (p : PageSt) : Aside s { s with page := p } := ⟨rfl, rfl, rfl, fun _ _ => rfl⟩

theorem Aside.countUe (s : State) (f : Nat × Nat × Nat) : Aside s (s.countUe f) := by
  have htier : isClockKey (if f.1 = 0 then okey 0x4430 2 else okey 0x4430 4) = false := by split <;> decide
  unfold State.countUe
  extract_lets _ _ _ paged counted
  have hcount : Aside s counted := (Aside.setPage s _).trans (Aside.bump paged 1 htier)
  split
  · exact (hcount.trans (Aside.setPage _ _)).trans ((Aside.bump _ 1 (by decide)).trans (Aside.of_told (State.raise_told ..)))
  · exact hcount

theorem Aside.foundUe (s : State) (f : Nat × Nat × Nat) (line : Nat) : Aside s (s.foundUe f line) := by
  unfold State.foundUe
  split
  · extract_lets _ kept _ recorded
    have hkept : Aside s kept := Aside.setPage s _
    split
    · exact hkept
    · refine hkept.trans (Aside.trans ?_ (Aside.countUe recorded f))
      show Aside kept (if _ then _ else kept)
      split
      · exact Aside.setPage kept _
      · exact Aside.refl kept
  · exact (Aside.setPage s _).trans (Aside.countUe _ f)

theorem Aside.memUe (s : State) (addr : Nat) : Aside s (s.memUe addr) :=
  (Aside.foundUe s _ _).trans (Aside.of_told (State.raise_told ..))

theorem Aside.stopeUe (s : State) (k byte : Nat) : Aside s (s.stopeUe k byte) := by
  unfold State.stopeUe
  dsimp only
  split
  · exact Aside.setPage s _
  · exact Aside.setPage s _

theorem Aside.setArray (s : State) (k : Nat) (x : ArraySt) : Aside s (s.setArray k x) := ⟨rfl, rfl, rfl, fun _ _ => rfl⟩

theorem Aside.stopBath (s : State) (c : Cmd) : Aside s (s.stopBath c) := by
  unfold State.stopBath
  dsimp only
  split
  · exact Aside.setArray ..
  · exact (((Aside.setArray ..).trans (Aside.bump _ 1 (by decide))).trans (Aside.bump _ _ (by decide))).trans
      ((Aside.tally ..).trans (Aside.traceCmd ..))

/-! ### A memory error halts the stream -/

/-- What a stop leaves in the array is no concern of the streams, and of the command it changes the progress alone (R246). -/
theorem stopWork_cases (s : State) (c : Cmd) (begun : Bool) (fault : Option (Nat × Nat)) :
    ∃ u made saved, s.stopWork c begun fault = (u, { c with made := made, saved := saved }) ∧ Aside s u := by
  unfold State.stopWork
  dsimp only
  split
  · exact ⟨s, c.made, c.saved, rfl, Aside.refl s⟩
  split
  · exact ⟨_, _, _, rfl, (Aside.stopBath s c).trans (Aside.setArray ..)⟩
  · exact ⟨s, _, c.saved, rfl, Aside.refl s⟩

theorem cmd?_setCmd_self {s : State} {x : Cmd} (c : Cmd) (hx : x ∈ s.cmds) (hq : c.q = x.q) (hslot : c.slot = x.slot) :
    (s.setCmd c).cmd? x.q x.slot = some c := by
  rw [← hq, ← hslot]
  have hin : c ∈ (s.setCmd c).cmds := List.mem_map.2 ⟨x, hx, if_pos ⟨hq.symm, hslot.symm⟩⟩
  have hsome : ((s.setCmd c).cmd? c.q c.slot).isSome := List.find?_isSome.2 ⟨c, hin, by simp⟩
  obtain ⟨y, hy⟩ := Option.isSome_iff_exists.1 hsome
  obtain ⟨z, -, rfl⟩ := List.mem_map.1 (List.mem_of_find?_eq_some hy)
  have hkey := List.find?_some hy
  by_cases hz : z.q = c.q ∧ z.slot = c.slot
  · rw [hy, if_pos hz]
  · rw [if_neg hz] at hkey
    exact absurd (of_decide_eq_true hkey) hz

/-- One context of a command `c` that halts: `hit` is the one that records the cause (R246, R247). -/
def State.haltCtx (c : Cmd) (hit : Nat) (cause : Cause) (s : State) (b : Nat × Nat) : State :=
  let x := { s.stopCtx c b.1 with state := .halted, reserved := 0 }
  (s.unwant b.1).setCtx b.1 (if b.1 = hit then { x with causes := if x.causes.any (fun k => decide (k = cause)) then x.causes
                                                     else cause :: x.causes } else x)

/-- The command as a halt leaves it in its place (R246). -/
def Cmd.haltedIn (c : Cmd) (s : State) : Cmd :=
  { c with phase := .halted, haltTick := some (c.haltTick.getD s.tickNo), consumed := c.consumed + s.elapsed c s.tick.now }

/-- What a halt counts before the work stops. -/
def State.haltCounted (s : State) (c : Cmd) : State :=
  if c.phase = .halted then s else (s.bump (okey 0x4130 1) 1).tally c 0x10 1

/-- A halt: it is counted, the work stops, each context halts, and the command stands halted in its place. -/
theorem haltCmd_eq {s u : State} {c c' : Cmd} {hit : Nat} {cause : Cause} {fault : Option (Nat × Nat)}
    (h : (s.haltCounted c).stopWork c ((s.haltCounted c).begun c) fault = (u, c')) :
    s.haltCmd c hit cause fault =
      let v := c'.bound.foldl (State.haltCtx c' hit cause) u
      let w := (v.setCmd (c'.haltedIn v)).freeEngine c'
      w.traceCmd c' 5 hit (highestCause (w.ctx hit).causes) := by
  rw [State.haltCounted] at h
  unfold State.haltCmd
  dsimp only
  rw [h]
  rfl

/-- The context shows HALTED with the cause (R245). -/
def Halted (k : Nat) (cause : Cause) (s : State) : Prop := cause ∈ (s.ctx k).causes ∧ (s.ctx k).state = .halted

theorem Halted.of_aside {s t : State} {k : Nat} {cause : Cause} (h : Halted k cause s) (ht : Aside s t) : Halted k cause t := by
  rwa [Halted, ht.ctx]

theorem haltCtx_self (c : Cmd) (cause : Cause) (s : State) (b : Nat × Nat) : Halted b.1 cause (s.haltCtx c b.1 cause b) := by
  unfold Halted State.haltCtx
  rw [State.ctx_setCtx_self, if_pos rfl]
  refine ⟨?_, rfl⟩
  dsimp only
  split
  next h => simpa using h
  next => exact List.mem_cons_self ..

theorem Halted.haltCtx {s : State} {hit : Nat} {cause : Cause} (h : Halted hit cause s) (c : Cmd) (b : Nat × Nat) :
    Halted hit cause (s.haltCtx c hit cause b) := by
  by_cases hb : b.1 = hit
  · subst hb
    exact haltCtx_self c cause s b
  · have hctx : (s.haltCtx c hit cause b).ctx hit = s.ctx hit := State.ctx_setCtx_other _ _ _ _ (Ne.symm hb)
    rwa [Halted, hctx]

/-- Once every context of a command has halted, the one that was hit shows the cause. -/
theorem halted_foldl {c : Cmd} {hit : Nat} {cause : Cause} {l : List (Nat × Nat)} (s : State)
    (h : Halted hit cause s ∨ ∃ b ∈ l, b.1 = hit) : Halted hit cause (l.foldl (State.haltCtx c hit cause) s) := by
  induction l generalizing s with
  | nil => exact h.resolve_right (by simp)
  | cons a l ih =>
    refine ih _ ?_
    obtain h | ⟨b, hb, rfl⟩ := h
    · exact .inl (h.haltCtx c a)
    · obtain rfl | hb := List.mem_cons.1 hb
      · exact .inl (haltCtx_self c cause s b)
      · exact .inr ⟨b, hb, rfl⟩

theorem Aside.haltCounted (s : State) (c : Cmd) : Aside s (s.haltCounted c) := by
  unfold State.haltCounted
  split
  · exact Aside.refl s
  · exact (Aside.bump s 1 (by decide)).trans (Aside.tally ..)

/-- The command in its place in flight, with the descriptor and the first tick of its halt that `c` stands for. -/
structure StoppedAs (c : Cmd) (tick : Nat) (c' : Cmd) : Prop where
  q        : c'.q = c.q
  slot     : c'.slot = c.slot
  desc     : c'.desc = c.desc
  haltTick : c'.haltTick = some (c.haltTick.getD tick)

/-- A halt: the command is in its place, halted since this tick if it was not before, and the context hit shows the cause. -/
theorem haltCmd_halts {s : State} {c : Cmd} {hit : Nat} (cause : Cause) (fault : Option (Nat × Nat)) (hc : c ∈ s.cmds)
    (hhit : ∃ b ∈ c.bound, b.1 = hit) :
    (∃ c', (s.haltCmd c hit cause fault).cmd? c.q c.slot = some c' ∧ StoppedAs c s.tickNo c') ∧
      Halted hit cause (s.haltCmd c hit cause fault) := by
  obtain ⟨u, made, saved, hstop, hwork⟩ := stopWork_cases (s.haltCounted c) c ((s.haltCounted c).begun c) fault
  have hu : Aside s u := (Aside.haltCounted s c).trans hwork
  rw [haltCmd_eq hstop]
  generalize hc' : ({ c with made := made, saved := saved } : Cmd) = c'
  have hq : c'.q = c.q := by rw [← hc']
  have hslot : c'.slot = c.slot := by rw [← hc']
  extract_lets v w
  have hcmds : v.cmds = s.cmds := (foldl_keeps State.cmds (State.haltCtx _ hit cause) _ _ fun _ _ => rfl).trans hu.cmds
  have htick : v.tickNo = s.tickNo := (foldl_keeps State.tickNo (State.haltCtx _ hit cause) _ _ fun _ _ => rfl).trans hu.tickNo
  have htrace := Aside.traceCmd w c' 5 hit (highestCause (w.ctx hit).causes)
  refine ⟨⟨c'.haltedIn v, ?_, hq, hslot, ?_, ?_⟩, ?_⟩
  · rw [State.cmd?, htrace.cmds]
    exact cmd?_setCmd_self (s := v) (c'.haltedIn v) (hcmds ▸ hc) hq hslot
  · rw [← hc']
    rfl
  · rw [← htick, ← hc']
    rfl
  · have hv : Halted hit cause v := halted_foldl u (.inr (by rw [← hc']; exact hhit))
    exact Halted.of_aside (s := w) hv htrace

/-- The command to complete with DISCARDED_FOR_REPLAY (R249). -/
def Cmd.discarded (c : Cmd) : Cmd := { c with phase := .done, status := 0x23, worked := false }

theorem haltMemory_eq {s : State} {c c' : Cmd} {k addr : Nat}
    (h : (s.haltCmd c k .memory (some (k, addr))).cmd? c.q c.slot = some c') :
    s.haltMemory c k addr =
      (((s.haltCmd c k .memory (some (k, addr))).setCmd c'.discarded).postCause 5).raiseCmd c 0x4102 2 k (addrHi addr) := by
  unfold State.haltMemory
  dsimp only
  rw [h]
  rfl

/-- What becomes of a command whose stream met a memory error at a tick (R249): it is to complete with DISCARDED_FOR_REPLAY, the
context that met the error is halted with MEMORY, and the cause is posted. -/
def DiscardedForReplay (c : Cmd) (k tick : Nat) (t : State) : Prop :=
  (∃ c', t.cmd? c.q c.slot = some c' ∧ c'.phase = .done ∧ c'.status = 0x23 ∧ c'.worked = false ∧ c'.desc = c.desc ∧
    c'.haltTick = some (c.haltTick.getD tick)) ∧
  Cause.memory ∈ (t.ctx k).causes ∧ (t.ctx k).state = .halted ∧ bit t.step.causes 5 = true

theorem bit_postCause (s : State) (b : Nat) : bit (s.postCause b).step.causes b = true := by
  simp [bit, State.postCause, Nat.testBit_or, Nat.testBit_two_pow_self]

theorem haltMemory_discards {s : State} {c : Cmd} {k : Nat} (addr : Nat) (hc : c ∈ s.cmds) (hk : ∃ b ∈ c.bound, b.1 = k) :
    DiscardedForReplay c k s.tickNo (s.haltMemory c k addr) := by
  obtain ⟨⟨c', hfound, hq, hslot, hdesc, htick⟩, hcause, hstate⟩ := haltCmd_halts .memory (some (k, addr)) hc hk
  rw [haltMemory_eq hfound]
  generalize s.haltCmd c k .memory (some (k, addr)) = h at *
  have hraise : Aside ((h.setCmd c'.discarded).postCause 5) _ := Aside.of_told (State.raiseCmd_told _ c 0x4102 2 k (addrHi addr))
  refine ⟨⟨c'.discarded, ?_, rfl, rfl, rfl, hdesc, htick⟩, ?_, ?_, ?_⟩
  · rw [State.cmd?, hraise.cmds, ← hq, ← hslot]
    exact cmd?_setCmd_self c'.discarded (List.mem_of_find?_eq_some hfound) rfl rfl
  · rw [hraise.ctx]
    exact hcause
  · rw [hraise.ctx]
    exact hstate
  · rw [hraise.step]
    exact bit_postCause _ 5

/-! ### The replies -/

theorem userOf_spec {s : State} {k : Nat} {c : Cmd} (h : s.userOf k = some c) : c ∈ s.cmds ∧ ∃ b ∈ c.bound, b.1 = k := by
  obtain ⟨hin, huses⟩ := List.mem_filter.1 (List.mem_of_mem_head? h)
  obtain ⟨b, hb, hk⟩ := List.any_eq_true.1 (Bool.and_eq_true_iff.1 huses).2
  exact ⟨hin, b, hb, of_decide_eq_true hk⟩

/-- A memory error that a read finds is counted beside the streams, and then halts the one that read. -/
theorem DiscardedForReplay.of_aside {s t : State} {c : Cmd} {k : Nat} (addr : Nat) (h : Aside s t) (huser : s.userOf k = some c) :
    DiscardedForReplay c k s.tickNo (t.haltMemory c k addr) := by
  obtain ⟨hc, hk⟩ := userOf_spec huser
  rw [← h.tickNo]
  exact haltMemory_discards addr (h.cmds ▸ hc) hk

/-- A reply that is wanted, of this attempt and passes its check is kept for the command; its tag is free (R159, R239, R241). -/
theorem remoteReply_kept {s : State} {u : TagUse} {c : Cmd} {off : Nat} {b : Bytes} (e n : Nat)
    (huser : s.userOf u.ctx = some c) (hoff : lineOffset (ctxTensor (s.ctx u.ctx).desc) u.addr = some off)
    (hwant : u.want = true) (hremote : s.remote (ctxTensor (s.ctx u.ctx).desc) = true) (hphase : c.phase ≠ .done)
    (hstale : s.stale (Plate.ofBytes b 0) = false)
    (hcheck : plateCheck (ctxTensor (s.ctx u.ctx).desc).fmt none (lineInBlock (ctxTensor (s.ctx u.ctx).desc) off)
      (Plate.ofBytes b 0) = 0) :
    ∃ v, Aside s v ∧
      s.remoteReply e n u b = v.setCtx u.ctx { s.ctx u.ctx with got := SMap.put (s.ctx u.ctx).got u.addr b } := by
  have hfree : Aside s (s.freeRtag e n) := Aside.freeRtag s e n
  have hv : Aside s ((s.freeRtag e n).tagRecords c u.ctx u.addr (some n)) :=
    hfree.trans (Aside.of_told (Told.tagRecords _ _ _ _ _))
  refine ⟨_, hv, ?_⟩
  unfold State.remoteReply
  dsimp only
  rw [hfree.ctx, hfree.userOf, huser, hoff]
  dsimp only
  rw [if_neg (by simp [hwant, hv.remote, hremote, hphase]), hv.stale, hstale, if_neg Bool.false_ne_true, hcheck, hv.ctx]
  rfl

theorem State.sawWhere_kept (s : State) (p : Nat → Bool) :
    (s.sawWhere p).cmds = s.cmds ∧ (s.sawWhere p).ctxs = s.ctxs ∧ (s.sawWhere p).page.wild = s.page.wild :=
  ⟨foldl_keeps State.cmds _ _ _ fun _ _ => rfl, foldl_keeps State.ctxs _ _ _ fun _ _ => rfl,
    foldl_keeps (fun s => s.page.wild) _ _ _ fun _ _ => rfl⟩

/-- An uncorrectable error of a tier is counted and told, and halts the command (R249, R271). -/
theorem localRead_uncorrectable {s : State} {c : Cmd} {k addr off : Nat} {x : Tensor} {pl : Place} (hphase : c.phase ≠ .done)
    (hstope : x.stope = false) (hremote : s.remote x = false) (hline : s.physLine addr = some pl) :
    s.localRead c k addr .uncorrectable x off = (s.memUe addr).haltMemory c k addr := by
  simp only [State.localRead, if_neg hphase, hstope, hremote, hline, Bool.false_eq_true, if_false]

/-- A clean read of a tier that passes its checks lets the command run on (R159, R239). -/
theorem localRead_clean {s : State} {c : Cmd} {k addr off : Nat} {x : Tensor} {pl : Place} (hstope : x.stope = false)
    (hremote : s.remote x = false) (hline : s.physLine addr = some pl) (herr : s.lineErr pl.data = false)
    (hcheck : plateCheck x.fmt (some addr) (lineInBlock x off) (s.plateAt pl) = 0) :
    (s.localRead c k addr .clean x off).ctxs = s.ctxs ∧ (s.localRead c k addr .clean x off).cmds = s.cmds := by
  obtain ⟨hcmds, hctxs, hwild⟩ := s.sawWhere_kept fun k => decide (k = pl.data)
  unfold State.localRead
  by_cases hdone : c.phase = .done
  · rw [if_pos hdone]
    exact ⟨rfl, rfl⟩
  · simp only [if_neg hdone, hstope, hremote, hline, herr, Bool.false_eq_true, if_false, reduceCtorEq,
      plateAt_congr pl hwild (s.sawWhere_mem _), hcheck]
    exact ⟨hctxs, hcmds⟩

theorem plateReadReply_remote {s : State} {k addr e n : Nat} {r : RemReply} {u : TagUse} (ecc : Ecc)
    (htag : s.tagOf (streamReqId k r.tag.toNat r.reuse) = some (e, n, u)) (hctx : u.ctx = k) (haddr : u.addr = addr)
    (hwrite : u.write = false) : plateReadReply k addr ecc (some r) s = s.remoteReply e n u r.bytes := by
  show s.remoteRead k addr (s.tagOf (streamReqId k r.tag.toNat r.reuse)) r.bytes = _
  rw [htag]
  exact if_pos ⟨hctx, haddr, hwrite⟩

/-- A reply that no tag held answers to is discarded whole (R251). -/
theorem plateReadReply_unmatched {s : State} {k addr : Nat} {r : RemReply} (ecc : Ecc)
    (htag : s.tagOf (streamReqId k r.tag.toNat r.reuse) = none) : plateReadReply k addr ecc (some r) s = s := by
  show s.remoteRead k addr (s.tagOf (streamReqId k r.tag.toNat r.reuse)) r.bytes = s
  rw [htag]
  rfl

theorem plateReadReply_local {s : State} {k addr off : Nat} {c : Cmd} (ecc : Ecc) (huser : s.userOf k = some c)
    (hoff : lineOffset (ctxTensor (s.ctx k).desc) addr = some off) :
    plateReadReply k addr ecc none s =
      (s.tagRecords c k addr none).localRead c k addr ecc (ctxTensor (s.ctx k).desc) off := by
  simp only [plateReadReply, huser, hoff]

theorem not_eventKey_stopeCorrected (k : Nat) : ¬ eventKey (okey (0xA000 + 0x100 * ctxDie k + 0x70) 3) := by
  have hdie := ctxDie_lt k
  generalize ctxDie k = t at hdie
  unfold eventKey okey
  omega

/-- Settles O32, reply by reply: its records run beside the streams, and its error or its plate decides what follows. -/
theorem plateReplies : Obligations.PlateReplies := by
  intro s k addr ecc c off huser x t0 stops hoff
  have hrec : Told s (s.tagRecords c k.toNat addr.toNat none) := Told.tagRecords ..
  have haside := Aside.of_told hrec
  have hlocal (e : Ecc) := plateReadReply_local e huser hoff
  refine ⟨?link, ?noTag, ?clean, ?bad, ?stope⟩
  case link =>
    rintro r e n ⟨_, _, _, _, port⟩ htag rfl rfl rfl rfl hremote hphase hstale hcheck
    obtain ⟨v, hv, hreply⟩ := remoteReply_kept (u := ⟨k.toNat, addr.toNat, false, true, port⟩) e n huser hoff rfl hremote
      hphase hstale hcheck
    have hrun := (plateReadReply_remote ecc htag rfl rfl rfl).trans hreply
    refine ⟨_, congrArg (done s) hrun, State.ctx_setCtx_self .., hv.cmds, rfl, fun j hj => ?_⟩
    exact (State.ctx_setCtx_other _ _ _ _ hj).trans (hv.ctx j)
  case noTag =>
    intro r htag
    exact Ends.of_done (congrArg (done s) (plateReadReply_unmatched ecc htag)) ⟨rfl, rfl, rfl⟩ rfl
  case clean =>
    rintro pl hstope hremote hline rfl herr hcheck
    obtain ⟨hctxs, hcmds⟩ := localRead_clean (c := c) (k := k.toNat) hstope ((haside.remote t0).trans hremote)
      ((hrec.physLine _).trans hline) ((hrec.lineErr _).trans herr) (by rwa [hrec.plateAt])
    exact ⟨_, congrArg (done s) (hlocal .clean), hctxs.trans haside.ctxs, hcmds.trans haside.cmds⟩
  case bad =>
    rintro pl hstope hremote hline rfl hphase
    have hrun := (hlocal .uncorrectable).trans
      (localRead_uncorrectable hphase hstope ((haside.remote t0).trans hremote) ((hrec.physLine _).trans hline))
    exact ⟨_, congrArg (done s) hrun, DiscardedForReplay.of_aside addr.toNat (haside.trans (Aside.memUe ..)) huser⟩
  case stope =>
    intro hstope hphase
    have hrun := hlocal ecc
    unfold State.localRead at hrun
    rw [if_neg hphase, if_pos hstope] at hrun
    cases ecc with
    | clean => exact ⟨_, congrArg (done s) hrun, haside.ctxs, haside.cmds⟩
    | corrected =>
      refine Ends.of_done (congrArg (done s) hrun) hrec.kept ⟨haside.ctxs, haside.cmds, ?_⟩
      obtain ⟨-, hfuse, -⟩ := hrec.kept
      exact reg_bump_congr _ 1 (hrec.objs _ (not_eventKey_stopeCorrected _)) hfuse
    | uncorrectable =>
      exact ⟨_, congrArg (done s) hrun, DiscardedForReplay.of_aside addr.toNat (haside.trans (Aside.stopeUe ..)) huser⟩

end Machine
end Sys2Proof
end

section
/-! SUPPORT. A VERDICT (R199, R308–R310): what a commit leaves alone of the commands in flight and of a die's applied groups, the
entry of a dense group that is committed, and the die's hold area afterwards. -/

namespace Sys2Proof

open Sys2Proof.Machine

namespace Machine

/-! ### Fields of a number -/

theorem testBit_setBits {hi lo : Nat} (h : lo ≤ hi) (v x i : Nat) :
    (setBits v hi lo x).testBit i = if lo ≤ i ∧ i ≤ hi then x.testBit (i - lo) else v.testBit i := by
  have hlow : v % 2 ^ lo < 2 ^ lo := Nat.mod_lt _ (Nat.two_pow_pos lo)
  have hfield : (x % 2 ^ (hi + 1 - lo)) <<< lo < 2 ^ (hi + 1) := by
    have hx : x % 2 ^ (hi + 1 - lo) < 2 ^ (hi + 1 - lo) := Nat.mod_lt _ (Nat.two_pow_pos _)
    have hpow : 2 ^ (hi + 1) = 2 ^ (hi + 1 - lo) * 2 ^ lo := by rw [← Nat.pow_add, Nat.sub_add_cancel (by omega)]
    rw [Nat.shiftLeft_eq, hpow]
    exact Nat.mul_lt_mul_of_pos_right hx (Nat.two_pow_pos lo)
  have hrest := Nat.or_lt_two_pow hfield (Nat.lt_of_lt_of_le hlow (Nat.pow_le_pow_right (by decide) (by omega : lo ≤ hi + 1)))
  rw [setBits, Nat.add_assoc, Nat.shiftLeft_add_eq_or_of_lt hlow, Nat.shiftLeft_add_eq_or_of_lt hrest]
  simp only [Nat.testBit_or, Nat.testBit_shiftLeft, Nat.testBit_shiftRight, Nat.testBit_mod_two_pow]
  split
  next hin =>
    have h1 : ¬ hi + 1 ≤ i := by omega
    have h2 : ¬ i < lo := by omega
    have h3 : i - lo < hi + 1 - lo := by omega
    simp [h1, h2, h3, hin.1]
  next hout =>
    rcases Nat.lt_or_ge i lo with hbelow | habove
    · have h1 : ¬ hi + 1 ≤ i := by omega
      have h2 : ¬ lo ≤ i := by omega
      simp [h1, h2, hbelow]
    · have h1 : hi + 1 ≤ i := by omega
      have h2 : ¬ i < lo := by omega
      have h3 : ¬ i - lo < hi + 1 - lo := by omega
      simp [h1, h2, h3]

theorem testBit_bits (v hi lo i : Nat) : (bits v hi lo).testBit i = (decide (i < hi + 1 - lo) && v.testBit (lo + i)) := by
  rw [bits, Nat.testBit_mod_two_pow, Nat.testBit_shiftRight]

/-- A field that is set reads back, cut to its width. -/
theorem bits_setBits_self {hi lo : Nat} (h : lo ≤ hi) (v x : Nat) :
    bits (setBits v hi lo x) hi lo = x % 2 ^ (hi + 1 - lo) := by
  refine Nat.eq_of_testBit_eq fun i => ?_
  rw [testBit_bits, testBit_setBits h, Nat.testBit_mod_two_pow]
  by_cases hwidth : i < hi + 1 - lo
  · rw [if_pos (by omega), Nat.add_sub_cancel_left]
  · simp [hwidth]

/-- A field that does not overlap the one set reads as before. -/
theorem bits_setBits_other {hi lo hi' lo' : Nat} (h : lo ≤ hi) (hsep : hi' < lo ∨ hi < lo') (v x : Nat) :
    bits (setBits v hi lo x) hi' lo' = bits v hi' lo' := by
  refine Nat.eq_of_testBit_eq fun i => ?_
  rw [testBit_bits, testBit_bits, testBit_setBits h]
  by_cases hwidth : i < hi' + 1 - lo'
  · rw [if_neg (by omega)]
  · simp [hwidth]

theorem bit_setBits_other {hi lo i : Nat} (h : lo ≤ hi) (hsep : i < lo ∨ hi < i) (v x : Nat) :
    bit (setBits v hi lo x) i = bit v i := by
  rw [bit, bit, testBit_setBits h, if_neg (by omega)]

theorem setBits_lt {hi lo n v : Nat} (h : lo ≤ hi) (hn : hi < n) (hv : v < 2 ^ n) (x : Nat) : setBits v hi lo x < 2 ^ n := by
  refine Nat.lt_pow_two_of_testBit _ fun i hbeyond => ?_
  rw [testBit_setBits h, if_neg (by omega)]
  exact Nat.testBit_lt_two_pow (Nat.lt_of_lt_of_le hv (Nat.pow_le_pow_right (by decide) hbeyond))

/-! ### The group table of a Fixer die -/

theorem leNat_lt (bs : Bytes) : leNat bs < 256 ^ bs.length := by
  induction bs with
  | nil => decide
  | cons b t ih =>
    have hb := b.isLt
    rw [leNat, List.length_cons, Nat.pow_succ]
    omega

/-- A byte has 8 bits. -/
theorem pow_bytes (n : Nat) : 256 ^ n = 2 ^ (8 * n) := by
  rw [Nat.pow_mul]

theorem State.group_lt (s : State) (f g : Nat) : s.group f g < 2 ^ (8 * 128) := by
  have h := leNat_lt (s.domBytes (okey (0xC800 + 0x80 * f + 0x40) 1) (128 * g) 128)
  rwa [State.domBytes, List.length_map, List.length_range, pow_bytes] at h

section
variable (s : State) (f g e : Nat)

@[simp] theorem State.setGroup_pending : (s.setGroup f g e).pending = s.pending := rfl
@[simp] theorem State.setGroup_fuse : (s.setGroup f g e).fuse = s.fuse := rfl
@[simp] theorem State.setGroup_reg (k : Nat) : (s.setGroup f g e).reg k = s.reg k := rfl

end

theorem State.group_of_dom {s t : State} (h : t.dom = s.dom) (f g : Nat) : t.group f g = s.group f g := by
  simp only [State.group, State.domNat, State.domBytes, State.domByte, h]

theorem State.group_setGroup_self (s : State) (f g : Nat) {e : Nat} (he : e < 2 ^ (8 * 128)) : (s.setGroup f g e).group f g = e :=
  s.domNat_setDomNat_self _ _ _ e (Nat.lt_of_lt_of_eq he (pow_bytes 128).symm)

theorem State.group_setGroup_other (s : State) (f e : Nat) {g g' : Nat} (h : g' ≠ g) :
    (s.setGroup f g e).group f g' = s.group f g' :=
  s.domNat_setDomNat_other _ _ _ _ _ e (by omega)

/-! ### What a commit leaves alone -/

/-- The commands in flight are as before, and so are the groups that die `f` has applied. -/
structure CommitKeeps (f : Nat) (s t : State) : Prop where
  cmds    : t.cmds = s.cmds
  applied : (t.fixer f).applied = (s.fixer f).applied

namespace CommitKeeps

theorem refl (f : Nat) (s : State) : CommitKeeps f s s := ⟨rfl, rfl⟩

theorem trans {f : Nat} {s t u : State} (h : CommitKeeps f s t) (h' : CommitKeeps f t u) : CommitKeeps f s u :=
  ⟨h'.cmds.trans h.cmds, h'.applied.trans h.applied⟩

theorem of_fix (f : Nat) {s t : State} (hcmds : t.cmds = s.cmds) (hfix : t.fix = s.fix) : CommitKeeps f s t :=
  ⟨hcmds, by rw [State.fixer, State.fixer, hfix]⟩

theorem of_told (f : Nat) {s t : State} (h : Told s t) : CommitKeeps f s t := by
  have hcmds := congrArg State.cmds h.rest
  have hfix := congrArg State.fix h.rest
  exact of_fix f hcmds hfix

/-- A fold whose steps keep them, with what else it carries beside the state. -/
theorem foldl {α β : Type} {f : Nat} (state : β → State) (g : β → α → β) (l : List α) (x : β)
    (h : ∀ x a, CommitKeeps f (state x) (state (g x a))) : CommitKeeps f (state x) (state (l.foldl g x)) := by
  induction l generalizing x with
  | nil => exact refl f (state x)
  | cons a l ih => exact (h x a).trans (ih _)

theorem bump (f : Nat) (s : State) (k n : Nat) : CommitKeeps f s (s.bump k n) := ⟨rfl, rfl⟩

theorem setPage (f : Nat) (s : State) (p : PageSt) : CommitKeeps f s { s with page := p } := ⟨rfl, rfl⟩

/-! A memory error that a commit meets. -/

theorem countUe (f : Nat) (s : State) (x : Nat × Nat × Nat) : CommitKeeps f s (s.countUe x) := by
  unfold State.countUe
  extract_lets _ _ _ paged counted
  have hcounted : CommitKeeps f s counted := (setPage f s _).trans (bump f paged _ _)
  split
  · exact (hcounted.trans (setPage f _ _)).trans ((bump f _ _ _).trans (of_told f (State.raise_told ..)))
  · exact hcounted

theorem foundUe (f : Nat) (s : State) (x : Nat × Nat × Nat) (line : Nat) : CommitKeeps f s (s.foundUe x line) := by
  unfold State.foundUe
  split
  · extract_lets _ kept _ recorded
    have hkept : CommitKeeps f s kept := setPage f s _
    have hrecorded : CommitKeeps f kept recorded := by
      unfold recorded
      split
      · exact setPage f kept _
      · exact refl f kept
    split
    · exact hkept
    · exact (hkept.trans hrecorded).trans (countUe f recorded x)
  · exact (setPage f s _).trans (countUe f _ x)

theorem stopeUe (f : Nat) (s : State) (ctx byte : Nat) : CommitKeeps f s (s.stopeUe ctx byte) := by
  unfold State.stopeUe
  extract_lets _ _ _ kept
  split
  · exact setPage f s _
  · exact (setPage f s _).trans (setPage f kept _)

theorem badPlate (f : Nat) (s : State) (c : Cmd) (ctx addr check : Nat) : CommitKeeps f s (s.badPlate c ctx addr check) := by
  unfold State.badPlate
  split
  · exact (foundUe f s _ _).trans (of_told f (State.raise_told ..))
  · exact stopeUe f s ctx addr
  · exact (bump f s _ _).trans (of_told f (State.raiseCmd_told ..))
  · exact (bump f s _ _).trans (of_told f (State.raiseCmd_told ..))

theorem commitFault (f : Nat) (s : State) (c : Cmd) (bad : Nat × Nat) : CommitKeeps f s (s.commitFault c bad) := by
  unfold State.commitFault
  split
  · exact ⟨rfl, rfl⟩
  · exact (badPlate f s c 0 bad.1 bad.2).trans ⟨rfl, rfl⟩

/-! What it writes. -/

theorem tame (f : Nat) (s : State) (k : Nat) : CommitKeeps f s (s.tame k) := by
  unfold State.tame
  split
  · exact refl f s
  · exact setPage f s _

theorem putPlate (f : Nat) (s : State) (p : Place) (x : Plate) : CommitKeeps f s (s.putPlate p x) :=
  trans (t := ((((s.store p.data _).store p.margin _).store p.nugget _).healLines fun k => decide (k = p.data))) ⟨rfl, rfl⟩
    (tame f _ p.data)

theorem markDirty (f : Nat) (s : State) (a : Nat) : CommitKeeps f s (s.markDirty a) := by
  unfold State.markDirty
  dsimp only
  split
  · exact refl f s
  · split <;> exact setPage f s _

theorem writeFix (f : Nat) (s : State) (t : Tensor) (ps : List (Nat × Plate)) : CommitKeeps f s (s.writeFix t ps) := by
  refine foldl id _ _ _ fun s p => ?_
  split
  · exact refl f s
  · exact (putPlate f s _ _).trans (markDirty f _ _)

theorem changePlate (f : Nat) (s : State) (c : Cmd) (t : Tensor) (off : Nat) (g : Plate → Plate) :
    CommitKeeps f s (s.changePlate c t off g) := by
  unfold State.changePlate
  split
  · exact commitFault f s c _
  · exact writeFix f s t _

theorem putCopyRow (f : Nat) (s : State) (c : Cmd) (e : Nat) (h : HeldRow) : CommitKeeps f s (s.putCopyRow c e h) := by
  unfold State.putCopyRow
  dsimp only
  split
  · exact refl f s
  split
  · exact writeFix f s _ _
  · refine foldl id _ _ _ fun s p => ?_
    split
    · exact writeFix f s _ _
    · exact changePlate f s c _ _ _

theorem commitRow (f : Nat) (s : State) (c : Cmd) (e step : Nat) (h : HeldRow) : CommitKeeps f s (s.commitRow c e step h) := by
  unfold State.commitRow
  extract_lets _ hi lo moments copied _
  have hhi : CommitKeeps f s hi := writeFix f s _ _
  have hlo : CommitKeeps f hi lo := writeFix f hi _ _
  have hmoments : CommitKeeps f lo moments := by
    refine foldl id _ _ _ fun s p => ?_
    split
    · exact refl f s
    · exact (putPlate f s _ _).trans (markDirty f _ _)
  have hcopied : CommitKeeps f moments copied := putCopyRow f moments c e h
  exact (((hhi.trans hlo).trans hmoments).trans hcopied).trans ((changePlate f copied c _ _ _).trans (bump f _ _ _))

theorem copyCounts (f : Nat) (s : State) (o : Option TensorOut) : CommitKeeps f s (s.copyCounts o) := by
  cases o with
  | none => exact refl f s
  | some o =>
    unfold State.copyCounts State.convCounts
    dsimp only
    split <;> split <;> exact ⟨rfl, rfl⟩

theorem reformCopy (f : Nat) {s : State} {e sd fmt : Nat} {r : State × List Post} (h : s.reformCopy e sd fmt = .ok r) :
    CommitKeeps f s r.1 := by
  unfold State.reformCopy at h
  cases hhi : s.readFix (s.hiT e sd) (tensorLines (s.hiT e sd)) with
  | error b =>
    rw [hhi] at h
    cases h
  | ok his =>
    cases hlo : s.readFix (s.loT e sd) (tensorLines (s.loT e sd)) with
    | error b =>
      rw [hhi, hlo] at h
      cases h
    | ok los =>
      rw [hhi, hlo] at h
      cases h
      refine trans ?_ (copyCounts f _ _)
      split
      · exact refl f s
      · exact writeFix f s _ _

theorem setFixer {f : Nat} {s : State} {x : FixSt} (h : x.applied = (s.fixer f).applied) : CommitKeeps f s (s.setFixer f x) :=
  ⟨rfl, by rw [State.fixer_setFixer_self, h]⟩

theorem commitGroup (s : State) (c : Cmd) (f g fmt step : Nat) : CommitKeeps f s (s.commitGroup c f g fmt step).1 := by
  unfold State.commitGroup
  extract_lets _ rows marked _ _ stepped _ reformed
  have hrows : CommitKeeps f s rows := by
    unfold rows
    split
    · exact foldl id _ _ _ fun u h => (commitRow f u c _ step h).trans (setFixer rfl)
    · exact refl f s
  have hmarked : CommitKeeps f s marked := hrows.trans (setFixer rfl)
  have hstepped : CommitKeeps f s stepped := hmarked.trans ⟨rfl, rfl⟩
  split
  · have hreformed : CommitKeeps f stepped reformed.1 := by
      unfold reformed
      split
      next r hr => exact reformCopy f hr
      next b _ => exact commitFault f stepped c b
    exact hstepped.trans (hreformed.trans (bump f _ _ _))
  · exact hstepped

end CommitKeeps

/-! ### The entry of a dense group that is committed -/

/-- A dense group's entry at its commit (R308): the sides change roles, LAST_STEP is the step, and the count moves on. -/
def denseCommitted (e step : Nat) : Nat :=
  let swapped := setBits e 680 680 (1 - gSide e)
  setBits (setBits swapped 763 732 step) 731 700 (min (gUpdates swapped + 1) (2 ^ 32 - 1))

section
variable (e step : Nat)

theorem gSide_denseCommitted : gSide (denseCommitted e step) = 1 - gSide e := by
  rw [denseCommitted, gSide, bits_setBits_other (by decide) (by decide), bits_setBits_other (by decide) (by decide),
    bits_setBits_self (by decide), Nat.mod_eq_of_lt (by omega)]

theorem gLast_denseCommitted : gLast (denseCommitted e step) = step % 2 ^ 32 := by
  rw [denseCommitted, gLast, bits_setBits_other (by decide) (by decide), bits_setBits_self (by decide)]

theorem gUpdates_denseCommitted : gUpdates (denseCommitted e step) = min (gUpdates e + 1) (2 ^ 32 - 1) := by
  rw [denseCommitted, gUpdates, bits_setBits_self (by decide), Nat.mod_eq_of_lt (by omega), gUpdates, gUpdates,
    bits_setBits_other (by decide) (by decide)]

theorem gHi_denseCommitted : gHi (denseCommitted e step) = gHi e := by
  rw [denseCommitted, gHi, bits_setBits_other (by decide) (by decide), bits_setBits_other (by decide) (by decide),
    bits_setBits_other (by decide) (by decide), gHi]

theorem gFollow_denseCommitted : gFollow (denseCommitted e step) = gFollow e := by
  rw [denseCommitted, gFollow, bit_setBits_other (by decide) (by decide), bit_setBits_other (by decide) (by decide),
    bit_setBits_other (by decide) (by decide), gFollow]

theorem denseCommitted_lt (he : e < 2 ^ (8 * 128)) : denseCommitted e step < 2 ^ (8 * 128) :=
  setBits_lt (by decide) (by decide) (setBits_lt (by decide) (by decide) (setBits_lt (by decide) (by decide) he _) _) _

end

/-- A dense group whose copy does not follow a layer is committed in its entry alone, and counted (R308). -/
theorem commitGroup_dense {s : State} {f g : Nat} (c : Cmd) (fmt step : Nat) (hdense : gTouched (s.group f g) = false)
    (hown : gFollow (s.group f g) = false) :
    s.commitGroup c f g fmt step =
      (((s.setFixer f ((s.fixer f).changed g)).setGroup f g (denseCommitted (s.group f g) step)).bump (okey 0x6050 1) 1,
        []) := by
  have hfollow : gFollow (denseCommitted (s.group f g) step) = false := (gFollow_denseCommitted _ _).trans hown
  unfold denseCommitted at hfollow ⊢
  simp only [State.commitGroup, hdense, Bool.false_eq_true, if_false, hfollow, false_and]

/-! ### The commit of a die -/

theorem applyFreezes_fix (s : State) (f step : Nat) :
    (s.applyFreezes f step).fix = (s.setFixer f { s.fixer f with freezes := [] }).fix :=
  foldl_keeps State.fix _ _ _ fun _ _ => rfl

theorem applyFreezes_cmds (s : State) (f step : Nat) : (s.applyFreezes f step).cmds = s.cmds :=
  foldl_keeps State.cmds _ _ _ fun _ _ => rfl

theorem applyFreezes_fixer (s : State) (f step : Nat) :
    (s.applyFreezes f step).fixer f = { s.fixer f with freezes := [] } := by
  rw [State.fixer, applyFreezes_fix]
  exact s.fixer_setFixer_self f _

theorem applyFreezes_none {s : State} {f : Nat} (step : Nat) (h : (s.fixer f).freezes = []) :
    s.applyFreezes f step = s.setFixer f { s.fixer f with freezes := [] } := by
  rw [State.applyFreezes, h, List.foldl_nil]

theorem clearHolds_fixer (s : State) (f : Nat) : (s.clearHolds f).fixer f = { s.fixer f with holds := [] } :=
  s.fixer_setFixer_self f _

section
variable (s : State) (f : Nat)

@[simp] theorem clearHolds_pending : (s.clearHolds f).pending = s.pending := rfl
@[simp] theorem clearHolds_fuse : (s.clearHolds f).fuse = s.fuse := rfl
@[simp] theorem clearHolds_dom : (s.clearHolds f).dom = s.dom := rfl

end

/-- What a discard leaves of a die (R309). -/
theorem discarded_die (s : State) (f : Nat) (l : List (Nat × Nat × Nat)) :
    let x := ((s.setFixer f { s.fixer f with applied := l }).clearHolds f).fixer f
    x.applied = l ∧ x.holds = [] ∧ x.freezes = (s.fixer f).freezes := by
  rw [clearHolds_fixer, State.fixer_setFixer_self]
  exact ⟨rfl, rfl, rfl⟩

/-- The hold area's objects are a die's own (R37). -/
theorem clearHolds_reg (s : State) (f : Nat) {i sub : Nat} (hi : i < 0xA000) (hsub : sub < 256) :
    (s.clearHolds f).reg (okey i sub) = s.reg (okey i sub) := by
  have hown (o n : Nat) (hn : n < 256) : okey i sub ≠ dkeyOf (Die.ofIx (48 + f)) o n := fun h => by
    have hindex := (okey_inj _ _ _ _ hsub hn h).1
    have hbase := le_die_base (Die.ofIx (48 + f))
    omega
  unfold State.clearHolds
  rw [State.reg_setReg_other _ _ _ _ (hown 0x41 2 (by decide)), State.reg_setReg_other _ _ _ _ (hown 0x41 1 (by decide)),
    State.setFixer_reg]

/-- A commit empties what the die has applied, holds and is to freeze, and leaves the commands in flight alone (R296, R308). -/
theorem commitDie_empties (s : State) (c : Cmd) (f step : Nat) :
    let t := (s.commitDie c f step).1
    (t.fixer f).applied = [] ∧ (t.fixer f).holds = [] ∧ (t.fixer f).freezes = [] ∧ t.cmds = s.cmds := by
  unfold State.commitDie
  extract_lets groups _ emptied r t
  have hemptied : (emptied.fixer f).applied = [] := by rw [State.fixer_setFixer_self]
  have hr : CommitKeeps f emptied r.1 :=
    CommitKeeps.foldl Prod.fst _ groups (emptied, []) fun r a => CommitKeeps.commitGroup r.1 c f a.1 a.2.1 step
  have hcmds : t.cmds = s.cmds := (applyFreezes_cmds r.1 f step).trans hr.cmds
  have hdie : t.fixer f = _ := clearHolds_fixer (r.1.applyFreezes f step) f
  rw [applyFreezes_fixer] at hdie
  rw [hdie]
  exact ⟨hr.applied.trans hemptied, rfl, rfl, hcmds⟩

section
variable {s : State} {f g fmt step : Nat} (c : Cmd)
  (happlied : ((s.fixer f).applied.filter fun a => decide (a.2.2 = step)) = [(g, fmt, step)])
  (hfreezes : (s.fixer f).freezes = []) (hdense : gTouched (s.group f g) = false) (hown : gFollow (s.group f g) = false)
include happlied hfreezes hdense hown

/-- A commit of one dense group alone, with no freeze waiting, writes its entry and counts it (R308). -/
theorem commitDie_dense : ∃ x y z, (s.commitDie c f step).1 =
    (((((s.setFixer f x).setFixer f y).setGroup f g (denseCommitted (s.group f g) step)).bump (okey 0x6050 1) 1).setFixer f
      z).clearHolds f := by
  unfold State.commitDie
  rw [happlied]
  extract_lets groups _ emptied r
  have hentry : emptied.group f g = s.group f g := State.group_of_dom rfl f g
  have hr : r.1 = (emptied.commitGroup c f g fmt step).1 := rfl
  rw [commitGroup_dense c fmt step (hentry ▸ hdense) (hentry ▸ hown), hentry] at hr
  have hnone : (r.1.fixer f).freezes = [] := by
    rw [hr]
    refine (congrArg FixSt.freezes (emptied.fixer_setFixer_self f _)).trans ?_
    exact (congrArg FixSt.freezes (s.fixer_setFixer_self f _)).trans hfreezes
  exact ⟨_, _, _, by rw [applyFreezes_none step hnone, hr]⟩

/-- It copies no weight, and touches no other entry (R291). -/
theorem commitDie_dense_frame :
    let t := (s.commitDie c f step).1
    t.pending = s.pending ∧ t.fuse = s.fuse ∧ t.mem = s.mem ∧
      t.group f g = denseCommitted (s.group f g) step ∧ (∀ g', g' ≠ g → t.group f g' = s.group f g') ∧
      t.reg (okey 0x6050 1) = (s.bump (okey 0x6050 1) 1).reg (okey 0x6050 1) := by
  obtain ⟨x, y, z, ht⟩ := commitDie_dense c happlied hfreezes hdense hown
  have hlt := denseCommitted_lt _ step (s.group_lt f g)
  rw [ht]
  generalize denseCommitted (s.group f g) step = e at hlt
  have hdom : ((((((s.setFixer f x).setFixer f y).setGroup f g e).bump (okey 0x6050 1) 1).setFixer f z).clearHolds f).dom =
      (s.setGroup f g e).dom := by
    simp [State.setGroup, State.setDomNat]
  refine ⟨by simp, by simp, by simp, ?_, fun g' hg' => ?_, ?_⟩
  · rw [State.group_of_dom hdom, State.group_setGroup_self _ _ _ hlt]
  · rw [State.group_of_dom hdom, State.group_setGroup_other _ _ _ hg']
  · rw [clearHolds_reg _ f (by decide) (by decide), State.setFixer_reg]
    exact reg_bump_congr _ 1 (by simp) (by simp)

end

/-- No UPDATE is in flight on the die: none is lost (R310). -/
theorem loseUpdates_none {s : State} {f : Nat} (step : Nat)
    (h : ∀ x ∈ s.cmds, dOpcode x.desc = opUpdate → s.qDie x.q ≠ Die.ofIx (48 + f)) : s.loseUpdates f step = s := by
  have hnone : (s.cmds.filter fun c => c.active && decide (dOpcode c.desc = opUpdate ∧ dStep c.desc = step) &&
      decide (s.qDie c.q = Die.ofIx (48 + f))) = [] := by
    refine List.filter_eq_nil_iff.2 fun x hx hlost => ?_
    simp only [Bool.and_eq_true, decide_eq_true_eq] at hlost
    obtain ⟨⟨-, hupdate, -⟩, hdie⟩ := hlost
    exact h x hx hupdate hdie
  rw [State.loseUpdates, State.eachCmd, hnone, List.foldl_nil]

/-! ### The work of a VERDICT -/

theorem running_spec {s : State} {q slot op : Nat} {c : Cmd} (h : s.running q slot op = some c) :
    c ∈ s.cmds ∧ c.q = q ∧ c.slot = slot := by
  have hfound : s.cmd? q slot = some c := (Option.filter_eq_some_iff.1 h).1
  have hkey := List.find?_some hfound
  exact ⟨List.mem_of_find?_eq_some hfound, of_decide_eq_true hkey⟩

/-- The command that runs is replaced by what it has become. -/
theorem cmd?_setCmd_running {s t : State} {q slot op : Nat} {c : Cmd} (h : s.running q slot op = some c)
    (hcmds : t.cmds = s.cmds) (c' : Cmd) (hq : c'.q = c.q) (hslot : c'.slot = c.slot) :
    (t.setCmd c').cmd? q slot = some c' := by
  obtain ⟨hin, rfl, rfl⟩ := running_spec h
  exact cmd?_setCmd_self c' (hcmds ▸ hin) hq hslot

section
variable {s : State} {q slot : Nat} {c : Cmd} (hrun : s.running q slot opVerdict = some c)
include hrun

theorem verdictWork_commits (hpass : c.passes = vPass) (hfree : s.verdictWaits (s.fixOf c) = false) :
    s.verdictWork q slot =
      let r := (s.loseUpdates (s.fixOf c) (dStep c.desc)).commitDie c (s.fixOf c) (dStep c.desc)
      r.1.setCmd { c with worked := true, posts := c.posts ++ r.2 } := by
  simp [State.verdictWork, hrun, hpass, hfree]

theorem verdictWork_waits (hpass : c.passes = vPass) (hwaits : s.verdictWaits (s.fixOf c) = true) :
    s.verdictWork q slot = s := by
  simp [State.verdictWork, hrun, hpass, hwaits]

theorem verdictWork_discards (hother : c.passes ≠ vPass) :
    s.verdictWork q slot =
      ((s.setFixer (s.fixOf c) { s.fixer (s.fixOf c) with
        applied := (s.fixer (s.fixOf c)).applied.filter fun a => !decide (a.2.2 = dStep c.desc) }).clearHolds
          (s.fixOf c)).setCmd { c with worked := true } := by
  simp only [State.verdictWork, hrun, if_neg hother]

end

end Machine

/-- A VERDICT ends in what its work leaves. -/
theorem Ends.of_verdictWork {s b : State} {q : Fin 128} {slot : BitVec 32} {P : State → Prop}
    (hwork : s.verdictWork q.val slot.toNat = b) (hP : P { b with pending := s.pending, fuse := s.fuse }) :
    Ends (.verdict q slot) s P :=
  ⟨_, congrArg (doneMem s) hwork, hP⟩

/-- Settles O43: the four outcomes of a VERDICT. -/
theorem verdictsCommitOrDiscard : Obligations.VerdictsCommitOrDiscard := by
  intro s q slot c hrun f
  refine ⟨fun hpass hfree => ?commits, fun hpass hwaits => ?waits, ?entry, fun hother => ?discards⟩
  case commits =>
    have hwork := verdictWork_commits hrun hpass hfree
    obtain ⟨happlied, hholds, hfreezes, hcmds⟩ := commitDie_empties (s.loseUpdates f (dStep c.desc)) c f (dStep c.desc)
    generalize (s.loseUpdates f (dStep c.desc)).commitDie c f (dStep c.desc) = r at *
    refine Ends.of_verdictWork hwork ⟨happlied, hholds, hfreezes, fun hnone => ⟨r.2, ?_⟩⟩
    rw [loseUpdates_none _ hnone] at hcmds
    exact cmd?_setCmd_running hrun hcmds _ rfl rfl
  case waits =>
    exact Ends.of_verdictWork (verdictWork_waits hrun hpass hwaits) rfl
  case entry =>
    intro hpass hfree hfreezes hnone g fmt _ happlied hdense hown
    obtain ⟨hpending, hfuse, hmem, hentry, hothers, hcount⟩ := commitDie_dense_frame c happlied hfreezes hdense hown
    have hwork := verdictWork_commits hrun hpass hfree
    rw [loseUpdates_none _ hnone] at hwork
    have hstep : dStep c.desc % 2 ^ 32 = dStep c.desc := Nat.mod_mod ..
    generalize s.commitDie c f (dStep c.desc) = r at *
    refine Ends.of_doneMem (congrArg (doneMem s) hwork) ⟨hpending, hfuse⟩ ?_
    intro e e'
    have he' : e' = denseCommitted e (dStep c.desc) := (State.group_of_dom rfl f g).trans hentry
    rw [he']
    exact ⟨gSide_denseCommitted .., (gLast_denseCommitted ..).trans hstep, gUpdates_denseCommitted .., gHi_denseCommitted ..,
      fun g' _ hg' => (State.group_of_dom rfl f g').trans (hothers g' hg'), hmem, hcount⟩
  case discards =>
    refine Ends.of_verdictWork (verdictWork_discards hrun hother) ⟨cmd?_setCmd_running hrun rfl _ rfl rfl, rfl, rfl, ?_⟩
    exact discarded_die s f _

end Sys2Proof
end

section
/-! SUPPORT. What a stop of a stream does to its commands and contexts, and what it leaves alone (R245–R251): pages, the reuse
counts of remote tags, the counts of deadlocks and time-outs. -/

namespace Sys2Proof

open Sys2Proof.Machine

namespace Machine

/-! ### Commands in flight -/

theorem cmd?_spec {s : State} {q slot : Nat} {c : Cmd} (h : s.cmd? q slot = some c) : c ∈ s.cmds ∧ c.q = q ∧ c.slot = slot :=
  ⟨List.mem_of_find?_eq_some h, by simpa using List.find?_some h⟩

theorem cmd?_of_replaced {s t : State} {c d : Cmd} (h : t.cmds = (s.setCmd d).cmds) (hc : c ∈ s.cmds) (hq : d.q = c.q)
    (hslot : d.slot = c.slot) : t.cmd? c.q c.slot = some d :=
  (congrArg (List.find? _) h).trans (cmd?_setCmd_self d hc hq hslot)

theorem cmd?_setCmd_other (s : State) {c : Cmd} {q slot : Nat} (h : ¬ (q = c.q ∧ slot = c.slot)) :
    (s.setCmd c).cmd? q slot = s.cmd? q slot := by
  unfold State.cmd? State.setCmd
  induction s.cmds with
  | nil => rfl
  | cons x l ih =>
    rw [List.map_cons, List.find?_cons, List.find?_cons, ih]
    by_cases hx : x.q = c.q ∧ x.slot = c.slot
    · have hold : decide (x.q = q ∧ x.slot = slot) = false := by
        rw [hx.1, hx.2]
        exact decide_eq_false fun hc => h ⟨hc.1.symm, hc.2.symm⟩
      have hnew : decide (c.q = q ∧ c.slot = slot) = false := by rwa [hx.1, hx.2] at hold
      rw [if_pos hx, hold, hnew]
    · rw [if_neg hx]

theorem userOf_eq_find? (s : State) (k : Nat) : s.userOf k = s.cmds.find? fun c => c.active && c.names k := List.head?_filter ..

/-- The command in progress of a context stays the one in progress as it is replaced. -/
theorem userOf_setCmd {s : State} {k : Nat} {c : Cmd} (d : Cmd) (h : s.userOf k = some c) (hq : d.q = c.q)
    (hslot : d.slot = c.slot) (huses : (d.active && d.names k) = true) : (s.setCmd d).userOf k = some d := by
  rw [userOf_eq_find?] at h ⊢
  rw [State.setCmd_cmds]
  generalize s.cmds = l at h ⊢
  induction l with
  | nil => cases h
  | cons x l ih =>
    rw [List.find?_cons] at h
    rw [List.map_cons, List.find?_cons]
    by_cases hx : x.q = d.q ∧ x.slot = d.slot
    · rw [if_pos hx, huses]
    · rw [if_neg hx]
      cases hp : x.active && x.names k with
      | true =>
        rw [hp] at h
        cases h
        exact absurd ⟨hq.symm, hslot.symm⟩ hx
      | false =>
        rw [hp] at h
        exact ih h

theorem userOf_uses {s : State} {k : Nat} {c : Cmd} (h : s.userOf k = some c) : (c.active && c.names k) = true := by
  rw [userOf_eq_find?] at h
  exact List.find?_some (p := fun c : Cmd => c.active && c.names k) h

/-! ### What a stop leaves alone -/

/-- The counts of deadlocks found and of remote tags that ran out of time. -/
def isStreamCount (k : Nat) : Bool := [okey 0x4130 2, okey 0x4130 6].contains k

/-- The queue, the fuses, the pages, the reuse counts of remote tags and the counts of deadlocks and time-outs are as before. -/
structure StopFrame (s t : State) : Prop where
  pending : t.pending = s.pending
  fuse    : t.fuse = s.fuse
  page    : t.page = s.page
  reuse   : ∀ e n, (t.rtag e n).reuse = (s.rtag e n).reuse
  objs    : ∀ k, isStreamCount k = true → t.reg k = s.reg k

namespace StopFrame

theorem refl (s : State) : StopFrame s s := ⟨rfl, rfl, rfl, fun _ _ => rfl, fun _ _ => rfl⟩

theorem trans {s t u : State} (h : StopFrame s t) (h' : StopFrame t u) : StopFrame s u :=
  ⟨h'.pending.trans h.pending, h'.fuse.trans h.fuse, h'.page.trans h.page, fun e n => (h'.reuse e n).trans (h.reuse e n),
    fun k hk => (h'.objs k hk).trans (h.objs k hk)⟩

theorem foldl {α : Type} (f : State → α → State) (l : List α) (s : State) (h : ∀ s a, StopFrame s (f s a)) :
    StopFrame s (l.foldl f s) := by
  induction l generalizing s with
  | nil => exact refl s
  | cons a l ih => exact (h s a).trans (ih _)

theorem bump (s : State) {k : Nat} (n : Nat) (hk : isStreamCount k = false) : StopFrame s (s.bump k n) :=
  ⟨rfl, rfl, rfl, fun _ _ => rfl, fun j hj => s.reg_bump_other k j n fun h => by rw [h, hk] at hj; cases hj⟩

theorem not_eventKey {k : Nat} (hk : isStreamCount k = true) : ¬ eventKey k := by
  simp only [isStreamCount, List.contains_iff_mem, List.mem_cons, List.not_mem_nil, or_false] at hk
  unfold eventKey
  unfold okey at hk
  omega

theorem of_told {s t : State} (h : Told s t) : StopFrame s t := by
  obtain ⟨hq, hf, -⟩ := h.kept
  have heng := congrArg State.eng h.rest
  exact ⟨hq, hf, h.page_eq, fun e n => by rw [State.rtag, State.rtag, State.engine, State.engine, heng],
    fun k hk => h.objs k (not_eventKey hk)⟩

theorem setCtx (s : State) (k : Nat) (x : Ctx) : StopFrame s (s.setCtx k x) := ⟨rfl, rfl, rfl, fun _ _ => rfl, fun _ _ => rfl⟩

theorem setCmd (s : State) (c : Cmd) : StopFrame s (s.setCmd c) := ⟨rfl, rfl, rfl, fun _ _ => rfl, fun _ _ => rfl⟩

theorem setArray (s : State) (k : Nat) (x : ArraySt) : StopFrame s (s.setArray k x) :=
  ⟨rfl, rfl, rfl, fun _ _ => rfl, fun _ _ => rfl⟩

theorem traceCmd (s : State) (c : Cmd) (kind a0 a1 : Nat) : StopFrame s (s.traceCmd c kind a0 a1) := of_told (Told.trace ..)

theorem tally (s : State) (c : Cmd) (ev n : Nat) : StopFrame s (s.tally c ev n) := by
  unfold State.tally State.tallyCmd
  split
  · refine foldl _ _ _ fun u _ => ?_
    dsimp only
    split
    · exact ⟨rfl, rfl, rfl, fun _ _ => rfl, fun _ _ => rfl⟩
    · exact refl u
  · exact refl s

/-! Remote tags. -/

/-- An engine whose tags keep their reuse counts. -/
theorem setEngine {s : State} {e : Nat} {x : EngineSt} (h : ∀ n, (SMap.get RTag.fresh x.rtags n).reuse = (s.rtag e n).reuse) :
    StopFrame s (s.setEngine e x) := by
  refine ⟨rfl, rfl, rfl, fun e' n => ?_, fun _ _ => rfl⟩
  by_cases he : e' = e
  · subst he
    rw [State.rtag, State.engine_setEngine_self, h]
  · rw [State.rtag, State.engine_setEngine_other _ _ _ _ he, State.rtag]

theorem setUnsent (s : State) (e : Nat) (l : List (Nat × Nat × Bytes)) :
    StopFrame s (s.setEngine e { s.engine e with unsent := l }) := setEngine fun _ => rfl

theorem freeEngine (s : State) (c : Cmd) : StopFrame s (s.freeEngine c) := setEngine fun _ => rfl

/-- A tag that is held for something else keeps its reuse count. -/
theorem setUse (s : State) (e n : Nat) (u : Option TagUse) : StopFrame s (s.setRtag e n ⟨(s.rtag e n).reuse, u⟩) := by
  refine setEngine fun m => ?_
  by_cases hm : m = n
  · subst hm
    rw [SMap.get_put_self]
  · rw [SMap.get_put_other _ _ _ _ _ hm, State.rtag]

theorem sendDrift (s : State) (type : Nat) (m : DriftMsg) (plates : List Bytes) (r : Option Rider) :
    StopFrame s (s.sendDrift type m plates r) := by
  unfold State.sendDrift
  split
  · exact refl s
  · exact ⟨rfl, rfl, rfl, fun _ _ => rfl, fun _ _ => rfl⟩

theorem tagWait (s : State) : StopFrame s s.tagWait := bump s _ (by decide)

theorem sendPlate (s : State) (k addr : Nat) (b : Bytes) : StopFrame s (s.sendPlate k addr b) := by
  unfold State.sendPlate
  dsimp only
  split
  · exact (setUnsent ..).trans (tagWait _)
  · exact (setUse ..).trans (sendDrift ..)

theorem askPlate (s : State) (k addr : Nat) : StopFrame s (s.askPlate k addr) := by
  unfold State.askPlate
  dsimp only
  split
  · exact refl s
  · exact (setUse ..).trans (sendDrift ..)

theorem askRemote (s : State) (k : Nat) : StopFrame s (s.askRemote k) := by
  unfold State.askRemote
  have hask := foldl (fun s a => s.askPlate k a) (s.toAsk k) s fun s a => askPlate s k a
  dsimp only
  split
  · exact hask
  · exact hask.trans (tagWait _)

end StopFrame

/-- A tag held for a plate of a context that is wanted no more (R247). -/
def RTag.unwanted (r : RTag) (k : Nat) : RTag :=
  { r with use := r.use.map fun u => if u.ctx = k ∧ u.write = false then { u with want := false } else u }

/-- Changing every listed value changes the value at each key. -/
theorem get?_map_snd {α β : Type} (f : α → β) (m : List (Nat × α)) (k : Nat) :
    SMap.get? (m.map fun p => (p.1, f p.2)) k = (SMap.get? m k).map f := by
  induction m with
  | nil => rfl
  | cons p m ih =>
    obtain ⟨a, v⟩ := p
    rw [List.map_cons, SMap.get?, SMap.get?, ih]
    split <;> rfl

theorem StopFrame.unwant (s : State) (k : Nat) : StopFrame s (s.unwant k) := by
  refine StopFrame.setEngine fun n => ?_
  have hget := get?_map_snd (fun r : RTag => r.unwanted k) (s.engine (streamKey k)).rtags n
  have hnow := congrArg (fun o => (Option.getD o RTag.fresh).reuse) hget
  refine hnow.trans ?_
  rw [State.rtag, SMap.get]
  cases SMap.get? (s.engine (streamKey k)).rtags n with
  | none => rfl
  | some r => rfl

theorem rtag_setRtag_self (s : State) (e n : Nat) (x : RTag) : (s.setRtag e n x).rtag e n = x := by
  rw [State.rtag, State.setRtag, State.engine_setEngine_self, SMap.get_put_self]

/-- The tag that is free again is the one whose reuse count moves on; whoever takes it next leaves the count (R241, R251). -/
theorem freeRtag_frame (s : State) (e n : Nat) :
    StopFrame (s.setRtag e n ⟨(s.rtag e n).reuse + 1, none⟩) (s.freeRtag e n) := by
  unfold State.freeRtag
  dsimp only
  split
  · exact (StopFrame.setUnsent ..).trans (StopFrame.sendPlate ..)
  · exact StopFrame.foldl _ _ _ fun u p => StopFrame.askRemote u p.1

/-! ### A halt -/

theorem StopFrame.stopBath (s : State) (c : Cmd) : StopFrame s (s.stopBath c) := by
  unfold State.stopBath
  dsimp only
  split
  · exact StopFrame.setArray ..
  · exact (((StopFrame.setArray ..).trans (StopFrame.bump _ 1 (by decide))).trans (StopFrame.bump _ _ (by decide))).trans
      ((StopFrame.tally ..).trans (StopFrame.traceCmd ..))

theorem StopFrame.stopWork (s : State) (c : Cmd) (begun : Bool) (fault : Option (Nat × Nat)) :
    StopFrame s (s.stopWork c begun fault).1 := by
  unfold State.stopWork
  dsimp only
  split
  · exact StopFrame.refl s
  split
  · exact (StopFrame.stopBath s c).trans (StopFrame.setArray ..)
  · exact StopFrame.refl s

theorem StopFrame.haltCounted (s : State) (c : Cmd) : StopFrame s (s.haltCounted c) := by
  unfold State.haltCounted
  split
  · exact StopFrame.refl s
  · exact (StopFrame.bump s 1 (by decide)).trans (StopFrame.tally ..)

theorem StopFrame.haltCmd (s : State) (c : Cmd) (hit : Nat) (cause : Cause) (fault : Option (Nat × Nat)) :
    StopFrame s (s.haltCmd c hit cause fault) := by
  have hwork := StopFrame.stopWork (s.haltCounted c) c ((s.haltCounted c).begun c) fault
  obtain ⟨⟨u, c'⟩, hstop⟩ : ∃ r, (s.haltCounted c).stopWork c ((s.haltCounted c).begun c) fault = r := ⟨_, rfl⟩
  rw [hstop] at hwork
  rw [haltCmd_eq hstop]
  extract_lets v w
  have hctxs : StopFrame u v := StopFrame.foldl _ _ _ fun t b => (StopFrame.unwant t b.1).trans (StopFrame.setCtx ..)
  have hplace : StopFrame v w := (StopFrame.setCmd ..).trans (StopFrame.freeEngine ..)
  exact ((StopFrame.haltCounted s c).trans hwork).trans (hctxs.trans (hplace.trans (StopFrame.traceCmd ..)))

/-- The command halted where it stood: what it does, where, and for whom it waits are as before. -/
structure HaltedAs (c c' : Cmd) : Prop where
  q        : c'.q = c.q
  slot     : c'.slot = c.slot
  desc     : c'.desc = c.desc
  phase    : c'.phase = .halted
  waitsFor : c'.waitsFor = c.waitsFor

/-- Of the commands in flight a halt replaces the one that halts, and no other (R246). -/
theorem haltCmd_cmds (s : State) (c : Cmd) (hit : Nat) (cause : Cause) (fault : Option (Nat × Nat)) :
    ∃ c', HaltedAs c c' ∧ (s.haltCmd c hit cause fault).cmds = (s.setCmd c').cmds := by
  obtain ⟨u, made, saved, hstop, hwork⟩ := stopWork_cases (s.haltCounted c) c ((s.haltCounted c).begun c) fault
  rw [haltCmd_eq hstop]
  extract_lets v w
  have hv : v.cmds = s.cmds := (foldl_keeps State.cmds (State.haltCtx _ hit cause) _ _ fun _ _ => rfl).trans
    (hwork.cmds.trans (Aside.haltCounted s c).cmds)
  have htrace := Aside.traceCmd w { c with made := made, saved := saved } 5 hit (highestCause (w.ctx hit).causes)
  refine ⟨Cmd.haltedIn { c with made := made, saved := saved } v, ⟨rfl, rfl, rfl, rfl, rfl⟩, ?_⟩
  rw [State.setCmd_cmds, ← hv]
  exact htrace.cmds

/-- The context hit shows the cause, whatever else the halt finds (R245). -/
theorem haltCmd_halted {s : State} {c : Cmd} {hit : Nat} (cause : Cause) (fault : Option (Nat × Nat))
    (hhit : ∃ b ∈ c.bound, b.1 = hit) : Halted hit cause (s.haltCmd c hit cause fault) := by
  obtain ⟨u, made, saved, hstop, -⟩ := stopWork_cases (s.haltCounted c) c ((s.haltCounted c).begun c) fault
  rw [haltCmd_eq hstop]
  extract_lets v w
  have hv : Halted hit cause v := halted_foldl u (.inr hhit)
  exact Halted.of_aside (s := w) hv (Aside.traceCmd ..)

/-! ### A command that is to run again -/

/-- The command in its place has all of its outputs from the unit on still to come. -/
def Cmd.rerunFrom (c : Cmd) (n : Nat) : Cmd := { c with worked := false, made := n, saved := [], draws := [], posts := [] }

/-- Of a state a command that is to run again from a unit changes contexts and commands alone (R247). -/
theorem rerun_eq (s : State) (c : Cmd) (n : Nat) (l : List Nat) :
    { s with ctxs := (s.rerun c n l).ctxs, cmds := (s.rerun c n l).cmds } = s.rerun c n l := by
  have hfold := foldl_keeps (fun t : State => { t with ctxs := s.ctxs })
    (fun t k => t.setCtx k { t.ctx k with position := t.positionAt c k n }) l s fun _ _ => rfl
  have hplaced := congrArg (fun t : State => { t with ctxs := (s.rerun c n l).ctxs, cmds := (s.rerun c n l).cmds }) hfold
  exact hplaced.symm

theorem rerun_cmds (s : State) (c : Cmd) (n : Nat) (l : List Nat) : (s.rerun c n l).cmds = (s.setCmd (c.rerunFrom n)).cmds := by
  have hfold := foldl_keeps State.cmds (fun t k => t.setCtx k { t.ctx k with position := t.positionAt c k n }) l s fun _ _ => rfl
  unfold State.rerun
  dsimp only
  rw [State.setCmd_cmds, hfold]
  rfl

theorem cmd?_rerun {s : State} {c : Cmd} {q slot : Nat} (h : s.cmd? q slot = some c) (n : Nat) (l : List Nat) :
    (s.rerun c n l).cmd? q slot = some (c.rerunFrom n) := by
  obtain ⟨hin, rfl, rfl⟩ := cmd?_spec h
  exact cmd?_of_replaced (rerun_cmds s c n l) hin rfl rfl

/-- POSITION is all that moves back in a context. -/
theorem rerun_ctx (s : State) (c : Cmd) (n : Nat) (l : List Nat) (k : Nat) :
    ∃ p, (s.rerun c n l).ctx k = { s.ctx k with position := p } := by
  unfold State.rerun
  dsimp only
  rw [State.setCmd_ctx]
  induction l generalizing s with
  | nil => exact ⟨_, rfl⟩
  | cons a l ih =>
    obtain ⟨p, hp⟩ := ih (s.setCtx a { s.ctx a with position := s.positionAt c a n })
    refine ⟨p, hp.trans ?_⟩
    by_cases hk : k = a
    · subst hk
      rw [State.ctx_setCtx_self]
    · rw [State.ctx_setCtx_other _ _ _ _ hk]

theorem Halted.rerun {s : State} {k : Nat} {cause : Cause} (h : Halted k cause s) (c : Cmd) (n : Nat) (l : List Nat) :
    Halted k cause (s.rerun c n l) := by
  obtain ⟨p, hp⟩ := rerun_ctx s c n l k
  rwa [Halted, hp]

/-- A late fault of a command that is to complete leaves it so. -/
theorem lateFault_of_done {s : State} {c h : Cmd} (k addr : Nat) (hfound : s.cmd? c.q c.slot = some h) (hdone : h.phase = .done) :
    s.lateFault c k addr = s := by
  unfold State.lateFault
  rw [hfound]
  exact if_pos hdone

theorem lateFault_of_halted {s : State} {c h : Cmd} (k addr : Nat) (hfound : s.cmd? c.q c.slot = some h)
    (hhalt : h.phase = .halted) :
    s.lateFault c k addr = s.rerun h (s.unitOf h k (addr - (s.tensorOf k).base)) [k] := by
  unfold State.lateFault
  rw [hfound]
  exact if_neg (by rw [hhalt]; decide)

end Machine
end Sys2Proof
end

section
/-! SUPPORT. One stream context (R229–R251): its shadow, the acknowledgements of its plates, the resumption of its command, and
RESUME. -/

namespace Sys2Proof

open Sys2Proof.Machine

/-- A WRITE that is served and passes, of an object that takes writes at once, ends as its effect does, with the answer beside
it (R42, R43). -/
theorem WriteEnds.of_now {c : Instr} {s v : State} {m : Msg} {o : Obj} {P : State → State → Prop}
    (hc : exec c s = done s (s.request s.plainEnv 2 false m)) (hw : Writes s s.plainEnv m o) (hacc : o.acc ≠ .rwt)
    (happly : (atService s 2 false m).applyNow s.plainEnv m.path (okey m.index.toNat m.sub.toNat) (leNat m.payload) = v)
    (hkept : v.pending = (atService s 2 false m).pending ∧ v.fuse = (atService s 2 false m).fuse ∧
      v.mem = (atService s 2 false m).mem) (hdict : v.dict = (atService s 2 false m).dict)
    (hP : P (atService s 2 false m) v) : WriteEnds c s m P := by
  have hnow := State.request_writes s s.plainEnv m o hw
  rw [State.accept_now _ _ _ _ _ _ hacc hw.scalar, happly] at hnow
  obtain ⟨hq, hf, hm⟩ := v.closed_kept ((atService s 2 false m).sessionOf m) 2 false m ((atService s 2 false m).resp abOk)
  obtain ⟨hq', hf', hm'⟩ := atService_kept s 2 false m
  obtain ⟨hvq, hvf, hvm⟩ := hkept
  have hanswer : viaIltur m = true ∨ v.dict.mbBusy = true := by
    cases hvia : viaIltur m with
    | true => exact .inl rfl
    | false => exact .inr ((congrArg DictSt.mbBusy hdict).trans (atService_busy s 2 false m hvia))
  rw [hnow] at hc
  exact Ends.of_done hc ⟨hq.trans (hvq.trans hq'), hf.trans (hvf.trans hf'), hm.trans (hvm.trans hm')⟩
    ⟨⟨_, rfl, v.closed_answered _ 2 false m _ hanswer⟩, v, hP, v.closed_sameButAnswer ..⟩

namespace Machine

/-! ### Acknowledgements -/

/-- The command waits for one plate less. -/
def Cmd.acked (c : Cmd) : Cmd := { c with unacked := c.unacked - 1 }

/-- The state after a plate of a context has been acknowledged: its tag is free (R240). -/
def State.acked (s : State) (k : Nat) (c : Cmd) : State :=
  (s.setCtx k { s.ctx k with tags := (s.ctx k).tags - 1 }).setCmd c.acked

theorem writeAck_eq {s : State} {k : Nat} {c : Cmd} (addr : Nat) (faulted : Bool) (htags : (s.ctx k).tags ≠ 0)
    (huser : s.userOf k = some c) :
    writeAck k addr faulted s =
      if faulted ∧ c.phase ≠ .done then ((s.acked k c).haltFault c.acked k addr true).lateFault c.acked k addr
      else s.acked k c := by
  have hplate : (s.setCtx k { s.ctx k with tags := (s.ctx k).tags - 1 }).plateAcked k = s.acked k c := by
    have huser' : (s.setCtx k { s.ctx k with tags := (s.ctx k).tags - 1 }).userOf k = some c := huser
    unfold State.plateAcked
    rw [huser']
    rfl
  have hnow : (s.acked k c).userOf k = some c.acked :=
    userOf_setCmd (s := s.setCtx k _) c.acked huser rfl rfl (userOf_uses (c := c) huser)
  unfold writeAck
  dsimp only
  rw [if_neg htags, hplate, hnow]
  rfl

/-- Where a page starts and what a request finds there rest on the tables of pages alone. -/
theorem pageStart_congr {s t : State} (h : t.page = s.page) (a : Nat) : t.pageStart a = s.pageStart a := by
  rw [State.pageStart, State.pageStart, h]

theorem access_congr {s t : State} (h : t.page = s.page) (a : Nat) (write : Bool) : t.access a write = s.access a write := by
  have hentry : t.entryAt a = s.entryAt a := by rw [State.entryAt, State.entryAt, h]
  have hdrain : t.draining a = s.draining a := by rw [State.draining, State.draining, h, pageStart_congr h]
  rw [State.access, State.access, hentry, hdrain]

/-- A page that is not there halts the command with TRANSLATION, and it waits for the page unless there is no backing (R250,
R265). -/
theorem haltPage_halts {s : State} {c : Cmd} {k : Nat} (addr : Nat) (write : Bool) (hk : ∃ b ∈ c.bound, b.1 = k) :
    (∃ c', HaltedAs c c' ∧ (s.haltPage c k addr write).cmds = (s.setCmd c').cmds) ∧
      Halted k .translation (s.haltPage c k addr write) ∧
      (s.access addr write ≠ .noBacking → ((s.haltPage c k addr write).ctx k).faultPage = some (s.pageStart addr)) := by
  obtain ⟨c', hc', hcmds⟩ := haltCmd_cmds s c k .translation (some (k, addr))
  have hhalted := haltCmd_halted (s := s) .translation (some (k, addr)) hk
  have hframe := StopFrame.haltCmd s c k .translation (some (k, addr))
  unfold State.haltPage
  generalize s.haltCmd c k .translation (some (k, addr)) = h at hcmds hhalted hframe
  have htrace : Told h (h.traceCmd c 0x0B k (addrHi addr)) := Told.trace ..
  dsimp only
  generalize h.traceCmd c 0x0B k (addrHi addr) = r at htrace
  have haside := Aside.of_told htrace
  have hpage : r.page = s.page := htrace.page_eq.trans hframe.page
  have haccess := access_congr hpage addr write
  have hstart := pageStart_congr hpage addr
  have hr := Halted.of_aside hhalted haside
  rw [haccess]
  split
  next hnone =>
    have hraise : Aside r (r.raiseCmd c 0x4101 1 k (addrHi addr)) := Aside.of_told (State.raiseCmd_told ..)
    exact ⟨⟨c', hc', hraise.cmds.trans (haside.cmds.trans hcmds)⟩, hr.of_aside hraise, fun h => absurd hnone h⟩
  next =>
    rw [Halted, State.ctx_setCtx_self]
    exact ⟨⟨c', hc', haside.cmds.trans hcmds⟩, hr, fun _ => congrArg some hstart⟩

/-- What becomes of a command whose write faulted late (R247, R249, R250). -/
def LateFaulted (s : State) (c : Cmd) (k addr : Nat) (t : State) : Prop :=
  let dead := memN (s.pageStart addr) s.page.dead
  (∃ c', t.cmd? c.q c.slot = some c' ∧ c'.phase = (if dead then .done else .halted) ∧ c'.worked = false ∧
      c'.desc = c.desc) ∧
    (t.ctx k).state = .halted ∧ (if dead then Cause.memory else .translation) ∈ (t.ctx k).causes ∧
    (dead = false → s.access addr true ≠ .noBacking → (t.ctx k).faultPage = some (s.pageStart addr))

theorem haltFault_lateFault {s : State} {c : Cmd} {k : Nat} (addr : Nat) (hc : c ∈ s.cmds) (hk : ∃ b ∈ c.bound, b.1 = k) :
    LateFaulted s c k addr ((s.haltFault c k addr true).lateFault c k addr) := by
  unfold LateFaulted State.haltFault
  cases hdead : memN (s.pageStart addr) s.page.dead with
  | true =>
    obtain ⟨⟨c', hfound, hdone, -, hworked, hdesc, -⟩, hcause, hstate, -⟩ := haltMemory_discards addr hc hk
    rw [if_pos rfl, lateFault_of_done k addr hfound hdone]
    exact ⟨⟨c', hfound, hdone, hworked, hdesc⟩, hstate, hcause, fun h => absurd h (by decide)⟩
  | false =>
    obtain ⟨⟨c', ⟨hq, hslot, hdesc, hphase, -⟩, hcmds⟩, hhalted, hpage⟩ := haltPage_halts (s := s) addr true hk
    rw [if_neg Bool.false_ne_true]
    generalize s.haltPage c k addr true = h at hcmds hhalted hpage
    have hfound := cmd?_of_replaced hcmds hc hq hslot
    rw [lateFault_of_halted k addr hfound hphase]
    generalize h.unitOf c' k (addr - (h.tensorOf k).base) = n
    obtain ⟨hcause, hstate⟩ := hhalted.rerun c' n [k]
    obtain ⟨p, hctx⟩ := rerun_ctx h c' n [k] k
    refine ⟨⟨c'.rerunFrom n, cmd?_rerun hfound n [k], hphase, rfl, hdesc⟩, hstate, hcause, fun _ hback => ?_⟩
    rw [hctx]
    exact hpage hback

/-! ### A halted command resumes -/

/-- Nothing but contexts differs, and no descriptor of one. -/
structure OnlyContexts (s t : State) : Prop where
  rest : { t with ctxs := s.ctxs } = s
  desc : ∀ k, (t.ctx k).desc = (s.ctx k).desc

namespace OnlyContexts

theorem refl (s : State) : OnlyContexts s s := ⟨rfl, fun _ => rfl⟩

theorem trans {s t u : State} (h : OnlyContexts s t) (h' : OnlyContexts t u) : OnlyContexts s u :=
  ⟨(congrArg (fun x : State => { x with ctxs := s.ctxs }) h'.rest).trans h.rest, fun k => (h'.desc k).trans (h.desc k)⟩

theorem foldl {α : Type} (f : State → α → State) (l : List α) (s : State) (h : ∀ s a, OnlyContexts s (f s a)) :
    OnlyContexts s (l.foldl f s) := by
  induction l generalizing s with
  | nil => exact refl s
  | cons a l ih => exact (h s a).trans (ih _)

theorem setCtx {s : State} {k : Nat} {x : Ctx} (h : x.desc = (s.ctx k).desc) : OnlyContexts s (s.setCtx k x) := by
  refine ⟨rfl, fun j => ?_⟩
  by_cases hj : j = k
  · rw [hj, State.ctx_setCtx_self, h]
  · rw [State.ctx_setCtx_other _ _ _ _ hj]

theorem clearCause (s : State) (k : Nat) (cause : Cause) : OnlyContexts s (s.clearCause k cause) := setCtx rfl

/-- The causes that have ended are dropped from the contexts of a command (R251, R256). -/
theorem dropCleared (s : State) (c : Cmd) : OnlyContexts s (s.dropCleared c) := by
  unfold State.dropCleared
  refine trans ?deadlock (foldl _ _ _ fun t b => ?link)
  case deadlock =>
    split
    · exact foldl _ _ _ fun t b => clearCause t b.1 .deadlock
    · exact refl s
  case link =>
    split
    · exact clearCause t b.1 .link
    · exact refl t

theorem runCtxs (s : State) (c : Cmd) : OnlyContexts s (s.runCtxs c) := foldl _ _ _ fun _ _ => setCtx rfl

theorem qDie {s t : State} (h : OnlyContexts s t) (q : Nat) : t.qDie q = s.qDie q := by
  have hdie := congrArg (fun x : State => x.qDie q) h.rest
  exact hdie

theorem cmds {s t : State} (h : OnlyContexts s t) : t.cmds = s.cmds := by
  have hcmds := congrArg State.cmds h.rest
  exact hcmds

end OnlyContexts

/-- What one step of a run through a list brings about, and every other keeps, holds at its end. -/
theorem foldl_reaches {α : Type} {P : State → Prop} {f : State → α → State} {l : List α} {a : α} (ha : a ∈ l)
    (s : State) (hset : ∀ t, P (f t a)) (hkeep : ∀ t b, P t → P (f t b)) : P (l.foldl f s) := by
  obtain ⟨l₁, l₂, rfl⟩ := List.append_of_mem ha
  rw [List.foldl_append, List.foldl_cons]
  exact List.foldlRecOn l₂ f (hset _) fun t ht b _ => hkeep t b ht

/-- Each context of a command that goes on runs, without a cause (R245). -/
theorem runCtxs_runs (s : State) {c : Cmd} {b : Nat × Nat} (hb : b ∈ c.bound) :
    ((s.runCtxs c).ctx b.1).state = .running ∧ ((s.runCtxs c).ctx b.1).causes = [] := by
  refine foldl_reaches (P := fun t => (t.ctx b.1).state = .running ∧ (t.ctx b.1).causes = []) hb s (fun t => ?_) fun t a ht => ?_
  · rw [State.ctx_setCtx_self]
    exact ⟨rfl, rfl⟩
  · by_cases hab : b.1 = a.1
    · rw [hab, State.ctx_setCtx_self]
      exact ⟨rfl, rfl⟩
    · rwa [State.ctx_setCtx_other _ _ _ _ hab]

theorem Aside.restoreArray (s : State) (c : Cmd) : Aside s (s.restoreArray c) := by
  unfold State.restoreArray
  split
  · dsimp only
    split
    · exact (Aside.setArray ..).trans (Aside.bump _ _ (by decide))
    · exact Aside.setArray ..
  · exact Aside.refl s

/-- The command as it goes on, to be begun on its engine (R245). -/
def Cmd.resumed (c : Cmd) : Cmd := { c with phase := .admitted, haltTick := none, staleTold := false, waitsFor := [] }

/-- Once the contexts run and the command stands admitted, resuming it touches neither again. -/
theorem streamResume_goes {s : State} {q slot : Nat} {c : Cmd} (hfound : s.cmd? q slot = some c) (hphase : c.phase = .halted)
    (hgo : (s.dropCleared c).causesClear c = true ∧
      (s.dropCleared c).tagsFree ((s.dropCleared c).qDie q).num (dShaft c.desc) (c.bound.map Prod.fst) = true) :
    let u := s.dropCleared c
    Aside ((u.runCtxs (u.begin c.resumed)).setCmd (u.begin c.resumed)) (streamResume q slot s) := by
  intro u
  unfold streamResume
  rw [hfound]
  dsimp only
  rw [if_neg (not_not_intro hphase), if_pos hgo]
  have hask := (Aside.restoreArray ((u.runCtxs (u.begin c.resumed)).setCmd (u.begin c.resumed)) (u.begin c.resumed)).trans
    (Aside.foldl (fun s (b : Nat × Nat) => s.askRemote b.1) c.bound _ fun s b => Aside.askRemote s b.1)
  split
  · exact hask
  · exact hask.trans (Aside.traceCmd ..)

theorem streamResume_stays {s : State} {q slot : Nat} {c : Cmd} (hfound : s.cmd? q slot = some c) (hphase : c.phase = .halted)
    (hstay : ¬ ((s.dropCleared c).causesClear c = true ∧
      (s.dropCleared c).tagsFree ((s.dropCleared c).qDie q).num (dShaft c.desc) (c.bound.map Prod.fst) = true)) :
    streamResume q slot s = s.dropCleared c := by
  unfold streamResume
  rw [hfound]
  dsimp only
  rw [if_neg (not_not_intro hphase), if_neg hstay]

/-! ### The shadow -/

theorem shadowTakeEffect_eq {s : State} {k : Nat} {d : BitVec 364} {draw : Option (BitVec 84)}
    (h : (s.ctx k).shadow = some (d, draw)) :
    shadowTakeEffect k s = if s.outstanding k = true then s
      else s.setCtx k { (s.ctx k).arm d draw with shadow := none, doneGen := (s.ctx k).gen } := by
  unfold shadowTakeEffect
  simp only [h]

/-! ### RESUME -/

/-- The page of a context serves: its TRANSLATION cause clears, and it waits for no page (R250). -/
theorem pageServes_ctx (s : State) (k : Nat) : (s.pageServes k).ctx k =
    { s.ctx k with faultPage := none, causes := (s.ctx k).causes.filter fun x => !decide (x = .translation) } := by
  unfold State.pageServes State.clearCause
  simp only [State.ctx_setCtx_self]

theorem pageServes_ctx_other (s : State) {k j : Nat} (h : j ≠ k) : (s.pageServes k).ctx j = s.ctx j := by
  unfold State.pageServes State.clearCause
  simp only [State.ctx_setCtx_other _ _ _ _ h]

/-- Settles O31, row by row: each is one change of a context and of the command in progress on it. -/
theorem streamContexts : Obligations.StreamContexts := by
  refine ⟨?shadow, ?ack, ?late, ?resume, ?write⟩
  case shadow =>
    intro s k d draw hshadow
    have hrun := shadowTakeEffect_eq hshadow
    by_cases hout : s.outstanding k.toNat = true
    · rw [if_pos hout] at hrun
      exact Ends.of_done (congrArg (done s) hrun) ⟨rfl, rfl, rfl⟩ (by rw [if_pos hout])
    · rw [if_neg hout] at hrun
      refine Ends.of_done (congrArg (done s) hrun) ⟨rfl, rfl, rfl⟩ ?_
      rw [if_neg hout]
      exact ⟨State.ctx_setCtx_self .., rfl, fun j hj => State.ctx_setCtx_other _ _ _ _ hj⟩
  case ack =>
    intro s k addr c htags huser
    have hrun := writeAck_eq addr.toNat false htags huser
    rw [if_neg (by simp)] at hrun
    obtain ⟨hc, -⟩ := userOf_spec huser
    refine Ends.of_done (congrArg (done s) hrun) ⟨rfl, rfl, rfl⟩ ⟨rfl, ?_, ?_, fun x y hxy => ?_, fun j hj => ?_⟩
    · exact State.ctx_setCtx_self ..
    · exact cmd?_setCmd_self c.acked hc rfl rfl
    · exact cmd?_setCmd_other (c := c.acked) _ hxy
    · exact State.ctx_setCtx_other _ _ _ _ hj
  case late =>
    intro s k addr c htags huser hphase
    have hrun := writeAck_eq addr.toNat true htags huser
    rw [if_pos ⟨rfl, hphase⟩] at hrun
    obtain ⟨hc, hk⟩ := userOf_spec huser
    obtain ⟨hin, -, -⟩ := cmd?_spec (cmd?_setCmd_self c.acked hc rfl rfl)
    have hlate := haltFault_lateFault (s := s.acked k.toNat c) addr.toNat hin hk
    exact ⟨_, congrArg (done s) hrun, rfl, hlate⟩
  case resume =>
    intro s q slot c hfound hphase u
    have hu : OnlyContexts s u := OnlyContexts.dropCleared s c
    obtain ⟨hin, hq, hslot⟩ := cmd?_spec hfound
    have hdie := hu.qDie q.val
    by_cases hgo : u.causesClear c = true ∧ u.tagsFree (s.qDie q.val).num (dShaft c.desc) (c.bound.map Prod.fst) = true
    · have haside := streamResume_goes hfound hphase (by rw [hdie]; exact hgo)
      have hruns := OnlyContexts.runCtxs u (u.begin c.resumed)
      have hcmds := (hu.trans hruns).cmds
      have hplace := cmd?_of_replaced (c := c) haside.cmds (hcmds ▸ hin) rfl rfl
      rw [hq, hslot] at hplace
      refine ⟨_, rfl, ?_⟩
      dsimp only
      rw [if_pos hgo]
      refine ⟨⟨u.begin c.resumed, hplace, rfl⟩, fun b hb => ?_⟩
      · have hctx := haside.ctx b.1
        obtain ⟨hstate, hcauses⟩ := runCtxs_runs u (c := u.begin c.resumed) hb
        exact ⟨(congrArg Ctx.state hctx).trans hstate, (congrArg Ctx.causes hctx).trans hcauses,
          (congrArg Ctx.desc hctx).trans ((hu.trans hruns).desc b.1)⟩
    · have hrun := streamResume_stays hfound hphase (by rw [hdie]; exact hgo)
      have hq := congrArg State.pending hu.rest
      have hf := congrArg State.fuse hu.rest
      have hm := congrArg State.mem hu.rest
      exact Ends.of_done (congrArg (done s) hrun) ⟨hq, hf, hm⟩ (by rw [if_neg hgo])
  case write =>
    rintro s m v ⟨o, hw, hacc⟩
    have hvalue : leNat (leBytes 4 v.toNat) = v.toNat := leNat_leBytes 4 _ v.isLt
    have happly (u : State) (p : Path) :
        u.applyNow s.plainEnv p (okey 0x4110 1) (leNat (leBytes 4 v.toNat)) = u.pageServes v.toNat := by
      rw [hvalue]
      rfl
    refine WriteEnds.of_now rfl hw hacc (happly ..) ⟨rfl, rfl, rfl⟩ rfl ⟨rfl, fun j hj => ?_, ?_⟩
    · exact pageServes_ctx_other _ hj
    · exact pageServes_ctx ..

end Machine
end Sys2Proof
end

section
/-! SUPPORT. Halts that last or come from outside (R250, R251, R255, R256): one not cleared in time, a remote tag without a reply,
a deadlocked set. -/

namespace Sys2Proof

open Sys2Proof.Machine

theorem Tells.raiseCmd (s : State) (c : Cmd) (code sev a0 a1 : Nat) : Tells s (s.raiseCmd c code sev a0 a1) code a0 a1 :=
  ⟨State.raiseCmd_told .., State.raiseAt_raised ..⟩

theorem Tells.told {s t : State} {code a0 a1 : Nat} (h : Tells s t code a0 a1) : Told s t := h.1

/-- An event stays told as contexts and commands change after it. -/
theorem Tells.withStreams {s t : State} {code a0 a1 : Nat} (h : Tells s t code a0 a1) (ctxs : List (Nat × Ctx)) (cmds : List Cmd) :
    Tells { s with ctxs := ctxs, cmds := cmds } { t with ctxs := ctxs, cmds := cmds } code a0 a1 := by
  obtain ⟨htold, hraised⟩ := h
  exact ⟨⟨congrArg (fun x : State => { x with ctxs := ctxs, cmds := cmds }) htold.rest, htold.objs⟩, hraised⟩

namespace Machine

/-! ### A halt that is not cleared -/

theorem streamHaltStale_eq {s : State} {k : Nat} {c : Cmd} (huser : s.userOf k = some c) :
    streamHaltStale k s =
      if c.phase = .halted ∧ c.staleTold = false ∧ c.haltTick.getD s.tickNo + s.ob 0x4100 3 ≤ s.tickNo ∧
          (s.ctx k).causes ≠ [] then
        (s.setCmd { c with staleTold := true }).raiseCmd c 0x4105 2 k (highestCause (s.ctx k).causes)
      else s := by
  unfold streamHaltStale
  simp only [huser, Bool.not_eq_true', List.isEmpty_eq_false_iff]

/-! ### A remote tag without a reply -/

/-- What a halt with LINK leaves of a command that is to be told of (R251). -/
structure LinkHalted (s : State) (c : Cmd) (k : Nat) (t : State) : Prop where
  place : ∃ c', t.cmd? c.q c.slot = some c' ∧ c'.phase = .halted ∧ c'.desc = c.desc
  cause : Cause.link ∈ (t.ctx k).causes
  frame : StopFrame s t
  told  : ∃ v, Tells v t 0x4104 k (cModule (s.ctx k).desc)

theorem StopFrame.rerun (s : State) (c : Cmd) (n : Nat) (l : List Nat) : StopFrame s (s.rerun c n l) := by
  rw [← rerun_eq]
  exact ⟨rfl, rfl, rfl, fun _ _ => rfl, fun _ _ => rfl⟩

theorem haltLink_halts {s : State} {c : Cmd} {k : Nat} (hc : c ∈ s.cmds) (hk : ∃ b ∈ c.bound, b.1 = k) :
    LinkHalted s c k (s.haltLink c k) := by
  obtain ⟨c', ⟨hq, hslot, hdesc, hphase, -⟩, hcmds⟩ := haltCmd_cmds s c k .link none
  have hhalted := haltCmd_halted (s := s) .link none hk
  have hframe := StopFrame.haltCmd s c k .link none
  unfold State.haltLink
  generalize s.haltCmd c k .link none = h at hcmds hhalted hframe
  have htells := Tells.raiseCmd h c 0x4104 2 k (cModule (s.ctx k).desc)
  have haside := Aside.of_told htells.told
  obtain ⟨hcause, -⟩ := hhalted.of_aside haside
  exact ⟨⟨c', cmd?_of_replaced (haside.cmds.trans hcmds) hc hq hslot, hphase, hdesc⟩, hcause,
    hframe.trans (StopFrame.of_told htells.told), h, htells⟩

/-- A write that is late too moves POSITION back, and the halt stands (R247). -/
theorem LinkHalted.lateFault {s t : State} {c : Cmd} {k : Nat} (h : LinkHalted s c k t) (addr : Nat) :
    LinkHalted s c k (t.lateFault c k addr) := by
  obtain ⟨⟨c', hfound, hphase, hdesc⟩, hcause, hframe, v, htells⟩ := h
  rw [lateFault_of_halted k addr hfound hphase]
  generalize t.unitOf c' k (addr - (t.tensorOf k).base) = n
  obtain ⟨p, hctx⟩ := rerun_ctx t c' n [k] k
  refine ⟨⟨c'.rerunFrom n, cmd?_rerun hfound n [k], hphase, hdesc⟩, by rw [hctx]; exact hcause,
    hframe.trans (StopFrame.rerun ..), ?_⟩
  rw [← rerun_eq]
  exact ⟨_, htells.withStreams _ _⟩

/-- The tag is free with its reuse count moved on, and counted as timed out (R251). -/
def State.tagTimedOut (s : State) (k n : Nat) : State := (s.freeRtag (streamKey k) n).bump (okey 0x4130 6) 1

theorem tagTimedOut_aside (s : State) (k n : Nat) : Aside s (s.tagTimedOut k n) :=
  (Aside.freeRtag ..).trans (Aside.bump _ 1 (by decide))

/-- The wanted tag with the lowest number is the one that is meant. -/
theorem remoteTimeout_eq {s : State} {k n : Nat} {c : Cmd} {u : TagUse} (huser : s.userOf k = some c) (hphase : c.phase ≠ .done)
    (hheld : ((s.heldRemote k).find? fun x => x.2.want) = some (n, u)) :
    remoteTimeout k s =
      let t := (s.tagTimedOut k n).haltLink c k
      if u.write then t.lateFault c k u.addr else t := by
  have hwant : u.want = true := List.find?_some (p := fun x : Nat × TagUse => x.2.want) hheld
  have hhead : ∃ l, (s.heldRemote k).filter (fun x => x.2.want) ++ s.heldRemote k = (n, u) :: l := by
    rw [← List.head?_filter] at hheld
    obtain ⟨l, hl⟩ := List.head?_eq_some_iff.1 hheld
    exact ⟨l ++ s.heldRemote k, by rw [hl]; rfl⟩
  obtain ⟨l, hl⟩ := hhead
  have huser' : (s.tagTimedOut k n).userOf k = some c := ((tagTimedOut_aside s k n).userOf k).trans huser
  unfold State.tagTimedOut at huser' ⊢
  unfold remoteTimeout
  dsimp only
  rw [hl]
  dsimp only
  rw [huser']
  dsimp only
  rw [if_neg (by simp [hwant, hphase])]

theorem tagTimedOut_counts (s : State) (k n : Nat) :
    (s.tagTimedOut k n).pending = s.pending ∧ (s.tagTimedOut k n).fuse = s.fuse ∧
      ((s.tagTimedOut k n).rtag (streamKey k) n).reuse = (s.rtag (streamKey k) n).reuse + 1 ∧
      (s.tagTimedOut k n).reg (okey 0x4130 6) = (s.bump (okey 0x4130 6) 1).reg (okey 0x4130 6) := by
  obtain ⟨hq, hf, -, hreuse, hobjs⟩ := freeRtag_frame s (streamKey k) n
  have hmoved := hreuse (streamKey k) n
  rw [rtag_setRtag_self] at hmoved
  exact ⟨hq, hf, hmoved, reg_bump_congr _ 1 (hobjs _ (by decide)) hf⟩

/-! ### A deadlocked set -/

/-- The command of a deadlocked set that halts: it waits for the others to leave, and for no plate (R256). -/
def Cmd.waitingFor (c : Cmd) (set : List Cmd) : Cmd :=
  { c with waitsFor := (set.filter fun x => !decide (x.q = c.q ∧ x.slot = c.slot)).map fun x => (x.q, x.slot), unacked := 0 }

theorem mem_waitsFor_waitingFor {c x : Cmd} {set : List Cmd} (hx : x ∈ set) (hne : ¬ (x.q = c.q ∧ x.slot = c.slot)) :
    (x.q, x.slot) ∈ (c.waitingFor set).waitsFor :=
  List.mem_map.2 ⟨x, List.mem_filter.2 ⟨hx, by rw [decide_eq_false hne]; rfl⟩, rfl⟩

/-- The highest context number is that of a context to which the command is bound. -/
theorem topCtx_mem {c : Cmd} (hne : c.bound ≠ []) : ∃ b ∈ c.bound, b.1 = c.topCtx := by
  have hfold (l : List (Nat × Nat)) (n : Nat) :
      l.foldl (fun a b => max a b.1) n = n ∨ ∃ b ∈ l, b.1 = l.foldl (fun a b => max a b.1) n := by
    induction l generalizing n with
    | nil => exact .inl rfl
    | cons a l ih =>
      rw [List.foldl_cons]
      obtain h | ⟨b, hb, h⟩ := ih (max n a.1)
      · rw [h]
        obtain hle | hle := Nat.le_total a.1 n
        · exact .inl (Nat.max_eq_left hle)
        · exact .inr ⟨a, List.mem_cons_self .., (Nat.max_eq_right hle).symm⟩
      · exact .inr ⟨b, List.mem_cons_of_mem _ hb, h⟩
  obtain ⟨a, l, hl⟩ := List.exists_cons_of_ne_nil hne
  rw [Cmd.topCtx, hl, List.foldl_cons, Nat.zero_max]
  obtain h | ⟨b, hb, h⟩ := hfold l a.1
  · exact ⟨a, List.mem_cons_self .., h.symm⟩
  · exact ⟨b, List.mem_cons_of_mem _ hb, h⟩

/-- The contexts of a command give up their tags. -/
def State.tagsCleared (s : State) (c : Cmd) : State :=
  c.bound.foldl (fun s b => s.setCtx b.1 { s.ctx b.1 with tags := 0 }) s

/-- The command gives up its tags, halts with DEADLOCK, and the deadlock is counted (R255, R256). -/
def State.deadlockHalted (s : State) (c : Cmd) (top : Nat) : State :=
  ((s.tagsCleared c).haltCmd c top .deadlock none).bump (okey 0x4130 2) 1

/-- A command whose work has run is to run again from a unit (R247). -/
def State.againFrom (s : State) (c : Cmd) : State :=
  if c.worked then s.rerun c (min (s.unitCount c - 1) (Config.unitsMade s.tickNo c.q c.slot)) (c.bound.map Prod.fst) else s

/-- What a deadlock leaves of the command `c` that halts, which stands as `c'` then, and of the others. -/
structure Deadlocked (s : State) (c : Cmd) (top : Nat) (t : State) (c' : Cmd) : Prop where
  place    : t.cmd? c.q c.slot = some c'
  phase    : c'.phase = .halted
  waitsFor : c'.waitsFor = c.waitsFor
  cause    : Cause.deadlock ∈ (t.ctx top).causes
  others   : ∀ x y, ¬ (x = c.q ∧ y = c.slot) → t.cmd? x y = s.cmd? x y
  pending  : t.pending = s.pending
  fuse     : t.fuse = s.fuse
  count    : t.reg (okey 0x4130 2) = (s.bump (okey 0x4130 2) 1).reg (okey 0x4130 2)

theorem deadlockHalted_deadlocked {s : State} {x c : Cmd} {top : Nat} (hx : x ∈ s.cmds) (hq : c.q = x.q) (hslot : c.slot = x.slot)
    (htop : ∃ b ∈ c.bound, b.1 = top) : ∃ c', Deadlocked s c top (s.deadlockHalted c top) c' := by
  unfold State.deadlockHalted
  have htags : StopFrame s (s.tagsCleared c) := StopFrame.foldl _ _ _ fun _ _ => StopFrame.setCtx ..
  have hsame : (s.tagsCleared c).cmds = s.cmds := foldl_keeps State.cmds _ c.bound s fun _ _ => rfl
  generalize s.tagsCleared c = t at htags hsame
  obtain ⟨c', ⟨hq', hslot', -, hphase, hwaits⟩, hcmds⟩ := haltCmd_cmds t c top .deadlock none
  obtain ⟨hcause, -⟩ := haltCmd_halted (s := t) .deadlock none htop
  obtain ⟨hpending, hfuse, -, -, hobjs⟩ := htags.trans (StopFrame.haltCmd t c top .deadlock none)
  have hcmds' : (t.haltCmd c top .deadlock none).cmds = (s.setCmd c').cmds := by
    rw [hcmds, State.setCmd_cmds, State.setCmd_cmds, hsame]
  have hplace := cmd?_of_replaced hcmds' hx (hq'.trans hq) (hslot'.trans hslot)
  rw [← hq, ← hslot] at hplace
  refine ⟨c', hplace, hphase, hwaits, hcause, fun i j hij => ?_, hpending, hfuse,
    reg_bump_congr _ 1 (hobjs _ (by decide)) hfuse⟩
  rw [← hq', ← hslot'] at hij
  exact (congrArg (List.find? _) hcmds').trans (cmd?_setCmd_other s hij)

namespace Deadlocked

variable {s t u : State} {c c' : Cmd} {top : Nat}

theorem rerun (h : Deadlocked s c top t c') (n : Nat) (l : List Nat) : Deadlocked s c top (t.rerun c' n l) (c'.rerunFrom n) := by
  obtain ⟨-, hq, hslot⟩ := cmd?_spec h.place
  obtain ⟨p, hctx⟩ := rerun_ctx t c' n l top
  obtain ⟨hpending, hfuse, -, -, hobjs⟩ := StopFrame.rerun t c' n l
  refine ⟨cmd?_rerun h.place n l, h.phase, h.waitsFor, by rw [hctx]; exact h.cause, fun i j hij => ?_, hpending.trans h.pending,
    hfuse.trans h.fuse, (hobjs _ (by decide)).trans h.count⟩
  refine Eq.trans ?_ (h.others i j hij)
  rw [← hq, ← hslot] at hij
  exact (congrArg (List.find? _) (rerun_cmds t c' n l)).trans (cmd?_setCmd_other (c := c'.rerunFrom n) t hij)

theorem againFrom (h : Deadlocked s c top t c') : ∃ d, d.worked = false ∧ Deadlocked s c top (t.againFrom c') d := by
  unfold State.againFrom
  split
  next => exact ⟨_, rfl, h.rerun _ _⟩
  next hworked => exact ⟨c', by simpa using hworked, h⟩

theorem of_told (h : Deadlocked s c top t c') (ht : Told t u) : Deadlocked s c top u c' := by
  have haside := Aside.of_told ht
  obtain ⟨hpending, hfuse, -, -, hobjs⟩ := StopFrame.of_told ht
  have hfind (i j : Nat) : u.cmd? i j = t.cmd? i j := congrArg (List.find? _) haside.cmds
  exact ⟨(hfind ..).trans h.place, h.phase, h.waitsFor, by rw [haside.ctx]; exact h.cause,
    fun i j hij => (hfind ..).trans (h.others i j hij), hpending.trans h.pending, hfuse.trans h.fuse,
    (hobjs _ (by decide)).trans h.count⟩

end Deadlocked

/-- A set of commands of one engine that block each other (R255). -/
structure Blocked (s : State) (die shaft : Nat) (set : List Cmd) : Prop where
  two : 2 ≤ set.length
  all : ∀ x ∈ set, x.phase = .admitted ∧ s.qDie x.q = Die.ofIx die ∧ dShaft x.desc = shaft ∧ x.bound ≠ [] ∧
    s.blockedLong x = true

theorem deadlockDetect_eq {s : State} {die shaft top : Nat} {blocked : List (Fin 128 × BitVec 32)} {set : List Cmd} {c c' : Cmd}
    (hset : set = blocked.filterMap fun b => s.cmd? b.1.val b.2.toNat) (hlen : set.length = blocked.length)
    (hblocked : Blocked s die shaft set) (htop : top = set.foldl (fun a y => max a y.topCtx) 0)
    (hfind : (set.find? fun x => decide (x.topCtx = top)) = some c)
    (hplace : (s.deadlockHalted (c.waitingFor set) top).cmd? c.q c.slot = some c') :
    deadlockDetect die shaft blocked s =
      ((s.deadlockHalted (c.waitingFor set) top).againFrom c').raiseCmd (c.waitingFor set) 0x4103 1 top set.length := by
  obtain ⟨htwo, hall⟩ := hblocked
  have hhere : ∀ x ∈ set, (decide (x.phase = .admitted) && decide (s.qDie x.q = Die.ofIx die) &&
      decide (dShaft x.desc = shaft) && !x.bound.isEmpty) = true := fun x hx => by
    obtain ⟨hphase, hdie, hshaft, hbound, -⟩ := hall x hx
    simp [hphase, hdie, hshaft, hbound]
  have hlong : ∀ x ∈ set, s.blockedLong x = true := fun x hx => by
    obtain ⟨-, -, -, -, h⟩ := hall x hx
    exact h
  unfold deadlockDetect
  dsimp only
  rw [← hset, ← htop, hfind, if_neg (by simp [List.all_eq_true.2 hhere, List.all_eq_true.2 hlong]; omega)]
  unfold State.deadlockHalted State.tagsCleared Cmd.waitingFor at hplace ⊢
  dsimp only at hplace ⊢
  rw [hplace]
  rfl

/-- Settles O33, row by row: each halts one command, or tells of its halt. -/
theorem streamHalts : Obligations.StreamHalts := by
  refine ⟨?stale, ?remote, ?deadlock⟩
  case stale =>
    intro s k c huser
    have hrun := streamHaltStale_eq huser
    by_cases hstale : c.phase = .halted ∧ c.staleTold = false ∧ c.haltTick.getD s.tickNo + s.ob 0x4100 3 ≤ s.tickNo ∧
        (s.ctx k.toNat).causes ≠ []
    · rw [if_pos hstale] at hrun
      have htells := Tells.raiseCmd (s.setCmd { c with staleTold := true }) c 0x4105 2 k.toNat (highestCause (s.ctx k.toNat).causes)
      exact Ends.of_done (congrArg (done s) hrun) htells.told.kept (by rw [if_pos hstale]; exact htells)
    · rw [if_neg hstale] at hrun
      exact Ends.of_done (congrArg (done s) hrun) ⟨rfl, rfl, rfl⟩ (by rw [if_neg hstale])
  case remote =>
    intro s k c n u huser hphase hheld
    obtain ⟨hc, hk⟩ := userOf_spec huser
    have hrun := remoteTimeout_eq huser hphase hheld
    have hmem := remoteTimeout_mem k.toNat s
    have haside := tagTimedOut_aside s k.toNat n
    obtain ⟨hpending, hfuse, hreuse, hcount⟩ := tagTimedOut_counts s k.toNat n
    have hlink := haltLink_halts (haside.cmds ▸ hc) hk
    have hend : LinkHalted (s.tagTimedOut k.toNat n) c k.toNat (remoteTimeout k.toNat s) := by
      rw [hrun]
      dsimp only
      split
      · exact hlink.lateFault u.addr
      · exact hlink
    obtain ⟨hplace, hcause, hframe, v, htells⟩ := hend
    rw [haside.ctx] at htells
    exact Ends.of_done rfl ⟨hframe.pending.trans hpending, hframe.fuse.trans hfuse, hmem⟩
      ⟨hplace, hmem, (hframe.reuse ..).trans hreuse, hcause, (hframe.objs _ (by decide)).trans hcount, v, htells⟩
  case deadlock =>
    intro s die shaft blocked set c hset hlen htwo hall hfind
    have hc : c ∈ set := List.mem_of_find?_eq_some hfind
    have htop : c.topCtx = set.foldl (fun a y => max a y.topCtx) 0 := by simpa using List.find?_some hfind
    rw [← htop] at hfind
    obtain ⟨-, -, -, hbound, -⟩ := hall c hc
    have hin : c ∈ s.cmds := by
      rw [hset] at hc
      obtain ⟨b, -, hb⟩ := List.mem_filterMap.1 hc
      exact (cmd?_spec hb).1
    obtain ⟨c', hhalted⟩ := deadlockHalted_deadlocked (c := c.waitingFor set) hin rfl rfl (topCtx_mem hbound)
    have hrun := deadlockDetect_eq hset hlen ⟨htwo, hall⟩ htop hfind hhalted.place
    have htells := Tells.raiseCmd ((s.deadlockHalted (c.waitingFor set) c.topCtx).againFrom c') (c.waitingFor set) 0x4103 1 c.topCtx
      set.length
    obtain ⟨d, hworked, hagain⟩ := hhalted.againFrom
    obtain ⟨hplace, hphase, hwaits, hcause, hothers, hpending, hfuse, hcount⟩ := hagain.of_told htells.told
    rw [← hrun] at hplace hcause hothers hpending hfuse hcount htells
    refine Ends.of_done rfl ⟨hpending, hfuse, deadlockDetect_mem ..⟩
      ⟨⟨d, hplace, hphase, hworked, fun x hx hne => ?_⟩, hcause, hothers, hcount, _, htells⟩
    rw [hwaits]
    exact mem_waitsFor_waitingFor hx hne

end Machine
end Sys2Proof
end

section
/-! SUPPORT. The host's aperture (R268, R271, R366): what its data part maps to, and what a read of lines corrects. -/

namespace Sys2Proof

open Sys2Proof.Machine

/-- Nothing that a correction touches holds the queue, the fuses or memory. -/
theorem Corrected.kept {s u : State} (h : Corrected s u) : u.pending = s.pending ∧ u.fuse = s.fuse ∧ u.mem = s.mem := by
  have hq := congrArg State.pending h.rest
  have hf := congrArg State.fuse h.rest
  have hm := congrArg State.mem h.rest
  exact ⟨hq, hf, hm⟩

namespace Machine

/-! ### Corrections -/

/-- The error of one line is corrected and counted (R270, R274, R277). -/
def State.correctFlaw (s : State) (f : Nat × Bool) : State :=
  ({ s with page := { s.page with flaws := SMap.del s.page.flaws f.1 } }).bump (correctedKey f.1) 1

theorem State.sawWhere_eq (s : State) (p : Nat → Bool) :
    s.sawWhere p = (s.page.flaws.filter fun f => !f.2 && p f.1).foldl State.correctFlaw s := rfl

/-- Whatever lines are read, the errors that they correct are counted under the keys of their tiers, and nothing else changes. -/
theorem State.sawWhere_corrected (s : State) (p : Nat → Bool) : Corrected s (s.sawWhere p) := by
  rw [State.sawWhere_eq]
  refine ⟨?rest, fun k hk => ?objs, fun h => by rw [h]; rfl⟩
  case rest =>
    have hrest := foldl_keeps (fun u : State => { u with regs := s.regs, page := { u.page with flaws := s.page.flaws } })
      State.correctFlaw (s.page.flaws.filter fun f => !f.2 && p f.1) s fun _ _ => rfl
    exact hrest
  case objs =>
    refine List.foldlRecOn (motive := fun u : State => u.reg k = s.reg k) _ _ rfl fun u hu f hf => ?_
    have hflaw : f ∈ s.page.flaws := (List.mem_filter.1 hf).1
    exact (State.reg_bump_other _ _ _ _ (hk f hflaw)).trans hu

/-! ### The data part -/

/-- The lower half of the window maps to the data space from APERTURE_BASE on (R268). -/
theorem State.apTarget_data {s : State} {off : Nat} (h : off < s.barSize / 2) :
    s.apTarget off = .data (s.apertureBase + off) := if_pos h

/-- A fault is told once per page and tick (R268). -/
theorem State.apFault_data (s : State) (off a : Nat) (write : Bool) :
    (memN (s.pageStart a) s.page.apFaults = true → s.apFault off (.data a) write = s) ∧
      (memN (s.pageStart a) s.page.apFaults = false →
        Tells { s with page := { s.page with apFaults := s.pageStart a :: s.page.apFaults } } (s.apFault off (.data a) write)
          0x4405 (bits off 41 21) (b2n write)) := by
  refine ⟨fun h => if_pos h, fun h => ?_⟩
  have hraise : s.apFault off (.data a) write = State.raise
      { s with page := { s.page with apFaults := s.pageStart a :: s.page.apFaults } } 0x4405 1 (bits off 41 21) (b2n write) :=
    if_neg (ne_true_of_eq_false h)
  rw [hraise]
  exact ⟨State.raise_told .., State.raiseAt_raised ..⟩

section

variable {s : State} {off : Nat} (hup : s.hostUp = true) (hd3 : s.host.d3hot = false) (hoff : off < s.barSize / 2)
include hup hd3 hoff

theorem State.apertureRead_absent (n : Nat) (habsent : s.physLine (s.apertureBase + off) = none) :
    s.apertureRead off n = (s.apFault off (.data (s.apertureBase + off)) false).send (.aperture none false) := by
  simp [State.apertureRead, hup, hd3, State.apTarget_data hoff, State.apKey, habsent]

theorem State.apertureRead_clean {p : Place} {n : Nat} (hline : s.physLine (s.apertureBase + off) = some p)
    (hclean : (apLines (.data (s.apertureBase + off)) n).find? s.lineBad = none) :
    s.apertureRead off n = (s.sawAddrs (apLines (.data (s.apertureBase + off)) n)).send
      (.aperture (some (s.load (p.data + (s.apertureBase + off) % 128) n)) false) := by
  simp only [State.apertureRead, hup, hd3, State.apTarget_data hoff, State.apKey, hline, Option.map_some, hclean, Bool.not_true,
    Bool.false_eq_true, if_false]

theorem State.apertureWrite_absent (b : Bytes) (habsent : s.physLine (s.apertureBase + off) = none) :
    s.apertureWrite off b = s.apFault off (.data (s.apertureBase + off)) true := by
  simp [State.apertureWrite, hup, hd3, State.apTarget_data hoff, State.apKey, habsent]

/-- A write that is served stores its bytes; beside them only the records of its page change (R262, R271). -/
theorem State.apertureWrite_served {p : Place} (b : Bytes) (hline : s.physLine (s.apertureBase + off) = some p)
    (hserved : s.access (s.apertureBase + off) true = .served) :
    ∃ page, s.apertureWrite off b = { s.store (p.data + (s.apertureBase + off) % 128) b with page := page } := by
  have hmark : ∃ page, (s.store (p.data + (s.apertureBase + off) % 128) b).markDirty (s.apertureBase + off) =
      { s.store (p.data + (s.apertureBase + off) % 128) b with page := page } := by
    unfold State.markDirty
    dsimp only
    split
    · exact ⟨_, rfl⟩
    · split <;> exact ⟨_, rfl⟩
  obtain ⟨page, hmark⟩ := hmark
  simp only [State.apertureWrite, hup, hd3, State.apTarget_data hoff, State.apKey, ApTarget.line, hline, Option.map_some, hserved,
    hmark, Bool.not_true, Bool.false_eq_true, or_self, if_false, ne_eq, not_true_eq_false]
  exact ⟨_, rfl⟩

end

/-- Settles O36: a request is its page's line read or stored, or one fault of the page. -/
theorem apertureReadsAndWrites : Obligations.ApertureReadsAndWrites := by
  intro s off hup hd3 hoff a told
  refine ⟨fun p n hline hclean => ?read, fun p b _ hline hserved => ?write, fun habsent n b => ⟨?readFault, ?writeFault⟩⟩
  case read =>
    have hseen : Corrected s (s.sawAddrs (apLines (.data a) n)) := State.sawWhere_corrected ..
    exact Ends.of_done (congrArg (done s) (State.apertureRead_clean hup hd3 hoff hline hclean)) hseen.kept ⟨_, hseen, rfl⟩
  case write =>
    obtain ⟨page, hrun⟩ := State.apertureWrite_served hup hd3 hoff b hline hserved
    exact Ends.of_doneMem (congrArg (doneMem s) hrun) ⟨rfl, rfl⟩
      ⟨rfl, Mem.readN_writeN .., fun j hj => Mem.read_writeN_other b s.mem _ j hj⟩
  case readFault =>
    have hrun := congrArg (done s) (State.apertureRead_absent hup hd3 hoff n habsent)
    obtain ⟨hagain, hfirst⟩ := s.apFault_data off a false
    cases htold : told with
    | true =>
      rw [hagain htold] at hrun
      exact Ends.of_done hrun ⟨rfl, rfl, rfl⟩ ⟨s, rfl, by rw [if_pos rfl]⟩
    | false =>
      have htells := hfirst htold
      exact Ends.of_done hrun htells.told.kept ⟨_, rfl, by rw [if_neg Bool.false_ne_true]; exact htells⟩
  case writeFault =>
    have hrun := congrArg (doneMem s) (State.apertureWrite_absent hup hd3 hoff b habsent)
    obtain ⟨hagain, hfirst⟩ := s.apFault_data off a true
    cases htold : told with
    | true =>
      rw [hagain htold] at hrun
      exact Ends.of_doneMem hrun ⟨rfl, rfl⟩ (by rw [if_pos rfl])
    | false =>
      have htells := hfirst htold
      obtain ⟨hq, hf, -⟩ := htells.told.kept
      exact Ends.of_doneMem hrun ⟨hq, hf⟩ (by rw [if_neg Bool.false_ne_true]; exact htells)

end Machine
end Sys2Proof
end

section
/-! SUPPORT. MAP_BATCH and LOOKUP_ADDR (R42, R52, R264): a whole table that waits for the boundary, and the entry shown. -/

namespace Sys2Proof.Machine

open Sys2Proof

theorem atService_rwt (s : State) (svc : Nat) (d : Bool) (m : Msg) : (atService s svc d m).dict.rwt = s.dict.rwt := by
  unfold atService
  split
  · unfold State.authTake State.heard
    split <;> split <;> split <;> rfl
  · rfl

/-- What waits for an object rests on the list of writes that wait alone. -/
theorem State.waits_congr {s t : State} (h : t.dict.rwt = s.dict.rwt) (k : Nat) : t.waits k = s.waits k := by
  rw [State.waits, State.waits, h]

/-- The batch is a table that takes effect at a boundary (R264). -/
theorem State.find_mapBatch (s : State) : s.find 0x4410 1 = .ok (.dom 1 .rwt 0) := rfl

/-- What a silence discarded of a client's table is forgotten (R52). -/
def State.forgive (s : State) (p : Path) (k : Nat) : State :=
  { s with dict := { s.dict with abandoned := s.dict.abandoned.filter fun y => !decide (y = (p, k)) } }

/-- A table that comes whole, where no write of it is staged, is accepted once it passes its checks (R43, R52). -/
theorem State.writeBlock_whole {s : State} (x : WriteEnv) {m : Msg} {o : Obj}
    (hfound : s.find m.index.toNat m.sub.toNat = .ok o) (hdom : o.ty = .domain)
    (hfree : s.dict.staged.any (fun y => decide (y.key = okey m.index.toNat m.sub.toNat)) = false)
    (hroom : m.payload.length ≤ domRoom o (okey m.index.toNat m.sub.toNat)) (hoff : m.offset = 0) (hlast : m.last = true)
    (hpass : (s.forgive m.path (okey m.index.toNat m.sub.toNat)).checkTable m o (okey m.index.toNat m.sub.toNat) m.payload = abOk)
    (hopen : okey m.index.toNat m.sub.toNat ≠ 0x810002) :
    s.writeBlock x m = (s.forgive m.path (okey m.index.toNat m.sub.toNat)).accept x m.path o
      (okey m.index.toNat m.sub.toNat) m.payload := by
  have hzero : m.offset.toNat = 0 := by simp [hoff]
  have hnone : ∀ y ∈ s.dict.staged, y.key ≠ okey m.index.toNat m.sub.toNat := by simpa using hfree
  have hothers : s.dict.staged.any (fun y => decide (y.key = okey m.index.toNat m.sub.toNat ∧ y.path ≠ m.path)) = false := by
    simpa using fun y hy hk => absurd hk (hnone y hy)
  have hrest : (s.dict.staged.filter fun y => !decide (y.key = okey m.index.toNat m.sub.toNat)) = s.dict.staged :=
    List.filter_eq_self.2 fun y hy => by simpa using hnone y hy
  unfold State.forgive at hpass ⊢
  simp only [State.writeBlock, hfound, hdom, hothers, hzero, hlast, hrest, Nat.zero_add, Nat.not_lt.mpr hroom, ne_eq,
    not_true_eq_false, false_and, if_false, if_true, Bool.false_eq_true, List.nil_append, State.writeTable, hpass, if_neg hopen]

/-- Settles O35: the batch is accepted to wait, and LOOKUP_ENTRY is formed from LOOKUP_ADDR as it reads. -/
theorem mappingWrites : Obligations.MappingWrites := by
  refine ⟨?batch, ?lookup⟩
  case batch =>
    intro s m pairs o m' hw
    obtain ⟨hstaged, -, habandoned, -⟩ := atService_dict s 4 false m'
    have hrwt := atService_rwt s 4 false m'
    have ho : o.acc = .rwt := congrArg Obj.acc (Except.ok.inj (hw.found.symm.trans (State.find_mapBatch _)))
    have hfree := hw.free
    rw [← hstaged] at hfree
    have haccept := State.writeBlock_whole s.plainEnv hw.found hw.table hfree hw.room hw.start hw.whole (hw.passes _) (by
      show okey 0x4410 1 ≠ _
      decide)
    have hlater := haccept.trans (State.accept_later _ _ _ _ _ _ ho)
    refine Ends.of_service (.inl rfl) hw.heard ((State.service_writeBlock _ _ false hw.heard.no_fault).trans hlater) ⟨rfl, rfl⟩
      fun t hsame hanswer => ⟨⟨_, rfl, hanswer⟩, _, hsame, ?_, State.waits_queueWrite_self .., fun j hj => ?_⟩
    · rw [← hrwt, ← habandoned]
      rfl
    · exact (State.waits_queueWrite_other _ _ _ hj).trans (State.waits_congr hrwt j)
  case lookup =>
    rintro s m addr ⟨o, hw, hacc⟩
    have hvalue : leNat (leBytes 8 addr.toNat) = addr.toNat := leNat_leBytes 8 _ addr.isLt
    have happly (u : State) (p : Path) :
        u.applyNow s.plainEnv p (okey 0x4410 2) (leNat (leBytes 8 addr.toNat)) = u.setReg (okey 0x4410 2) addr.toNat := by
      rw [hvalue]
      rfl
    refine WriteEnds.of_now rfl hw hacc (happly ..) ⟨rfl, rfl, rfl⟩ rfl ⟨rfl, ?_⟩
    exact congrArg (State.entryAt _) (State.reg_setReg_self ..)

end Sys2Proof.Machine
end

section
/-! SUPPORT. A page that a context and a command's record both come to wait for, as an event is told (R64, R265, R472). -/

namespace Sys2Proof.Machine

open Sys2Proof

/-- The second page of the data space, backed by a slot of the host pool, is not present, and context 0 waits for it. The command
of context 0 stands in queue 24,592, which no queue of R77 is: the key of its COMPLETION_BASE is that of TRIGGER_SEQUENCE of T0. An
event fires the trace trigger, and TRIGGER_SEQUENCE becomes the number of T0's next record: here the page's address (R450). -/
def strayRecord (phase : Phase) (ins : List PageIn) : State :=
  { State.reset with
    regs := [(okey 0x9100 1, 2 ^ 0x0D), (okey 0x9110 1, 0x0D), (okey 0x9110 5, 0), (okey 0x9110 8, 1)]
    cmds := [{ Cmd.fetched 24592 0 0 0 with phase := phase, worked := true, bound := [(0, 0)] }]
    ctxs := [(0, { Ctx.fresh with faultPage := some (2 ^ 21) })]
    page := { State.reset.page with small := [(1, 0x9000000080000000)], ins := ins }
    obs := { State.reset.obs with traces := [(0, { TraceBuf.fresh with seq := 2 ^ 21, frozen := true })] } }

/-- Refutes O34: nothing in it bounds the queue number of a command in flight. The trigger that MEMORY_FULL fires moves the record
of the command of queue 24,592 to the page that found no frame, and with the record lost the command leaves. -/
theorem not_pageInsAndDrains : ¬ Obligations.PageInsAndDrains := by
  intro ⟨hstart, _, _⟩
  obtain ⟨_, hfull⟩ := hstart (strayRecord .done []) (2 ^ 21) 0 (by decide +kernel) (by decide +kernel) (by decide +kernel)
    (by decide)
  obtain ⟨t, ht, htells⟩ := hfull (by decide +kernel) (by decide +kernel) (by decide +kernel)
  have hstays : t.cmds = (strayRecord .done []).cmds := (Aside.of_told htells.told).cmds
  have hleaves : t.cmds = [] := by
    cases ht
    decide +kernel
  rw [hleaves] at hstays
  cases hstays

/-- Refutes O37: nothing in it bounds the queue number of a command in flight. The trigger that the halt's event fires moves the
record of the command of queue 24,592 to the page whose read timed out, and with the record lost the command leaves. -/
theorem not_hostReadTimeoutAndWake : ¬ Obligations.HostReadTimeoutAndWake := by
  intro ⟨htimeout, _⟩
  obtain ⟨t, ht, _, _, ⟨c, hc, _⟩, _⟩ := htimeout (strayRecord .halted [⟨2 ^ 21, 0, 0, 0, 0⟩]) (2 ^ 21) _ 0 _
    (by decide +kernel) rfl (by decide +kernel) rfl (by decide +kernel) (by decide +kernel)
  have hleaves : t.cmds = [] := by
    cases ht
    decide +kernel
  rw [State.cmd?, hleaves] at hc
  cases hc

end Sys2Proof.Machine
end

section
/-! SUPPORT. What the work of an UPDATE leaves alone (R297–R307), and what a write to a region of a Fixer die rests on. -/

namespace Sys2Proof.Machine

open Sys2Proof

/-! ### What the work of an UPDATE leaves alone -/

/-- The queue, the fuses, the tables, the Fixer dies and the commands in flight are as before, and so are the counts of updates and
the module's ID. -/
structure UpdateKeeps (s t : State) : Prop where
  pending : t.pending = s.pending
  fuse    : t.fuse = s.fuse
  dom     : t.dom = s.dom
  fix     : t.fix = s.fix
  cmds    : t.cmds = s.cmds
  objs    : ∀ k, k / 256 = 0x6050 ∨ k / 256 = 0x5100 → t.reg k = s.reg k

namespace UpdateKeeps

theorem refl (s : State) : UpdateKeeps s s := ⟨rfl, rfl, rfl, rfl, rfl, fun _ _ => rfl⟩

theorem trans {s t u : State} (h : UpdateKeeps s t) (h' : UpdateKeeps t u) : UpdateKeeps s u :=
  ⟨h'.pending.trans h.pending, h'.fuse.trans h.fuse, h'.dom.trans h.dom, h'.fix.trans h.fix, h'.cmds.trans h.cmds,
    fun k hk => (h'.objs k hk).trans (h.objs k hk)⟩

theorem ite {p : Prop} [Decidable p] {s t u : State} (ht : UpdateKeeps s t) (hu : UpdateKeeps s u) :
    UpdateKeeps s (if p then t else u) := by
  split
  · exact ht
  · exact hu

theorem ite_fst {β : Type} {p : Prop} [Decidable p] {s : State} {x y : State × β} (hx : UpdateKeeps s x.1)
    (hy : UpdateKeeps s y.1) : UpdateKeeps s (if p then x else y).1 := by
  split
  · exact hx
  · exact hy

theorem foldl {α : Type} (g : State → α → State) (l : List α) (s : State) (h : ∀ s a, UpdateKeeps s (g s a)) :
    UpdateKeeps s (l.foldl g s) := by
  induction l generalizing s with
  | nil => exact refl s
  | cons a l ih => exact (h s a).trans (ih _)

theorem of_told {s t : State} (h : Told s t) : UpdateKeeps s t := by
  obtain ⟨hpending, hfuse, -⟩ := h.kept
  have hdom := congrArg State.dom h.rest
  have hfix := congrArg State.fix h.rest
  have hcmds := congrArg State.cmds h.rest
  exact ⟨hpending, hfuse, hdom, hfix, hcmds, fun k hk => h.objs k (by unfold eventKey; omega)⟩

theorem gradEpochs (s : State) (c : Cmd) (t : Tensor) (ps : List (Nat × Plate)) : UpdateKeeps s (s.gradEpochs c t ps) := by
  unfold State.gradEpochs
  split
  · exact refl s
  · have hposted : UpdateKeeps s (s.postCause 3) := ⟨rfl, rfl, rfl, rfl, rfl, fun _ _ => rfl⟩
    exact hposted.trans (of_told (State.raiseCmd_told ..))

theorem bump (s : State) {k : Nat} (n : Nat) (hk : ¬ (k / 256 = 0x6050 ∨ k / 256 = 0x5100)) : UpdateKeeps s (s.bump k n) :=
  ⟨rfl, rfl, rfl, rfl, rfl, fun j hj => s.reg_bump_other k j n fun h => hk (h ▸ hj)⟩

theorem convCounts (s : State) (o : TensorOut) : UpdateKeeps s (s.convCounts o) := by
  unfold State.convCounts
  extract_lets clamped
  have hclamped : UpdateKeeps s clamped := ite (bump s _ (by decide)) (refl s)
  exact ite (hclamped.trans (bump clamped _ (by decide))) hclamped

theorem copyCounts (s : State) (o : Option TensorOut) : UpdateKeeps s (s.copyCounts o) := by
  cases o with
  | none => exact refl s
  | some o => exact convCounts s o

theorem setPage (s : State) (p : PageSt) : UpdateKeeps s { s with page := p } := ⟨rfl, rfl, rfl, rfl, rfl, fun _ _ => rfl⟩

theorem store (s : State) (a : Nat) (b : Bytes) : UpdateKeeps s (s.store a b) := ⟨rfl, rfl, rfl, rfl, rfl, fun _ _ => rfl⟩

theorem tame (s : State) (k : Nat) : UpdateKeeps s (s.tame k) := by
  unfold State.tame
  split
  · exact refl s
  · exact setPage s _

theorem putPlate (s : State) (p : Place) (x : Plate) : UpdateKeeps s (s.putPlate p x) := by
  unfold State.putPlate
  extract_lets data margin nugget
  have hnugget : UpdateKeeps s nugget := ((store s _ _).trans (store data _ _)).trans (store margin _ _)
  exact (hnugget.trans (setPage nugget _)).trans (tame _ _)

theorem markDirty (s : State) (a : Nat) : UpdateKeeps s (s.markDirty a) := by
  unfold State.markDirty
  dsimp only
  split
  · exact refl s
  · split <;> exact setPage s _

theorem writeFix (s : State) (t : Tensor) (ps : List (Nat × Plate)) : UpdateKeeps s (s.writeFix t ps) := by
  refine foldl _ _ _ fun s p => ?_
  split
  · exact refl s
  · exact (putPlate s _ _).trans (markDirty _ _)

section
variable {s t : State} (h : UpdateKeeps s t)
include h

theorem fixTensor : t.fixTensor = s.fixTensor := by
  have hmodule : t.moduleId = s.moduleId := h.objs _ (.inr rfl)
  funext fmt base rows cols
  rw [State.fixTensor, State.fixTensor, hmodule]

theorem hiT (e sd : Nat) : t.hiT e sd = s.hiT e sd := congrFun (congrFun (congrFun (congrFun h.fixTensor _) _) _) _
theorem loT (e sd : Nat) : t.loT e sd = s.loT e sd := congrFun (congrFun (congrFun (congrFun h.fixTensor _) _) _) _
theorem mT (e sd : Nat) : t.mT e sd = s.mT e sd := congrFun (congrFun (congrFun (congrFun h.fixTensor _) _) _) _

theorem fixConv (e fmt : Nat) : t.fixConv e fmt = s.fixConv e fmt := by
  simp only [State.fixConv, State.gapOf, State.steer, State.domNat, State.domBytes, State.domByte, h.dom]

theorem fixTensorOut : t.fixTensorOut = s.fixTensorOut := by
  funext e x v
  rw [State.fixTensorOut, State.fixTensorOut, h.fixConv]

end

end UpdateKeeps

theorem gradEpochs_page (s : State) (c : Cmd) (t : Tensor) (ps : List (Nat × Plate)) : (s.gradEpochs c t ps).page = s.page := by
  unfold State.gradEpochs
  split
  · rfl
  · exact (State.raiseCmd_told ..).page_eq

/-! ### What a write to a region rests on -/

section
variable (s : State) (k v : Nat)

theorem State.tame_setReg (a : Nat) : (s.setReg k v).tame a = (s.tame a).setReg k v := by
  unfold State.tame
  rw [show (s.setReg k v).wildAt a = s.wildAt a from rfl]
  cases s.wildAt a <;> rfl

theorem State.putPlate_setReg (p : Place) (x : Plate) : (s.setReg k v).putPlate p x = (s.putPlate p x).setReg k v := by
  unfold State.putPlate
  extract_lets data margin nugget data' margin' nugget'
  exact State.tame_setReg (nugget'.healLines fun j => decide (j = p.data)) k v p.data

theorem State.markDirty_setReg (a : Nat) : (s.setReg k v).markDirty a = (s.markDirty a).setReg k v := by
  unfold State.markDirty
  rw [show (s.setReg k v).entryAt a = s.entryAt a from rfl, State.setReg_page]
  dsimp only
  split
  · rfl
  · cases SMap.get? s.page.large (a / 2 ^ 30) <;> rfl

/-- Where a write lands, and what it leaves there, rests on memory and its pages, not on the objects. -/
theorem State.writeFix_setReg (t : Tensor) (ps : List (Nat × Plate)) :
    (s.setReg k v).writeFix t ps = (s.writeFix t ps).setReg k v := by
  unfold State.writeFix
  refine List.foldl_hom (State.setReg · k v) fun u p => ?_
  rw [show (u.setReg k v).physLine (t.base + p.1) = u.physLine (t.base + p.1) from rfl]
  cases u.physLine (t.base + p.1) with
  | none => rfl
  | some pl => simp only [State.putPlate_setReg, State.markDirty_setReg]

end

/-- What a conversion counts is no part of where its plates are written. -/
theorem State.writeFix_convCounts_mem (s : State) (o : TensorOut) (t : Tensor) (ps : List (Nat × Plate)) :
    ((s.convCounts o).writeFix t ps).mem = (s.writeFix t ps).mem := by
  have hbump (s : State) (k n : Nat) : ((s.bump k n).writeFix t ps).mem = (s.writeFix t ps).mem := by
    rw [State.bump, State.writeFix_setReg, State.setReg_mem]
  unfold State.convCounts
  dsimp only
  split <;> split <;> simp only [hbump]

end Sys2Proof.Machine
end

section
/-! SUPPORT. The rules of an element (R300–R302), and what a dense UPDATE under a rule of one moment writes (R290, R297, R304). -/

namespace Sys2Proof.Machine

open Sys2Proof

/-! ### The rules -/

/-- Settles O41: an element's result under each rule, with the prologue's values as R299 and R301 compute them, unfolds to the
formulas that R300, R301 and R302 print. -/
theorem updateRules : Obligations.UpdateRules := by
  intro p lr g w m r n
  refine ⟨?momentum, ?momentPair, ?signMomentum⟩
  case momentum => rfl
  case momentPair => rfl
  case signMomentum => rfl

/-! ### Results by row and column -/

theorem getD_rows {α : Type} (f : Nat → Nat → α) (rows cols i j : Nat) (d : α) :
    (((List.range rows).map fun i => (List.range cols).map (f i)).getD i []).getD j d =
      if i < rows ∧ j < cols then f i j else d := by
  by_cases hi : i < rows <;> by_cases hj : j < cols <;> simp [List.getD_eq_getElem?_getD, hi, hj]

/-- Outside U3 an element rests on its own place alone (R300–R302). -/
theorem updDense_of_rule {q : Prologue} (hrule : q.rule ≠ 3) (g w m r : List (List Fx)) (fr fc : List Fx) (cols : Nat) :
    updDense q g w m r fr fc cols = ((List.range g.length).map fun i => (List.range cols).map fun j =>
      updElt q ((g.getD i []).getD j Fx.zero) ((w.getD i []).getD j Fx.zero) ((m.getD i []).getD j Fx.zero)
        ((r.getD i []).getD j Fx.zero), [], []) := by
  simp only [updDense, if_neg hrule]

/-- The entry of the group that an UPDATE names. -/
def State.groupOf (s : State) (c : Cmd) : Nat := s.group (s.fixOf c) (oGroup c.desc)

/-- A region reads whole, as these plates. -/
def State.Reads (s : State) (t : Tensor) (ps : List (Nat × Plate)) : Prop := s.readFix t (tensorLines t) = .ok ps

/-- What an element of a dense group becomes under a rule of one moment (R297, R299), from the plates of its gradient, of its
weights' halves and of its moment; zeros outside the group. -/
def State.denseElt (s : State) (c : Cmd) (e : Nat) (gp hp lp mp : List (Nat × Plate)) (i j : Nat) : EltUpd :=
  let gt := s.gradT c e
  if i < gRows e ∧ j < gCols e then
    updElt (s.prologueOf c e) (gradVal c.desc (cellAt gt (epochOk c gt) gp 0 i j).value)
      (dec32 (weightBits (rawOf (s.hiT e (gSide e)) hp i j) (rawOf (s.loT e (gSide e)) lp i j)))
      (cellAt (s.mT e (gSide e)) anyPlate mp 0 i j).value Fx.zero
  else ⟨Fx.zero, Fx.zero, Fx.zero⟩

/-- The writes of a dense update under a rule of one moment (R290, R304): the halves of the new weights, then the new moment. -/
def State.writeOneMoment (s : State) (e : Nat) (hi lo m : Tensor) (new : Nat → Nat → EltUpd) : State :=
  let half (t : Tensor) (v : BitVec 32 → Nat) := rawPlates t (List.range (gRows e)) fun i j => v (enc32 (new i j).w)
  ((s.writeFix hi (half hi fun w => w.toNat / 65536)).writeFix lo (half lo fun w => w.toNat % 65536)).writeFix m
    (s.fixTensorOut e m fun i j => (new i j).m).plates

/-- A step of a computation that may fail goes on with what the step before it gave. -/
theorem bind_of_ok {ε α β : Type} {x : Except ε α} {a : α} (hx : x = .ok a) (f : α → Except ε β) : (x >>= f) = f a := by
  rw [hx]
  rfl

section
variable {s : State} {c : Cmd} {gp hp lp mp : List (Nat × Plate)}

/-- The results of a dense update outside U3, by row and column. -/
theorem denseElt_rows (u : State) (hu : UpdateKeeps s u) (hrule : (s.prologueOf c (s.groupOf c)).rule ≠ 3) (fr fc : List Fx) :
    let e := s.groupOf c
    let gt := s.gradT c e
    updDense (s.prologueOf c e) ((List.range (gRows e)).map fun i => (rowOf gt (epochOk c gt) gp i).map (gradVal c.desc))
        ((List.range (gRows e)).map fun i => (List.range (gCols e)).map fun j =>
          dec32 (weightBits (rawOf (u.hiT e (gSide e)) hp i j) (rawOf (u.loT e (gSide e)) lp i j)))
        ((List.range (gRows e)).map (rowOf (u.mT e (gSide e)) anyPlate mp)) [] fr fc (gCols e) =
      ((List.range (gRows e)).map fun i => (List.range (gCols e)).map (s.denseElt c e gp hp lp mp i), [], []) := by
  intro e gt
  have hg : ((List.range (gRows e)).map fun i => (rowOf gt (epochOk c gt) gp i).map (gradVal c.desc)) =
      (List.range (gRows e)).map fun i => (List.range (gCols e)).map fun j =>
        gradVal c.desc (cellAt gt (epochOk c gt) gp 0 i j).value := by
    simp only [rowOf, List.map_map]
    rfl
  have hm : (List.range (gRows e)).map (rowOf (s.mT e (gSide e)) anyPlate mp) =
      (List.range (gRows e)).map fun i => (List.range (gCols e)).map fun j =>
        (cellAt (s.mT e (gSide e)) anyPlate mp 0 i j).value := rfl
  rw [updDense_of_rule hrule, hu.hiT, hu.loT, hu.mT, hg, hm, List.length_map, List.length_range]
  refine congrArg (·, [], []) (List.map_congr_left fun i hi => List.map_congr_left fun j hj => ?_)
  have hin : i < gRows e ∧ j < gCols e := ⟨List.mem_range.1 hi, List.mem_range.1 hj⟩
  rw [getD_rows, getD_rows, getD_rows, if_pos hin, if_pos hin, if_pos hin, State.denseElt, if_pos hin]
  rfl

theorem denseElt_getD (e i j : Nat) :
    (((List.range (gRows e)).map fun i => (List.range (gCols e)).map (s.denseElt c e gp hp lp mp i)).getD i []).getD j
      ⟨Fx.zero, Fx.zero, Fx.zero⟩ = s.denseElt c e gp hp lp mp i j := by
  rw [getD_rows]
  by_cases hin : i < gRows e ∧ j < gCols e
  · rw [if_pos hin]
  · rw [if_neg hin, State.denseElt, if_neg hin]

theorem denseElt_bits (e i j : Nat) :
    ((((List.range (gRows e)).map fun i => (List.range (gCols e)).map (s.denseElt c e gp hp lp mp i)).map fun row =>
      row.map fun x => enc32 x.w).getD i []).getD j 0 = enc32 (s.denseElt c e gp hp lp mp i j).w := by
  simp only [List.map_map, Function.comp_def]
  rw [getD_rows fun i j => enc32 (s.denseElt c e gp hp lp mp i j).w]
  by_cases hin : i < gRows e ∧ j < gCols e
  · rw [if_pos hin]
  · rw [if_neg hin, State.denseElt, if_neg hin]
    rfl

/-- A dense update under a rule of one moment and with no narrow copy, whose regions can be read and written, writes its other side
and ends. -/
theorem updDenseRun_oneMoment (hrule : gRule (s.groupOf c) = 0 ∨ gRule (s.groupOf c) = 2) (hfmt : SMap.get 0 c.expo 0 = 0)
    (hgp : s.Reads (s.gradT c (s.groupOf c)) gp) (hhp : s.Reads (s.hiT (s.groupOf c) (gSide (s.groupOf c))) hp)
    (hlp : s.Reads (s.loT (s.groupOf c) (gSide (s.groupOf c))) lp) (hmp : s.Reads (s.mT (s.groupOf c) (gSide (s.groupOf c))) mp)
    (hroom : let e := s.groupOf c
      s.fixWritable [s.hiT e (1 - gSide e), s.loT e (1 - gSide e), s.mT e (1 - gSide e)] = .ok ()) :
    let e := s.groupOf c
    ∃ v, s.updDenseRun c = .ok v ∧ v.mem = ((s.gradEpochs c (s.gradT c e) gp).writeOneMoment e (s.hiT e (1 - gSide e))
      (s.loT e (1 - gSide e)) (s.mT e (1 - gSide e)) (s.denseElt c e gp hp lp mp)).mem := by
  generalize hrun : s.updDenseRun c = run
  unfold State.updDenseRun at hrun
  extract_lets f e sd q fmt useM useR all none' gt rows at hrun
  have hq : q.rule ≠ 3 ∧ q.rule ≠ 1 := by
    have hgroup : q.rule = gRule (s.groupOf c) := rfl
    omega
  obtain ⟨hq3, hq1⟩ := hq
  have huseM : useM = true := by simp [useM, hq3]
  have huseR : ¬ useR = true := by simp [useR, hq1]
  -- The regions are read in turn; those of a second moment and of the factors are no part of the rule.
  rw [bind_of_ok (x := all gt) hgp, bind_of_ok (x := all (s.hiT e sd)) hhp, bind_of_ok (x := all (s.loT e sd)) hlp] at hrun
  extract_lets u gs wOld withMoment at hrun
  rw [if_pos huseM, bind_of_ok (x := all (s.mT e sd)) hmp] at hrun
  unfold withMoment at hrun
  extract_lets ms withRoot at hrun
  rw [if_neg huseR, bind_of_ok rfl] at hrun
  unfold withRoot at hrun
  extract_lets rs withFactors at hrun
  rw [if_neg hq3, bind_of_ok rfl] at hrun
  unfold withFactors at hrun
  rw [if_pos huseM, if_neg huseR, if_neg hq3, if_pos hfmt,
    bind_of_ok (x := s.fixWritable ([s.hiT e (1 - sd), s.loT e (1 - sd)] ++ [s.mT e (1 - sd)] ++ [] ++ [] ++ [])) hroom] at hrun
  extract_lets fac fr fc at hrun
  have hu : UpdateKeeps s u := UpdateKeeps.gradEpochs s c gt gp
  have hms : ms = rows.map (rowOf (u.mT e sd) anyPlate mp) := if_pos huseM
  have hrs : rs = [] := if_neg huseR
  have hout : updDense q gs wOld ms rs fr fc (gCols e) =
      (rows.map fun i => (List.range (gCols e)).map (s.denseElt c e gp hp lp mp i), [], []) := by
    rw [hms, hrs]
    exact denseElt_rows u hu hq3 fr fc
  rw [hout] at hrun
  dsimp -zeta only at hrun
  extract_lets at' bits' wNew hi lo moment factored copied nf pairs sums counted at hrun
  -- Between the writes only memory and its pages change, so that the regions and the conversion are those of `u`.
  have hhi : UpdateKeeps u hi := UpdateKeeps.writeFix ..
  have hlo : UpdateKeeps u lo := hhi.trans (UpdateKeeps.writeFix ..)
  have hat : at' = s.denseElt c e gp hp lp mp := funext fun i => funext fun j => denseElt_getD e i j
  have hbits : wNew = fun i j => enc32 (s.denseElt c e gp hp lp mp i j).w :=
    funext fun i => funext fun j => denseElt_bits e i j
  have hfactored : factored = (moment lo (lo.mT e (1 - sd)) EltUpd.m).1 := by
    unfold factored
    rw [if_neg hq3, if_neg huseR, if_pos huseM]
  have hcounted : counted.mem = factored.mem := by
    unfold counted copied
    rw [State.bump_mem, State.copyCounts_mem, if_pos hfmt]
  refine ⟨_, hrun.symm, ?_⟩
  rw [State.setCmd_mem, hcounted, hfactored]
  refine (State.writeFix_convCounts_mem ..).trans ?_
  rw [hlo.fixTensorOut, hlo.mT, hu.mT, hat]
  unfold lo
  rw [hhi.loT, hu.loT]
  unfold hi
  rw [hu.hiT, hbits]
  rfl

end

end Sys2Proof.Machine
end

section
/-! SUPPORT. The outcomes of an UPDATE (R296, R304, R307, R309): a frozen touch, a dense group, the rows of a touched group that are
held, and a memory error. -/

namespace Sys2Proof.Machine

open Sys2Proof

/-! ### The run of an UPDATE -/

/-- Where a computation that may fail ends in a state, `P` holds of it. -/
def Gives {ε : Type} (x : Except ε State) (P : State → Prop) : Prop := ∀ u, x = .ok u → P u

theorem Gives.of_ok {ε : Type} {P : State → Prop} {u : State} (h : P u) : Gives (.ok u : Except ε State) P := by
  rintro v ⟨⟩
  exact h

theorem Gives.bind {ε α : Type} {P : State → Prop} {x : Except ε α} {f : α → Except ε State}
    (h : ∀ a, x = .ok a → Gives (f a) P) : Gives (x >>= f) P := by
  cases x with
  | error b => rintro u ⟨⟩
  | ok a => exact h a rfl

theorem Gives.ite {ε : Type} {p : Prop} [Decidable p] {P : State → Prop} {x y : Except ε State} (hx : Gives x P)
    (hy : Gives y P) : Gives (if p then x else y) P := by
  split
  · exact hx
  · exact hy

/-- The command has done its work, and is otherwise where it was. -/
structure Cmd.HasWorked (c c' : Cmd) : Prop where
  q      : c'.q = c.q
  slot   : c'.slot = c.slot
  phase  : c'.phase = c.phase
  worked : c'.worked = true

/-- The work has counted `n` elements, and what it wrote and told has left the rest of `s` alone. -/
def Updated (s : State) (c : Cmd) (n : Nat) (u : State) : Prop :=
  ∃ v c', UpdateKeeps s v ∧ c.HasWorked c' ∧ u = (v.bump (okey 0x6050 5) n).setCmd c'

/-- A dense UPDATE that ends has counted its elements (R297), whatever its rule and its copy. -/
theorem updDenseRun_gives (s : State) (c : Cmd) :
    Gives (s.updDenseRun c) (Updated s c (gRows (s.groupOf c) * gCols (s.groupOf c))) := by
  unfold State.updDenseRun
  extract_lets f e sd q fmt useM useR all none' gt rows
  refine Gives.bind fun gp _ => Gives.bind fun hp _ => Gives.bind fun lp _ => ?_
  extract_lets u gs wOld withMoment
  suffices hmoment : ∀ mp, Gives (withMoment mp) (Updated s c (gRows e * gCols e)) from
    Gives.ite (Gives.bind fun mp _ => hmoment mp) (Gives.bind fun mp _ => hmoment mp)
  intro mp
  unfold withMoment
  extract_lets ms withRoot
  suffices hroot : ∀ rp, Gives (withRoot rp) (Updated s c (gRows e * gCols e)) from
    Gives.ite (Gives.bind fun rp _ => hroot rp) (Gives.bind fun rp _ => hroot rp)
  intro rp
  unfold withRoot
  extract_lets rs withFactors
  suffices hfactors : ∀ fp, Gives (withFactors fp) (Updated s c (gRows e * gCols e)) from
    Gives.ite (Gives.bind fun fp _ => hfactors fp) (Gives.bind fun fp _ => hfactors fp)
  intro fp
  refine Gives.bind fun _ _ => ?_
  extract_lets fac fr fc
  dsimp -zeta only
  extract_lets at' bits' wNew hi lo moment factored copied nf pairs sums counted
  have hlo : UpdateKeeps s lo :=
    ((UpdateKeeps.gradEpochs s c gt gp).trans (UpdateKeeps.writeFix u ..)).trans (UpdateKeeps.writeFix hi ..)
  have hmoment {v : State} (hv : UpdateKeeps s v) (has : Bool) (t : Tensor) (w : EltUpd → Fx) :
      UpdateKeeps s (if has = true then moment v t w else (v, [])).1 :=
    UpdateKeeps.ite_fst ((hv.trans (UpdateKeeps.convCounts v _)).trans (UpdateKeeps.writeFix ..)) hv
  have hmoments := hmoment (hmoment hlo useM (lo.mT e (1 - sd)) EltUpd.m) useR
  have hfactored : UpdateKeeps s factored := UpdateKeeps.ite ((hmoments _ _).trans (UpdateKeeps.writeFix ..)) (hmoments _ _)
  have hcopied : UpdateKeeps s copied :=
    (UpdateKeeps.ite hfactored (hfactored.trans (UpdateKeeps.writeFix ..))).trans (UpdateKeeps.copyCounts ..)
  refine Gives.of_ok ⟨copied, _, hcopied, ?_, rfl⟩
  exact ⟨rfl, rfl, rfl, rfl⟩

/-- The state that a frozen touch leaves (R296): its gradient's epochs checked, the touch counted and told. -/
theorem touchRun_eq {s : State} {c : Cmd} {gp : List (Nat × Plate)} (hgp : s.Reads (s.gradT c (s.groupOf c)) gp) :
    ∃ v, UpdateKeeps ((s.gradEpochs c (s.gradT c (s.groupOf c)) gp).bump (okey 0x6050 3) 1) v ∧ v.mem = s.mem ∧
      s.touchRun c = .ok (v.setCmd { c with worked := true }) := by
  refine ⟨_, ?_, ?_, bind_of_ok hgp _⟩
  · exact UpdateKeeps.ite (UpdateKeeps.of_told (State.raiseCmd_told ..)) (UpdateKeeps.refl _)
  · split <;> simp

/-! ### The rows of a touched group -/

/-- New rows in place of a group's held ones: they are the group's, and every other group's stay. -/
theorem holds_replaced {g : Nat} (old : List HeldRow) {new : List HeldRow} (hnew : ∀ h ∈ new, h.group = g) :
    let l := (old.filter fun h => !decide (h.group = g)) ++ new
    (l.filter fun h => decide (h.group = g)) = new ∧
      (l.filter fun h => !decide (h.group = g)) = old.filter fun h => !decide (h.group = g) := by
  have hall : (new.filter fun h => decide (h.group = g)) = new := List.filter_eq_self.2 fun h hh => by simp [hnew h hh]
  have hnone : (new.filter fun h => !decide (h.group = g)) = [] := List.filter_eq_nil_iff.2 fun h hh => by simp [hnew h hh]
  simp [List.filter_append, List.filter_filter, hall, hnone]

/-- Die `f` holds the rows `rows` of group `g` and every other group's as before, and memory, the tables and the commands in flight
are as they were. -/
structure HoldsRows (s : State) (f g : Nat) (rows : List Nat) (t : State) : Prop where
  pending : t.pending = s.pending
  fuse    : t.fuse = s.fuse
  mem     : t.mem = s.mem
  dom     : t.dom = s.dom
  cmds    : t.cmds = s.cmds
  mine    : ((t.fixer f).holds.filter fun h => decide (h.group = g)).map HeldRow.row = rows
  others  : ((t.fixer f).holds.filter fun h => !decide (h.group = g)) = (s.fixer f).holds.filter fun h => !decide (h.group = g)

/-- The work of a touched UPDATE holds the rows that it lists, in their order. -/
theorem updRowsRun_gives (s : State) (c : Cmd) : Gives (s.updRowsRun c) fun u => ∃ rows v c',
    s.rowList c.desc = .ok rows ∧ HoldsRows s (s.fixOf c) (oGroup c.desc) rows v ∧ c.HasWorked c' ∧ u = v.setCmd c' := by
  unfold State.updRowsRun
  extract_lets f g e q fmt useR gt
  refine Gives.bind fun gp _ => Gives.bind fun rows hrows => Gives.bind fun steps _ => ?_
  extract_lets rowLines u x
  refine Gives.bind fun hp _ => Gives.bind fun lp _ => Gives.bind fun mp _ => ?_
  extract_lets withRoot
  suffices hroot : ∀ rp, Gives (withRoot rp) _ from
    Gives.ite (Gives.bind fun rp _ => hroot rp) (Gives.bind fun rp _ => hroot rp)
  intro rp
  unfold withRoot
  extract_lets outs held made converted stC posts counted
  have hu : UpdateKeeps s u := UpdateKeeps.gradEpochs s c gt gp
  have hconverted : UpdateKeeps held converted := UpdateKeeps.foldl _ _ _ UpdateKeeps.convCounts
  have hmem : converted.mem = s.mem := by
    have hfold : converted.mem = held.mem := foldl_keeps State.mem _ _ _ State.convCounts_mem
    rw [hfold, State.setFixer_mem, State.gradEpochs_mem]
  have hdie : counted.fixer f = { x with holds := (x.holds.filter fun h => !decide (h.group = g)) ++ outs.map RowOut.held } := by
    have hfix : counted.fixer f = held.fixer f := by rw [State.fixer, State.fixer, ← hconverted.fix]; rfl
    exact hfix.trans (State.fixer_setFixer_self ..)
  have hx : x.holds = (s.fixer f).holds := by rw [State.fixer, ← hu.fix]; rfl
  have hgroup : ∀ h ∈ outs.map RowOut.held, h.group = g := by
    intro h hh
    obtain ⟨o, ho, rfl⟩ := List.mem_map.1 hh
    obtain ⟨p, -, rfl⟩ := List.mem_map.1 ho
    rfl
  have hlisted : (outs.map RowOut.held).map HeldRow.row = rows := by
    have hsnd : (outs.map RowOut.held).map HeldRow.row = ((List.range rows.length).zip rows).map Prod.snd := by
      rw [List.map_map, List.map_map]
      rfl
    rw [hsnd, List.map_snd_zip (by simp)]
  obtain ⟨hmine, hothers⟩ := holds_replaced x.holds hgroup
  refine Gives.of_ok ⟨rows, counted, _, hrows, ⟨?_, ?_, hmem, ?_, ?_, ?_, ?_⟩, ?_, rfl⟩
  · exact hconverted.pending.trans hu.pending
  · exact hconverted.fuse.trans hu.fuse
  · exact hconverted.dom.trans hu.dom
  · exact hconverted.cmds.trans hu.cmds
  · rw [hdie, hmine, hlisted]
  · rw [hdie, hothers, hx]
  · exact ⟨rfl, rfl, rfl, rfl⟩

/-! ### A memory error -/

theorem raiseAt_fix (s : State) (code sev : Nat) (unit : BitVec 32) (op layer a0 a1 : Nat) :
    (s.raiseAt code sev unit op layer a0 a1).fix = s.fix :=
  (UpdateKeeps.of_told (State.raiseAt_told ..)).fix

theorem countUe_fix (s : State) (f : Nat × Nat × Nat) : (s.countUe f).fix = s.fix := by
  simp only [State.countUe, State.raise, apply_ite State.fix, raiseAt_fix, State.bump_fix, ite_self]

theorem foundUe_fix (s : State) (f : Nat × Nat × Nat) (line : Nat) : (s.foundUe f line).fix = s.fix := by
  simp only [State.foundUe, apply_ite State.fix, countUe_fix, ite_self]

theorem stopeUe_fix (s : State) (ctx byte : Nat) : (s.stopeUe ctx byte).fix = s.fix := by
  simp only [State.stopeUe, apply_ite State.fix, ite_self]

theorem badPlate_fix (s : State) (c : Cmd) (ctx addr check : Nat) : (s.badPlate c ctx addr check).fix = s.fix := by
  unfold State.badPlate
  split
  · exact (raiseAt_fix ..).trans (foundUe_fix ..)
  · exact stopeUe_fix ..
  · exact raiseAt_fix ..
  · exact raiseAt_fix ..

/-- What a memory error leaves of a Fixer command (R309): memory and the dies as before, the cause posted, and the command to complete
with DISCARDED_FOR_REPLAY. -/
theorem fixFail_ends {s : State} {q slot : Nat} {c : Cmd} (hrun : s.running q slot opUpdate = some c) (b : Nat × Nat) :
    (s.fixFail c b).mem = s.mem ∧ (s.fixFail c b).fix = s.fix ∧ bit (s.fixFail c b).step.causes 5 = true ∧
      ∃ c', (s.fixFail c b).cmd? q slot = some c' ∧ c'.phase = .done ∧ c'.status = 0x23 ∧ c'.worked = false := by
  have hmem := s.fixFail_mem c b
  unfold State.fixFail at hmem ⊢
  generalize htold : (if b.2 = 5 then s else s.badPlate c 0 b.1 b.2) = told at hmem ⊢
  have hkept : told.fix = s.fix ∧ told.cmds = s.cmds := by
    rw [← htold]
    split
    · exact ⟨rfl, rfl⟩
    · exact ⟨badPlate_fix .., (CommitKeeps.badPlate 0 ..).cmds⟩
  obtain ⟨hfix, hcmds⟩ := hkept
  have hcause : bit (told.step.causes ||| 2 ^ 5) 5 = true := by
    rw [bit, Nat.testBit_or, Nat.testBit_two_pow_self, Bool.or_true]
  exact ⟨hmem, hfix, hcause, _, cmd?_setCmd_running hrun hcmds _ rfl rfl, rfl, rfl, rfl⟩

/-! ### The outcomes -/

/-- What an UPDATE runs: a frozen touch, the rows of a touched group, or a dense group. -/
def State.updateRun (s : State) (c : Cmd) : Except (Nat × Nat) State :=
  if c.passes = 1 then s.touchRun c else if gTouched (s.groupOf c) then s.updRowsRun c else s.updDenseRun c

theorem updateRun_dense {s : State} {c : Cmd} (hpass : c.passes ≠ 1) (hdense : gTouched (s.groupOf c) = false) :
    s.updateRun c = s.updDenseRun c := by
  rw [State.updateRun, if_neg hpass, if_neg (ne_true_of_eq_false hdense)]

theorem updateRun_touched {s : State} {c : Cmd} (hpass : c.passes ≠ 1) (htouched : gTouched (s.groupOf c) = true) :
    s.updateRun c = s.updRowsRun c := by
  rw [State.updateRun, if_neg hpass, if_pos htouched]

section
variable {s : State} {q : Fin 128} {slot : BitVec 32} {c : Cmd} (hrun : s.running q.val slot.toNat opUpdate = some c)
include hrun

theorem updateWork_of_ok {u : State} (h : s.updateRun c = .ok u) : s.updateWork q.val slot.toNat = u := by
  unfold State.updateRun State.groupOf at h
  simp only [State.updateWork, hrun, h]

/-- A memory error is the command's end (R309). -/
theorem updateWork_of_error {b : Nat × Nat} (h : s.updateRun c = .error b) :
    s.updateWork q.val slot.toNat = s.fixFail c b := by
  unfold State.updateRun State.groupOf at h
  simp only [State.updateWork, hrun, h]

theorem ends_of_updateRun {u : State} {P : State → Prop} (h : s.updateRun c = .ok u)
    (hkept : u.pending = s.pending ∧ u.fuse = s.fuse) (hP : P u) : Ends (.update q slot) s P :=
  Ends.of_doneMem (congrArg (doneMem s) (updateWork_of_ok hrun h)) hkept hP

end

/-- Settles O42: a frozen touch, a dense group, a touched group's rows and a memory error. -/
theorem updatesWriteTheOtherSide : Obligations.UpdatesWriteTheOtherSide := by
  intro s q slot c hrun f g e sd gt all
  refine ⟨?touch, ?dense, ?oneMoment, ?rows, ?memory⟩
  case touch =>
    intro hpass gp hgp
    obtain ⟨v, hv, hmem, htouch⟩ := touchRun_eq hgp
    have hu : UpdateKeeps s (s.gradEpochs c gt gp) := UpdateKeeps.gradEpochs s c gt gp
    refine ends_of_updateRun hrun ((if_pos hpass).trans htouch) ⟨hv.pending.trans hu.pending, hv.fuse.trans hu.fuse⟩
      ⟨cmd?_setCmd_running hrun (hv.cmds.trans hu.cmds) _ rfl rfl, hmem, hv.dom.trans hu.dom, hv.fix.trans hu.fix, ?_⟩
    exact (hv.objs _ (.inl rfl)).trans (reg_bump_congr _ 1 (hu.objs _ (.inl rfl)) hu.fuse)
  case dense =>
    intro hpass hdense u hu
    obtain ⟨v, c', hv, hc', rfl⟩ := updDenseRun_gives s c u hu
    refine ends_of_updateRun hrun ((updateRun_dense hpass hdense).trans hu) ⟨hv.pending, hv.fuse⟩
      ⟨⟨c', cmd?_setCmd_running hrun hv.cmds c' hc'.q hc'.slot, hc'.worked, hc'.phase⟩, hv.dom, hv.fix, ?_⟩
    exact reg_bump_congr _ _ (hv.objs _ (.inl rfl)) hv.fuse
  case oneMoment =>
    intro hpass hdense hrule hfmt gp hp lp mp hgp hhp hlp hmp hroom new half mT o
    obtain ⟨v, hok, hmem⟩ := updDenseRun_oneMoment hrule hfmt hgp hhp hlp hmp hroom
    obtain ⟨w, c', hw, -, rfl⟩ := updDenseRun_gives s c v hok
    refine ends_of_updateRun hrun ((updateRun_dense hpass hdense).trans hok) ⟨hw.pending, hw.fuse⟩
      ⟨s.gradEpochs c gt gp, State.gradEpochs_mem .., gradEpochs_page .., (UpdateKeeps.gradEpochs ..).dom, hmem⟩
  case rows =>
    intro hpass htouched u rows hu hlist
    obtain ⟨rows', v, c', hlist', hv, hc', rfl⟩ := updRowsRun_gives s c u hu
    obtain rfl : rows' = rows := Except.ok.inj (hlist'.symm.trans hlist)
    exact ends_of_updateRun hrun ((updateRun_touched hpass htouched).trans hu) ⟨hv.pending, hv.fuse⟩
      ⟨hv.mem, hv.dom, hv.mine, hv.others, c', cmd?_setCmd_running hrun hv.cmds c' hc'.q hc'.slot, hc'.worked⟩
  case memory =>
    intro b hb
    exact ⟨_, congrArg (doneMem s) (updateWork_of_error hrun hb), fixFail_ends hrun b⟩

end Sys2Proof.Machine
end
